-- ==== Sys2Proof/Word.lean ====
section
/-!
DEFINITION. The words of the part, the names its rules use for desks, requesters, lanes, channels, outputs and
resources, and the fixed-size tables the records are kept in.
-/

namespace Sys2Proof

/-- One byte of a message or frame (R153). -/
abbrev Byte := BitVec 8

/-- A 24-bit two's-complement sample word (R153). -/
abbrev Sample := BitVec 24

/-- A downstream frame number, a deadline, a value of the frame counter (R65). -/
abbrev Frame := BitVec 32

/-- A set of the members numbered 0 to n - 1, as the channel and output sets of Table 8-5. -/
abbrev BitSet (n : Nat) := Vector Bool n

/-- An input channel, IN1 to IN72, numbered from 0. -/
abbrev Chan := Fin 72

/-- A stage output, OUT1 to OUT32, numbered from 0. -/
abbrev Out := Fin 32

/-- A claimable resource in resource order: IN1 to IN72, then OUT1 to OUT32 (03 section 3.1). -/
abbrev Res := Fin 104

/-- A gang group, 1 to 12, numbered from 0. -/
abbrev Grp := Fin 12

/-- A desk, and the link that carries it. -/
inductive Desk where
  | a | b | c
  deriving DecidableEq, Repr

/-- The four requesters (00 section 5). -/
inductive Requester where
  | a | b | c | panel
  deriving DecidableEq, Repr

/-- The two lanes of a link. -/
inductive Side where
  | p | s
  deriving DecidableEq, Repr

/-- A lane, written as link and side. -/
structure LaneId where
  link : Desk
  side : Side
  deriving DecidableEq, Repr

/-- The two stage talk inputs (R147). -/
inductive StageIn where
  | st1 | st2
  deriving DecidableEq, Repr

/-- The requester that a desk is. -/
def Desk.req : Desk → Requester
  | .a => .a
  | .b => .b
  | .c => .c

/-- The desk that a requester is; none for PANEL. -/
def Requester.desk : Requester → Option Desk
  | .a => some .a
  | .b => some .b
  | .c => some .c
  | .panel => none

/-- "The other lane" of the same link. -/
def Side.other : Side → Side
  | .p => .s
  | .s => .p

/-- The desks in the order A, B, C. -/
def Desk.all : List Desk := [.a, .b, .c]

/-- The requesters in the order A, B, C, PANEL. -/
def Requester.all : List Requester := [.a, .b, .c, .panel]

/-- The lanes in the order A-P, A-S, B-P, B-S, C-P, C-S. -/
def LaneId.all : List LaneId :=
  [⟨.a, .p⟩, ⟨.a, .s⟩, ⟨.b, .p⟩, ⟨.b, .s⟩, ⟨.c, .p⟩, ⟨.c, .s⟩]

/-- One value per desk. -/
structure PerDesk (α : Type) where
  a : α
  b : α
  c : α
  deriving DecidableEq, Repr

/-- One value per requester. -/
structure PerReq (α : Type) where
  a : α
  b : α
  c : α
  panel : α
  deriving DecidableEq, Repr

/-- One value per lane of a link. -/
structure PerSide (α : Type) where
  p : α
  s : α
  deriving DecidableEq, Repr

/-- The value of one desk. -/
def PerDesk.get {α : Type} (t : PerDesk α) : Desk → α
  | .a => t.a
  | .b => t.b
  | .c => t.c

/-- The table with one desk's value replaced. -/
def PerDesk.set {α : Type} (t : PerDesk α) (d : Desk) (x : α) : PerDesk α :=
  match d with
  | .a => { t with a := x }
  | .b => { t with b := x }
  | .c => { t with c := x }

/-- The table of a function of the desk. -/
def PerDesk.of {α : Type} (f : Desk → α) : PerDesk α := ⟨f .a, f .b, f .c⟩

/-- The value of one requester. -/
def PerReq.get {α : Type} (t : PerReq α) : Requester → α
  | .a => t.a
  | .b => t.b
  | .c => t.c
  | .panel => t.panel

/-- The table with one requester's value replaced. -/
def PerReq.set {α : Type} (t : PerReq α) (r : Requester) (x : α) : PerReq α :=
  match r with
  | .a => { t with a := x }
  | .b => { t with b := x }
  | .c => { t with c := x }
  | .panel => { t with panel := x }

/-- The table of a function of the requester. -/
def PerReq.of {α : Type} (f : Requester → α) : PerReq α := ⟨f .a, f .b, f .c, f .panel⟩

/-- The value of one lane. -/
def PerSide.get {α : Type} (t : PerSide α) : Side → α
  | .p => t.p
  | .s => t.s

/-- The pair with one lane's value replaced. -/
def PerSide.set {α : Type} (t : PerSide α) (l : Side) (x : α) : PerSide α :=
  match l with
  | .p => { t with p := x }
  | .s => { t with s := x }

/-- The record of a numbered member of a fixed-size table. -/
def Tbl.get {n : Nat} {α : Type} (v : Vector α n) (i : Fin n) : α := v[i.1]

/-- The table with one member's record replaced. -/
def Tbl.set {n : Nat} {α : Type} (v : Vector α n) (i : Fin n) (x : α) : Vector α n := v.set i.1 x

/-- The table of a function of the member. -/
def Tbl.of {n : Nat} {α : Type} (f : Fin n → α) : Vector α n := Vector.ofFn f

/-- The members of a set, in number order. -/
def BitSet.members {n : Nat} (v : BitSet n) : List (Fin n) :=
  (List.finRange n).filter (fun i => Tbl.get v i)

/-- The empty set. -/
def BitSet.empty (n : Nat) : BitSet n := Vector.replicate n false

/-- The samples that the input ports and the stage talk inputs deliver for one frame (Table 2-2). -/
structure PortSamples where
  inputs : Vector Sample 72
  st1 : Sample
  st2 : Sample
  deriving DecidableEq, Repr

/-- The levels on the pins that power-on samples: light per lane (R92), SAFE (R132), TB1 and TB2 (R151). -/
structure Pins where
  light : PerDesk (PerSide Bool)
  safe : Bool
  tb1 : Bool
  tb2 : Bool
  deriving DecidableEq, Repr

end Sys2Proof
end

