-- ==== Sys2Proof/Syntax.lean ====
section
/-!
DEFINITION. The commands of the part: one constructor per row of spec/opcode_table.json, in the table's order.
A request carries its requester, its tag and the fields of its rule as the numbers Table 8-5 encodes them in, so that
a value out of range can be sent and is answered RANGE. Sets are Boolean tables, lists are lists.
-/

namespace Sys2Proof

/-- A command given to the part. -/
inductive Instr where
  | powerOnReset (pins : Pins) (ports : PortSamples)
  | framePeriod (ports : PortSamples)
  | upstreamFrame (lane : LaneId) (bytes : List Byte)
  | acquisitionComplete (lane : LaneId)
  | qualificationComplete (lane : LaneId)
  | frameLoss (lane : LaneId)
  | lightAppears (lane : LaneId)
  | lightLoss (lane : LaneId)
  | holdoverExpiry (link : Desk)
  | testComplete (link : Desk)
  | zeroCrossing (ch : Chan)
  | transferTimeout (ch : Chan)
  | chargeExpiry (ch : Chan)
  | dischargeExpiry (ch : Chan)
  | setInput (who : Requester) (tag : Byte) (ch : Nat) (gain pad hpf phantom : Option Nat)
  | readInput (who : Requester) (tag : Byte) (ch : Nat)
  | setGang (who : Requester) (tag : Byte) (group : Nat) (members : List Nat)
  | readGang (who : Requester) (tag : Byte) (group : Option Nat)
  | setTracking (who : Requester) (tag : Byte) (desk : Nat) (channels : BitSet 72) (value : Nat)
  | setTrim (who : Requester) (tag : Byte) (desk ch : Nat) (trim : Int)
  | claim (who : Requester) (tag : Byte) (resources : List Nat) (level : Nat)
  | release (who : Requester) (tag : Byte) (resources : List Nat)
  | override (who : Requester) (tag : Byte) (resources : List Nat)
  | freeze (who : Requester) (tag : Byte)
  | readClaims (who : Requester) (tag : Byte) (resources : List Nat)
  | windowExpiry
  | graceExpiry (desk : Desk)
  | setPatch (who : Requester) (tag : Byte) (out : Nat) (primary fallback : Option (Nat × Nat))
      (failAction gap : Nat)
  | outputEnable (who : Requester) (tag : Byte) (outputs : BitSet 32) (value : Nat)
  | readOutput (who : Requester) (tag : Byte) (out : Nat)
  | fadeComplete (out : Out)
  | revertExpiry (out : Out)
  | safeAsserted
  | safeReleased
  | talkOn (who : Requester) (tag : Byte) (destinations : BitSet 32) (duck : Nat)
  | talkOff (who : Requester) (tag : Byte)
  | readTalk (who : Requester) (tag : Byte)
  | talkTimeout (desk : Desk)
  | stageTalkPress (input : StageIn)
  | stageTalkRelease (input : StageIn)
  | readLink (who : Requester) (tag : Byte) (link : Nat)
  | laneSwitch (who : Requester) (tag : Byte) (link : Nat)
  | linkRestart (who : Requester) (tag : Byte) (link : Nat)
  | readHealth (who : Requester) (tag : Byte) (link : Nat)
  | clearHealth (who : Requester) (tag : Byte) (lane : Nat)
  | laneTest (who : Requester) (tag : Byte) (lane seconds : Nat)
  | laneTestStop (who : Requester) (tag : Byte) (link : Nat)
  | requestArrival (desk : Desk) (bytes : List Byte)
  | answerDelivery (desk : Desk)
  | writeRequest (bytes : List Byte)
  | readAnswer (clocked : Nat)
  | readNotice (clocked : Nat)
  | statusPoll (clocked : Nat)
  | readNotices (who : Requester) (tag : Byte) (flush : Nat)
  | hubRestart (who : Requester) (tag : Byte)
  | writeInstall (who : Requester) (tag : Byte) (settings : List Byte)
  | readInstall (who : Requester) (tag : Byte)
  | lockInstall (who : Requester) (tag : Byte)
  | erasePrepare (who : Requester) (tag : Byte)
  | eraseInstall (who : Requester) (tag : Byte)
  | saveNow (who : Requester) (tag : Byte)
  | settleExpiry
  | storeWriteComplete
  | storeWriteFault
  | transactionStart
  deriving DecidableEq, Repr

end Sys2Proof
end

