-- ==== Sys2Proof/Decode.lean ====
section
/-!
DEFINITION. The words that spell a command. No row of spec/opcode_table.json gives bits, so no word spells one
(log entry 34). The layouts of frames, messages and panel transactions are read in Sys2Proof/Machine/Messages.lean.
-/

namespace Sys2Proof

/-- The command a word spells by the table's bits: none, since no row gives bits. -/
def decodeTableWord (_nbits _w : Nat) : Option Instr := none

end Sys2Proof
end

