-- ==== Sys2Proof/Config.lean ====
section
/-!
DEFINITION. The constants the spec fixes for the part, and the free values: what the spec leaves open, as constants
with no body, so that every theorem holds for every value of them.
-/

namespace Sys2Proof

/-- Whether an exact tie above the whole number given is rounded up. FREE VALUE (log entry 11): R28, R128, R130 and
R147 say "rounded to the nearest" and do not say which of two equally near values. Safe. -/
opaque Config.tieUp : Int → Bool

/-- Whether a talk record that lost outputs to a pre-emption and received freed outputs in one event is reported as
PREEMPTED. FREE VALUE (log entry 24): R145 gives both causes for such a record. Safe. -/
opaque Config.reportsPreempted : Bool

/-- Whether a completion signal of the memory, by its count, is that of an abandoned write where the signal of one is
still outstanding. FREE VALUE (log entry 29): R181 ignores such a signal and does not say how it is told apart. Safe. -/
opaque Config.signalIsLate : Nat → Bool

/-- Frames of one millisecond and of one second (00 section 5, Time). -/
def Config.msFrames : Nat := 48
def Config.secFrames : Nat := 48000

/-- The zero-cross timeout of R4 and R18, 50 ms. -/
def Config.zeroCrossFrames : Nat := 2400

/-- The charge and discharge times of R10. -/
def Config.chargeFrames : Nat := 19200
def Config.dischargeFrames : Nat := 38400

/-- The settle time of R180 (10 s) and the fault deadline of a store write of R181 (100 ms). -/
def Config.settleFrames : Nat := 480000
def Config.writeFaultFrames : Nat := 4800

/-- Full level of a fade in its exact units: 48 frames per millisecond times the least common multiple of the gaps
1 to 15 ms, so that the step 1/G of R114 is a whole number of units for every gap. -/
def Config.fadeFull : Nat := 17297280

/-- The step 1/G of R114 for a gap of 1 ms; a gap of g ms steps by this over g, which is exact for 1 to 15. -/
def Config.fadeUnit : Nat := 360360

/-- One decibel of duck in its exact units, so that the step 30/G dB of R127 is a whole number for every gap. -/
def Config.duckPerDb : Nat := 2882880

/-- The level, in the units of a duck, at which the linear gain is tenfold: 20 dB, a level of x dB being the factor
10^(x/20) (PRESUMED, log entry 10). -/
def Config.tenfold : Nat := 20 * Config.duckPerDb

/-- The step 30/G dB of R127 for a gap of 1 ms; a gap of g ms steps by this over g. -/
def Config.duckUnit : Nat := 1801800

end Sys2Proof
end

