-- ==== Sys2Proof/Machine/State.lean ====
section
/-!
DEFINITION. The state of the part as plain data, block by block as in Table 2-1 of 00_scope.md, its value after reset,
and the reasons a step can stop. Levels are in half decibels, numbers of channels, outputs and groups count from 0.
-/

namespace Sys2Proof.Machine

/-! ## PCU: channels, gangs, phantom, tracking (chapters 1 and 2) -/

/-- High-pass filter corner (R1). -/
inductive Hpf where
  | off | hz40 | hz80 | hz120
  deriving DecidableEq, Repr

/-- Progress of the phantom supply (R1). -/
inductive PhantomState where
  | off | queued | charging | on | discharging
  deriving DecidableEq, Repr

/-- One record of the Channel Settings Table (R1, Table 1-1; the phantom timer of R10). -/
structure Channel where
  gain : Nat
  pad : Bool
  stagedGain : Option Nat
  stagedPad : Option Bool
  stagedBy : Option Requester
  transferDeadline : Option Frame
  hpf : Hpf
  phantomTarget : Bool
  phantomState : PhantomState
  phantomTimer : Option Frame
  gang : Option Grp
  deriving DecidableEq, Repr

/-- One entry of the Tracking Table (R26, Table 2-1). -/
structure Track where
  tracking : Bool
  trim : Int
  reference : Option Int
  limitMark : Bool
  deriving DecidableEq, Repr

/-- Preamp Control Unit. -/
structure Pcu where
  channels : Vector Channel 72
  gangs : Vector (Option (List Chan)) 12
  phantomQueue : List Chan
  tracking : PerDesk (Vector Track 72)
  /-- the converted samples of the frame before and of the present frame (R6) -/
  before : Vector Sample 72
  samples : Vector Sample 72
  deriving DecidableEq, Repr

/-! ## ARB: claims (chapter 3) -/

/-- The level of a claim (R39). -/
inductive Level where
  | shared | exclusive
  deriving DecidableEq, Repr

/-- Claim state of a resource (R39). -/
inductive ClaimState where
  | opened | contended | held | orphaned
  deriving DecidableEq, Repr

/-- A claim record: each state with exactly the fields Table 3-2 gives it. -/
inductive Claim where
  | opened
  | contended (windowDeadline : Frame) (contenders : List (Requester × Level))
  | held (holder : Requester) (level : Level)
  | orphaned (holder : Desk) (level : Level) (orphanDeadline : Option Frame)
  deriving DecidableEq, Repr

/-- Answer codes, in the order of Table 8-6; the first six are also the per-resource outcomes. -/
inductive Code where
  | done | held | exclusive | orphaned | notHolder | lostArbitration | frozen | notSupervisor | range | busy
  | notReady | notUp | safeHeld | regionLocked | noPrepare | storeFault | denied | unknown
  deriving DecidableEq, Repr

/-- A pending claim: the named resources in order, each with an outcome once decided (R43). -/
abbrev PendingClaim := List (Res × Option Code)

/-- Claim Arbiter. -/
structure Arb where
  claims : Vector Claim 104
  pendingClaims : PerReq (Option PendingClaim)
  frozen : Bool
  deriving DecidableEq, Repr

/-! ## LNK: lanes and links (chapter 4) -/

/-- Lane state (R66). -/
inductive LaneState where
  | dark | acquiring | qualifying | ready | active | testing
  deriving DecidableEq, Repr

/-- Link state (R77). -/
inductive LinkState where
  | down | up | holdover
  deriving DecidableEq, Repr

/-- A control cell: the kind byte and three message bytes (R154). -/
structure Cell where
  kind : Byte
  b1 : Byte
  b2 : Byte
  b3 : Byte
  deriving DecidableEq, Repr

/-- An upstream frame whose CRC passed (Table 8-2): `pattern` is its lane_use. -/
structure UpFrame where
  number : Frame
  pattern : Bool
  slots : Vector Sample 32
  talk : Sample
  cell : Cell
  deriving DecidableEq, Repr

/-- A return buffer entry: 32 return samples and a talk sample (R75). -/
structure Entry where
  slots : Vector Sample 32
  talk : Sample
  deriving DecidableEq, Repr

/-- A lane record (R66, Table 4-1), with the transceiver's light report (R67) and the number of the last frame of the
acquire run (R68). `arrived`, `rx` and `qualifyDue` are the model's own: whether a frame arrived in this period, that
frame if its CRC passed, and that the last good frame reached the qualify length (log entry 27). -/
structure LaneRec where
  light : Bool
  state : LaneState
  latency : Option Frame
  acquireRun : Nat
  runNumber : Frame
  badRun : Nat
  qualifyCount : Nat
  qualified : Bool
  buffer : List UpFrame
  arrived : Bool
  rx : Option UpFrame
  qualifyDue : Bool
  deriving DecidableEq, Repr

/-- A link record (R77, Table 4-4) with its lanes, the last entry written (R73) and the entry delivered in this period
(R75). `fresh` is the model's own: the link entered UP in this period, and delivers nothing in it (log entry 7). -/
structure Link where
  state : LinkState
  activeLane : Option Side
  provisional : Bool
  holdoverDeadline : Option Frame
  nextTake : Option Frame
  rescuedFrames : Nat
  repeatedFrames : Nat
  returnBuffer : List Entry
  lastEntry : Option Entry
  delivered : Option Entry
  fresh : Bool
  lanes : PerSide LaneRec
  deriving DecidableEq, Repr

/-- A downstream frame as last built (R65, Table 8-1); its CRC is computed from it. -/
structure DownFrame where
  number : Frame
  hold : Bool
  gap : Bool
  patternP : Bool
  patternS : Bool
  slots : Vector Sample 72
  stageTalk : Sample
  cell : Cell
  deriving DecidableEq, Repr

/-! ## HLM: health and lane tests (chapter 5) -/

/-- A lane's health grade (R96). -/
inductive Verdict where
  | good | worn | failing
  deriving DecidableEq, Repr

/-- One value per health counter, in the order of Table 5-1. -/
structure PerCounter (α : Type) where
  crcErrors : α
  frameLosses : α
  lightLosses : α
  slips : α
  testErrors : α
  deriving DecidableEq, Repr

/-- Cause of a fault capture (R99). -/
inductive FaultCause where
  | lightLoss | frameLoss | testSuspend
  deriving DecidableEq, Repr

/-- A fault capture record (R99). -/
structure Capture where
  cause : FaultCause
  frameNumber : Frame
  priorState : LaneState
  deriving DecidableEq, Repr

/-- A lane's health record and fault capture (R94, R99). -/
structure Health where
  counters : PerCounter Nat
  verdict : Verdict
  capture : Option Capture
  deriving DecidableEq, Repr

/-- Progress and outcome of a lane test (R101). -/
inductive TestStatus where
  | running | suspended | passed | failed | aborted
  deriving DecidableEq, Repr

/-- A lane test record (R101, Table 5-3). -/
structure TestRec where
  lane : Side
  length : Nat
  framesDone : Nat
  patternFrames : Nat
  patternErrors : Nat
  leadIn : Bool
  status : TestStatus
  deriving DecidableEq, Repr

/-- Lane Health Monitor. -/
structure Hlm where
  health : PerDesk (PerSide Health)
  tests : PerDesk (Option TestRec)
  deriving DecidableEq, Repr

/-! ## MON: outputs (chapter 6) -/

/-- A return source: link and return slot, the slot counted from 0 (R111). -/
structure Source where
  link : Desk
  slot : Fin 32
  deriving DecidableEq, Repr

/-- What an output does when its primary is not usable (R111). -/
inductive FailAction where
  | mute | fallback
  deriving DecidableEq, Repr

/-- Program path state (R111). -/
inductive PathState where
  | unpatched | onPrimary | onFallback | silent | gapOut | gapIn
  deriving DecidableEq, Repr

/-- A source choice and a gap target (R111, R112). -/
inductive Target where
  | primary | fallback | none
  deriving DecidableEq, Repr

/-- An output record (R111, Table 6-1) but for safe_member, an install setting. `fade` is in units of
1/Config.fadeFull, the ducks in units of 1/Config.duckPerDb decibels, `gap` in milliseconds. `fadeDone` is the model's
own: the period's fade step reached its end (log entry 28). -/
structure Output where
  primary : Option Source
  fallback : Option Source
  failAction : FailAction
  gap : Nat
  enable : Bool
  pathState : PathState
  carried : Option Source
  gapTarget : Option Target
  fade : Nat
  revertDeadline : Option Frame
  talker : Option Desk
  duck : Nat
  duckTarget : Nat
  fadeDone : Bool
  deriving DecidableEq, Repr

/-- What an output's sample takes from the start of the period: its enable (R122) and its talker (R126). -/
structure Latched where
  enable : Bool
  talker : Option Desk
  deriving DecidableEq, Repr

/-- Monitor Output Unit: the Output Table, the SAFE line (R124), the samples last sent (R128). `view` is the model's
own: enable and talker of each output as this period began (log entry 8). -/
structure Mon where
  outputs : Vector Output 32
  safe : Bool
  view : Vector Latched 32
  port : Vector Sample 32
  deriving DecidableEq, Repr

/-! ## TBK: talkback (chapter 7) -/

/-- A Talk Request record (R134, Table 7-1); `duck` in decibels. -/
structure TalkRec where
  destinations : BitSet 32
  duck : Nat
  arrival : BitVec 32
  granted : BitSet 32
  pending : BitSet 32
  deadline : Option Frame
  deriving DecidableEq, Repr

/-- Talkback Unit: records, grant map (R135), the present records by arrival (R136), stage talk (R147). -/
structure Tbk where
  records : PerDesk (Option TalkRec)
  grants : Vector (Option Desk) 32
  order : List Desk
  arrival : BitVec 32
  st1 : Bool
  st2 : Bool
  deriving DecidableEq, Repr

/-! ## Requests, answers and notices (chapter 8) -/

/-- A request as read from its message: the kind, and the fields of its body as the numbers it carries. -/
inductive Call where
  | setInput (ch : Nat) (gain pad hpf phantom : Option Nat)
  | readInput (ch : Nat)
  | setGang (group : Nat) (members : List Nat)
  | readGang (group : Option Nat)
  | setTracking (desk : Nat) (channels : BitSet 72) (value : Nat)
  | setTrim (desk ch : Nat) (trim : Int)
  | claim (resources : List Nat) (level : Nat)
  | release (resources : List Nat)
  | override (resources : List Nat)
  | freeze
  | readClaims (resources : List Nat)
  | setPatch (out : Nat) (primary fallback : Option (Nat × Nat)) (failAction gap : Nat)
  | outputEnable (outputs : BitSet 32) (value : Nat)
  | readOutput (out : Nat)
  | talkOn (destinations : BitSet 32) (duck : Nat)
  | talkOff
  | readTalk
  | readLink (link : Nat)
  | readHealth (link : Nat)
  | clearHealth (lane : Nat)
  | laneSwitch (link : Nat)
  | laneTest (lane seconds : Nat)
  | laneTestStop (link : Nat)
  | writeInstall (settings : List Byte)
  | readInstall
  | lockInstall
  | erasePrepare
  | eraseInstall
  | saveNow
  | hubRestart
  | linkRestart (link : Nat)
  | readNotices (flush : Nat)
  /-- a kind outside 01h to 20h (R159) -/
  | unknown (kind : Byte)
  /-- a known kind whose body is too short or malformed (R159) -/
  | malformed (kind : Byte)
  deriving DecidableEq, Repr

/-- A queued request (R158): its tag and what it asks. -/
structure QEntry where
  tag : Byte
  call : Call
  deriving DecidableEq, Repr

/-- An answer: kind and tag of its request, the `discarded` flag, the code, and the body after the code (R155). -/
structure Answer where
  kind : Byte
  tag : Byte
  discarded : Bool
  code : Code
  body : List Byte
  deriving DecidableEq, Repr

/-- Why an output was safe-muted (R124, R125). -/
inductive SafeCause where
  | safeAsserted | safeReleased | allLinksLost
  deriving DecidableEq, Repr

/-- Why a talk record changed (R145). -/
inductive TalkCause where
  | talkOn | preempted | reassigned | talkOff | timeout | linkLost
  deriving DecidableEq, Repr

/-- The two regions of the store (R178). -/
inductive RegionName where
  | install | showData
  deriving DecidableEq, Repr

/-- Status of a region (R178). -/
inductive RegionStatus where
  | good | defaultsUsed | fault
  deriving DecidableEq, Repr

/-- Cause of STORE_STATE (R178). -/
inductive StoreCause where
  | powerOn | writeDone | writeFault
  deriving DecidableEq, Repr

/-- The names of the five health counters, in the order of Table 5-1. -/
inductive CounterName where
  | crcErrors | frameLosses | lightLosses | slips | testErrors
  deriving DecidableEq, Repr

/-- One output's entry in OUTPUT_STATE (R129). -/
structure OutputEntry where
  out : Out
  primary : Option Source
  fallback : Option Source
  failAction : FailAction
  gap : Nat
  pathState : PathState
  carried : Option Source
  gapTarget : Option Target
  enable : Bool
  revertRunning : Bool
  deriving DecidableEq, Repr

/-- The notices of Table 8-8, each with what its rule says it carries. -/
inductive Notice where
  | inputChanged (ch : Chan) (gain : Nat) (pad : Bool) (hpf : Hpf) (phantomTarget : Bool) (credited : Requester)
  | phantomState (ch : Chan) (state : PhantomState) (target : Bool)
  | trackLimit (ch : Chan) (mark : Bool) (trim : Int) (reference : Option Int) (effectiveGain : Int)
  | claimChanged (state : ClaimState) (holder : Option Requester) (level : Option Level) (resources : List Res)
  | claimLost (resources : List Res) (newHolder : Requester)
  | claimRestored (desk : Desk) (level : Level) (resources : List Res)
  | freezeSet (who : Requester)
  | linkState (link : Desk) (state : LinkState) (activeLane : Option Side) (provisional : Bool)
  | laneState (lane : LaneId) (state : LaneState) (qualified : Bool) (skew : Nat)
  | healthVerdict (lane : LaneId) (new old : Verdict) (counter : Option CounterName)
  | testStatus (link : Desk) (lane : Side) (status : TestStatus)
      (framesDone length patternFrames patternErrors : Nat)
  | outputState (entries : List OutputEntry)
  | safeMute (cause : SafeCause) (outputs : BitSet 32)
  | talkState (desk : Desk) (cause : TalkCause) (present : Bool) (granted pending : BitSet 32) (duck : Nat)
      (remaining : Option Nat)
  | stageTalk (input : StageIn) (pressed : Bool) (mask : PerDesk Bool)
  | storeState (region : RegionName) (status : RegionStatus) (cause : StoreCause)
  | hubRestarted (frozen : Bool)
  deriving DecidableEq, Repr

/-- A notice held for a recipient, with its GAP flag (R165, R174). -/
structure NoticeEntry where
  notice : Notice
  gap : Bool
  deriving DecidableEq, Repr

/-! ## REQ: queues, answer slots, notice buffers (chapter 8) -/

/-- A requester's Request Queue (R158), whether its head is in execution, its discarded mark (R161). -/
structure ReqQueue where
  items : List QEntry
  executing : Bool
  discarded : Bool
  deriving DecidableEq, Repr

/-- An answer in a desk's answer slot; `ahead` counts the buffered notices handed to REQ before it (R166). -/
structure SlotAnswer where
  answer : Answer
  ahead : Nat
  deriving DecidableEq, Repr

/-- The message being sent to a desk: its remaining cells (R166). An answer with no cell left has been sent. -/
structure Tx where
  cells : List Cell
  isAnswer : Bool
  deriving DecidableEq, Repr

/-- A message assembler that is assembling: the length and the bytes received (R156). -/
structure Asm where
  length : Nat
  bytes : List Byte
  deriving DecidableEq, Repr

/-- What REQ holds for a desk link. -/
structure DeskPort where
  hold : Bool
  answer : Option SlotAnswer
  notices : List NoticeEntry
  gapOwed : Bool
  tx : Option Tx
  asm : Option Asm
  deriving DecidableEq, Repr

/-- Request Engine. -/
structure Req where
  queues : PerReq ReqQueue
  desks : PerDesk DeskPort
  deriving DecidableEq, Repr

/-! ## PNL: panel port (chapter 9) -/

/-- A panel transaction in progress: the status byte, the answer and the notice its start sampled (R171), and whether
that notice still stands at the head of the queue. -/
structure Txn where
  status : Byte
  answer : Option Answer
  notice : Option NoticeEntry
  noticeStands : Bool
  deriving DecidableEq, Repr

/-- Panel Port; `miso` holds the bytes shifted out by the current or last transaction. -/
structure Pnl where
  answer : Option Answer
  notices : List NoticeEntry
  gapOwed : Bool
  discardCount : Nat
  rejected : Bool
  txn : Option Txn
  miso : List Byte
  deriving DecidableEq, Repr

/-! ## STO: settings store (chapter 9) -/

/-- Warn and fail thresholds of one counter (R95). -/
structure Threshold where
  warn : Nat
  fail : Nat
  deriving DecidableEq, Repr

/-- The install settings, in the order and units of Table 9-3; `window` is the named value 0 to 3 for 0, 1, 4, 16 ms. -/
structure Install where
  priority : PerReq Nat
  supervisor : PerReq Bool
  window : Nat
  grace : Nat
  holdover : Nat
  qualify : Nat
  thresholds : PerCounter Threshold
  revertDelay : Nat
  talkTimeout : Nat
  safeMember : BitSet 32
  allLinksLost : Bool
  startEnabled : Bool
  phantomRestore : Bool
  mask1 : PerDesk Bool
  mask2 : PerDesk Bool
  deriving DecidableEq, Repr

/-- The SHOW settings of a channel (Table 9-4). -/
structure ShowChannel where
  gain : Nat
  pad : Bool
  hpf : Hpf
  phantomTarget : Bool
  deriving DecidableEq, Repr

/-- The patch of an output (Table 9-4). -/
structure ShowPatch where
  primary : Option Source
  fallback : Option Source
  failAction : FailAction
  gap : Nat
  deriving DecidableEq, Repr

/-- A stored tracking entry (R36). -/
structure ShowTrack where
  tracking : Bool
  trim : Int
  reference : Option Int
  deriving DecidableEq, Repr

/-- The contents of the SHOW region (Table 9-4). -/
structure ShowData where
  channels : Vector ShowChannel 72
  gangs : Vector (Option (List Chan)) 12
  patches : Vector ShowPatch 32
  tracking : PerDesk (Vector ShowTrack 72)
  deriving DecidableEq, Repr

/-- The contents of the INSTALL region: the settings and the lock mark (R178). -/
structure InstallImage where
  settings : Install
  lock : Bool
  deriving DecidableEq, Repr

/-- A region of the store: its contents, and the CRC-16 stored with its settings (R178). -/
structure Region (α : Type) where
  contents : α
  crc : BitVec 16
  deriving DecidableEq, Repr

/-- Kind of a write entry (R181). -/
inductive WriteKind where
  | save | lock | erase
  deriving DecidableEq, Repr

/-- A pending write entry (R181); `waiting`: a PANEL request in execution waits on it. -/
structure WriteEntry where
  region : RegionName
  kind : WriteKind
  waiting : Bool
  deriving DecidableEq, Repr

/-- What a write puts into its region (R181). -/
inductive Snapshot where
  | install (image : InstallImage)
  | showData (data : ShowData)
  deriving DecidableEq, Repr

/-- The write running (R181). -/
structure RunningWrite where
  entry : WriteEntry
  snapshot : Snapshot
  faultDeadline : Frame
  deriving DecidableEq, Repr

/-- Settings Store. `awaited` and `signals` are the model's own (log entry 29): the writes since power-on, the running
one included, whose completion signal has not come, and the signals that have come, the index of the free value. -/
structure Sto where
  install : Install
  lock : Bool
  installRegion : Region InstallImage
  showRegion : Region ShowData
  installStatus : RegionStatus
  showStatus : RegionStatus
  settle : Option Frame
  writeList : List WriteEntry
  running : Option RunningWrite
  awaited : Nat
  signals : Nat
  erasePrepared : Bool
  deriving DecidableEq, Repr

/-! ## The part -/

/-- Everything the part holds but the queue of commands: the frame counter, the nine blocks, the frames last sent. -/
structure Hub where
  now : Frame
  pcu : Pcu
  arb : Arb
  links : PerDesk Link
  hlm : Hlm
  mon : Mon
  tbk : Tbk
  req : Req
  pnl : Pnl
  sto : Sto
  down : PerDesk DownFrame
  deriving DecidableEq, Repr

/-- The state: the commands that are waiting, first in, first out, and the part. -/
structure State where
  pending : List Instr
  hub : Hub
  deriving DecidableEq, Repr

/-- The reasons the machine stops with a fault. The spec names no condition that stops the part, so no command raises
one: `noFault` is raised by nobody. Safe. -/
inductive Fault where
  /-- raised by no command -/
  | noFault
  deriving DecidableEq, Repr

/-- The reasons a command is refused. -/
inductive Refusal where
  /-- the command of this mnemonic has no meaning yet; raised by exec's arms alone, and by none now. Safe. -/
  | notModelled (mnemonic : String)
  deriving DecidableEq, Repr

/-! ## Defaults and reset -/

/-- The install defaults of Table 9-3 and Table 5-2. -/
def Install.defaults : Install where
  priority := ⟨5, 5, 3, 7⟩
  supervisor := ⟨false, false, false, true⟩
  window := 2
  grace := 30
  holdover := 20
  qualify := 4
  thresholds := ⟨⟨100, 1000⟩, ⟨4, 16⟩, ⟨2, 8⟩, ⟨4, 32⟩, ⟨1, 100⟩⟩
  revertDelay := 5
  talkTimeout := 120
  safeMember := Vector.replicate 32 true
  allLinksLost := true
  startEnabled := false
  phantomRestore := true
  mask1 := ⟨true, true, true⟩
  mask2 := ⟨true, true, true⟩

/-- The SHOW defaults of Table 9-4: 20.0 dB, no gangs, no patch, tracking ON at the effective gain. -/
def ShowData.defaults : ShowData where
  channels := Vector.replicate 72 ⟨40, false, .off, false⟩
  gangs := Vector.replicate 12 none
  patches := Vector.replicate 32 ⟨none, none, .mute, 0⟩
  tracking := PerDesk.of fun _ => Vector.replicate 72 ⟨true, 0, some 40⟩

/-- An IDLE control cell (R154). -/
def Cell.idle : Cell := ⟨0#8, 0#8, 0#8, 0#8⟩

/-- A return buffer entry of zero samples (R75). -/
def Entry.zero : Entry := ⟨Vector.replicate 32 0#24, 0#24⟩

/-- A channel at the SHOW defaults (R24). -/
def Channel.reset : Channel where
  gain := 40
  pad := false
  stagedGain := none
  stagedPad := none
  stagedBy := none
  transferDeadline := none
  hpf := .off
  phantomTarget := false
  phantomState := .off
  phantomTimer := none
  gang := none

/-- A tracking entry at the SHOW defaults (R37). -/
def Track.reset : Track := ⟨true, 0, some 40, false⟩

/-- A lane at power-on, its transceiver reporting no light (R92). -/
def LaneRec.reset : LaneRec where
  light := false
  state := .dark
  latency := none
  acquireRun := 0
  runNumber := 0#32
  badRun := 0
  qualifyCount := 0
  qualified := false
  buffer := []
  arrived := false
  rx := none
  qualifyDue := false

/-- A link at power-on (R92). -/
def Link.reset : Link where
  state := .down
  activeLane := none
  provisional := false
  holdoverDeadline := none
  nextTake := none
  rescuedFrames := 0
  repeatedFrames := 0
  returnBuffer := []
  lastEntry := none
  delivered := none
  fresh := false
  lanes := ⟨LaneRec.reset, LaneRec.reset⟩

/-- A lane's health at power-on (R110). -/
def Health.reset : Health := ⟨⟨0, 0, 0, 0, 0⟩, .good, none⟩

/-- An output at the SHOW and install defaults (R132). -/
def Output.reset : Output where
  primary := none
  fallback := none
  failAction := .mute
  gap := 0
  enable := false
  pathState := .unpatched
  carried := none
  gapTarget := none
  fade := 0
  revertDeadline := none
  talker := none
  duck := 0
  duckTarget := 0
  fadeDone := false

/-- An empty Request Queue (R170). -/
def ReqQueue.reset : ReqQueue := ⟨[], false, false⟩

/-- A desk's part of REQ at power-on: nothing held, the gap-owed mark set (R170). -/
def DeskPort.reset : DeskPort := ⟨false, none, [], true, none, none⟩

/-- Downstream frame 0, built at power-on with no samples at the ports (R65, R92, R170; log entry 14). -/
def DownFrame.reset : DownFrame where
  number := 0#32
  hold := false
  gap := true
  patternP := false
  patternS := false
  slots := Vector.replicate 72 0#24
  stageTalk := 0#24
  cell := Cell.idle

/-- The part right after power-on reset with a store that has never been written (log entry 13), no light on any lane,
SAFE, TB1 and TB2 released and zero samples at the ports (log entry 14). -/
def Hub.reset : Hub where
  now := 0#32
  pcu :=
    { channels := Vector.replicate 72 Channel.reset
      gangs := Vector.replicate 12 none
      phantomQueue := []
      tracking := PerDesk.of fun _ => Vector.replicate 72 Track.reset
      before := Vector.replicate 72 0#24
      samples := Vector.replicate 72 0#24 }
  arb :=
    { claims := Vector.replicate 104 .opened
      pendingClaims := PerReq.of fun _ => none
      frozen := false }
  links := PerDesk.of fun _ => Link.reset
  hlm :=
    { health := PerDesk.of fun _ => ⟨Health.reset, Health.reset⟩
      tests := PerDesk.of fun _ => none }
  mon :=
    { outputs := Vector.replicate 32 Output.reset
      safe := false
      view := Vector.replicate 32 ⟨false, none⟩
      port := Vector.replicate 32 0#24 }
  tbk :=
    { records := PerDesk.of fun _ => none
      grants := Vector.replicate 32 none
      order := []
      arrival := 0#32
      st1 := false
      st2 := false }
  req :=
    { queues := PerReq.of fun _ => ReqQueue.reset
      desks := PerDesk.of fun _ => DeskPort.reset }
  pnl :=
    { answer := none
      notices :=
        [⟨.storeState .install .defaultsUsed .powerOn, true⟩,
         ⟨.storeState .showData .defaultsUsed .powerOn, false⟩]
      gapOwed := false
      discardCount := 0
      rejected := false
      txn := none
      miso := [] }
  sto :=
    { install := Install.defaults
      lock := false
      installRegion := ⟨⟨Install.defaults, false⟩, 0#16⟩
      showRegion := ⟨ShowData.defaults, 0#16⟩
      installStatus := .defaultsUsed
      showStatus := .defaultsUsed
      settle := none
      writeList := []
      running := none
      awaited := 0
      signals := 0
      erasePrepared := false }
  down := PerDesk.of fun _ => DownFrame.reset

/-- The machine right after reset, its queue of commands empty. -/
def State.reset : State := ⟨[], Hub.reset⟩

end Sys2Proof.Machine
end

