-- ==== Sys2Proof/Machine/Flags.lean ====
section
/-!
DEFINITION. Values the rules derive from held state: levels, mute indications and preamp lines, sync, trust and skew of
lanes, the Talk Queue, the notice-gap indication, the panel's status byte and IRQ line.
-/

namespace Sys2Proof.Machine

/-! ## Channels (R1, R2) -/

/-- The effective gain in half decibels: the applied gain, less 20 dB while the applied pad is ON. -/
def Channel.effectiveGain (x : Channel) : Int := (x.gain : Int) - (if x.pad then 40 else 0)

/-- The commanded gain: staged where present, otherwise applied. -/
def Channel.commandedGain (x : Channel) : Nat := x.stagedGain.getD x.gain

/-- The commanded pad: staged where present, otherwise applied. -/
def Channel.commandedPad (x : Channel) : Bool := x.stagedPad.getD x.pad

/-- At least one staged field is present. -/
def Channel.isStaged (x : Channel) : Bool := x.stagedGain.isSome || x.stagedPad.isSome

/-- In phantom transition: CHARGING or DISCHARGING. The mute indication of R2 is set exactly then. -/
def Channel.inTransition (x : Channel) : Bool :=
  match x.phantomState with
  | .charging => true
  | .discharging => true
  | .off => false
  | .queued => false
  | .on => false

/-- The phantom line of a channel (R2). -/
inductive PhantomLine where
  | off | supply | drawDown
  deriving DecidableEq, Repr

/-- The preamp control lines of a channel (R2). -/
structure PreampLines where
  gain : Nat
  pad : Bool
  hpf : Hpf
  phantom : PhantomLine
  deriving DecidableEq, Repr

/-- The lines that a channel's record drives (R2). -/
def Channel.lines (x : Channel) : PreampLines where
  gain := x.gain
  pad := x.pad
  hpf := x.hpf
  phantom :=
    match x.phantomState with
    | .charging => .supply
    | .on => .supply
    | .discharging => .drawDown
    | .off => .off
    | .queued => .off

/-- A channel of the table. -/
def Pcu.channel (p : Pcu) (c : Chan) : Channel := Tbl.get p.channels c

/-- How many channels are CHARGING (R10, R12). -/
def Pcu.charging (p : Pcu) : Nat :=
  ((List.finRange 72).filter fun c => (p.channel c).phantomState = .charging).length

/-- A desk's tracking entry for a channel. -/
def Pcu.track (p : Pcu) (d : Desk) (c : Chan) : Track := Tbl.get (p.tracking.get d) c

/-! ## Claims (R39) -/

/-- The fields of a claim record, present as Table 3-2 gives them. -/
def Claim.state : Claim → ClaimState
  | .opened => .opened
  | .contended .. => .contended
  | .held .. => .held
  | .orphaned .. => .orphaned

def Claim.holder : Claim → Option Requester
  | .opened => none
  | .contended .. => none
  | .held h _ => some h
  | .orphaned d _ _ => some d.req

def Claim.level : Claim → Option Level
  | .opened => none
  | .contended .. => none
  | .held _ l => some l
  | .orphaned _ l _ => some l

def Claim.windowDeadline : Claim → Option Frame
  | .opened => none
  | .contended t _ => some t
  | .held .. => none
  | .orphaned .. => none

def Claim.orphanDeadline : Claim → Option Frame
  | .opened => none
  | .contended .. => none
  | .held .. => none
  | .orphaned _ _ t => t

def Claim.contenders : Claim → List (Requester × Level)
  | .opened => []
  | .contended _ cs => cs
  | .held .. => []
  | .orphaned .. => []

/-- A resource's claim record. -/
def Arb.claim (x : Arb) (r : Res) : Claim := Tbl.get x.claims r

/-! ## Lanes and links (R66, R77) -/

/-- In sync: the latency is present. -/
def LaneRec.inSync (l : LaneRec) : Bool := l.latency.isSome

/-- Trusted: READY or TESTING, or ACTIVE with qualified yes. -/
def LaneRec.trusted (l : LaneRec) : Bool :=
  match l.state with
  | .ready => true
  | .testing => true
  | .active => l.qualified
  | .dark => false
  | .acquiring => false
  | .qualifying => false

/-- The difference of two latencies, without sign. -/
def latencyDistance (x y : Frame) : Nat := if x.toNat ≤ y.toNat then y.toNat - x.toNat else x.toNat - y.toNat

/-- The skew of a link's lanes: the latency difference while both are in sync, otherwise 0. -/
def Link.skew (k : Link) : Nat :=
  match k.lanes.p.latency, k.lanes.s.latency with
  | some x, some y => latencyDistance x y
  | _, _ => 0

/-- A lane of a link. -/
def Link.lane (k : Link) (side : Side) : LaneRec := k.lanes.get side

/-- The fill of the return buffer. -/
def Link.fill (k : Link) : Nat := k.returnBuffer.length

/-- A lane of the part. -/
def Hub.lane (h : Hub) (l : LaneId) : LaneRec := (h.links.get l.link).lane l.side

/-- The link of a desk is UP. -/
def Hub.linkUp (h : Hub) (d : Desk) : Bool := decide ((h.links.get d).state = .up)

/-- The link's test is RUNNING on the lane (R89). PATTERN-REQUEST is sent for the lane exactly then (R65). -/
def Hlm.testRunningOn (x : Hlm) (l : LaneId) : Bool :=
  match x.tests.get l.link with
  | none => false
  | some t => decide (t.status = .running ∧ t.lane = l.side)

/-! ## Outputs and talk -/

/-- A source is usable while its link is UP (R111). -/
def Hub.usable (h : Hub) (s : Source) : Bool := h.linkUp s.link

/-- The output takes from its fallback (R111): ON_FALLBACK, or GAP_IN towards FALLBACK. -/
def Output.takesFallback (o : Output) : Bool :=
  match o.pathState with
  | .onFallback => true
  | .gapIn => decide (o.gapTarget = some .fallback)
  | .unpatched => false
  | .onPrimary => false
  | .silent => false
  | .gapOut => false

/-- An output of the table. -/
def Mon.output (m : Mon) (o : Out) : Output := Tbl.get m.outputs o

/-- An output is in a desk's pending set. -/
def Tbk.pendingOn (t : Tbk) (d : Desk) (o : Out) : Bool :=
  match t.records.get d with
  | none => false
  | some r => Tbl.get r.pending o

/-- The Talk Queue (R137): the records whose pending set is not empty, by arrival. -/
def Tbk.queue (t : Tbk) : List Desk :=
  t.order.filter fun d =>
    match t.records.get d with
    | none => false
    | some r => !(BitSet.members r.pending).isEmpty

/-! ## Requests and the panel -/

/-- The notice-gap indication (R165): the gap-owed mark is set, or a notice with the GAP flag is buffered. -/
def DeskPort.noticeGap (p : DeskPort) : Bool := p.gapOwed || p.notices.any (·.gap)

/-- The requester's outbound answer has been delivered (R159): its answer slot is empty. -/
def Hub.slotEmpty (h : Hub) (who : Requester) : Bool :=
  match who.desk with
  | none => h.pnl.answer.isNone
  | some d => (h.req.desks.get d).answer.isNone

/-- The IRQ line (R175): an answer or a notice waits for the panel. -/
def Pnl.irq (p : Pnl) : Bool := p.answer.isSome || !p.notices.isEmpty

/-- The status byte (Table 9-2). -/
def Hub.statusByte (h : Hub) : Byte :=
  BitVec.ofNat 8 ((if h.pnl.answer.isSome then 128 else 0) +
    (if (h.req.queues.get .panel).items.length < 8 then 64 else 0) + (if h.pnl.rejected then 32 else 0) +
    h.pnl.notices.length)

end Sys2Proof.Machine
end

