-- ==== Sys2Proof/Machine/Operands.lean ====
section
/-!
DEFINITION. Operands: the numbers a request carries (Table 8-5) read as the channels, outputs, resources, desks, lanes
and named values they stand for; none where they are out of range.
-/

namespace Sys2Proof.Machine

/-- A channel number 1 to 72. -/
def chan? (n : Nat) : Option Chan := if h : 1 ≤ n ∧ n ≤ 72 then some ⟨n - 1, by omega⟩ else none

/-- An output number 1 to 32. -/
def out? (n : Nat) : Option Out := if h : 1 ≤ n ∧ n ≤ 32 then some ⟨n - 1, by omega⟩ else none

/-- A resource number: 1 to 72 for IN1 to IN72, 73 to 104 for OUT1 to OUT32. -/
def res? (n : Nat) : Option Res := if h : 1 ≤ n ∧ n ≤ 104 then some ⟨n - 1, by omega⟩ else none

/-- A gang group number 1 to 12. -/
def grp? (n : Nat) : Option Grp := if h : 1 ≤ n ∧ n ≤ 12 then some ⟨n - 1, by omega⟩ else none

/-- A desk or link: 1 A, 2 B, 3 C. -/
def desk? : Nat → Option Desk
  | 1 => some .a
  | 2 => some .b
  | 3 => some .c
  | _ => none

/-- A lane: 1 A-P to 6 C-S. -/
def lane? : Nat → Option LaneId
  | 1 => some ⟨.a, .p⟩
  | 2 => some ⟨.a, .s⟩
  | 3 => some ⟨.b, .p⟩
  | 4 => some ⟨.b, .s⟩
  | 5 => some ⟨.c, .p⟩
  | 6 => some ⟨.c, .s⟩
  | _ => none

/-- A claim level: SHARED, EXCLUSIVE. -/
def level? : Nat → Option Level
  | 0 => some .shared
  | 1 => some .exclusive
  | _ => none

/-- A filter corner: OFF, 40, 80, 120 Hz. -/
def hpf? : Nat → Option Hpf
  | 0 => some .off
  | 1 => some .hz40
  | 2 => some .hz80
  | 3 => some .hz120
  | _ => none

/-- A value of the list "OFF, ON" (and "off, on", "no, yes"). -/
def offOn? : Nat → Option Bool
  | 0 => some false
  | 1 => some true
  | _ => none

/-- A value of the list "ON, OFF" (and "on, off"). -/
def onOff? : Nat → Option Bool
  | 0 => some true
  | 1 => some false
  | _ => none

/-- A fail action: MUTE, FALLBACK. -/
def failAction? : Nat → Option FailAction
  | 0 => some .mute
  | 1 => some .fallback
  | _ => none

/-- A gain in half decibels, 0 to 127. -/
def gain? (n : Nat) : Option Nat := if n ≤ 127 then some n else none

/-- A trim in half decibels, -48 to +48. -/
def trim? (t : Int) : Option Int := if -48 ≤ t ∧ t ≤ 48 then some t else none

/-- A source: link, then return slot 1 to 32 (R120). -/
def source? : Nat × Nat → Option Source
  | (l, k) =>
    match desk? l with
    | none => none
    | some d => if h : 1 ≤ k ∧ k ≤ 32 then some ⟨d, ⟨k - 1, by omega⟩⟩ else none

/-- An optional field: absent stays absent, a present one must be in range. -/
def opt? {α β : Type} (f : α → Option β) : Option α → Option (Option β)
  | none => some none
  | some x => (f x).map some

/-- A list whose every item must be in range. -/
def all? {α β : Type} (f : α → Option β) : List α → Option (List β)
  | [] => some []
  | x :: xs =>
    match f x, all? f xs with
    | some y, some ys => some (y :: ys)
    | _, _ => none

/-- Whether no item stands twice. -/
def distinct {α : Type} [DecidableEq α] : List α → Bool
  | [] => true
  | x :: xs => !xs.contains x && distinct xs

/-- The 1 to 16 distinct resources that CLAIM, RELEASE, OVERRIDE and READ_CLAIMS name (R43, R49, R50, R61). -/
def resources? (ns : List Nat) : Option (List Res) :=
  if 1 ≤ ns.length ∧ ns.length ≤ 16 ∧ distinct ns then all? res? ns else none

/-- The 0, or 2 to 8, distinct channels that SET_GANG lists (R20). -/
def members? (ns : List Nat) : Option (List Chan) :=
  if (ns.length = 0 ∨ (2 ≤ ns.length ∧ ns.length ≤ 8)) ∧ distinct ns then all? chan? ns else none

/-- The resource that a channel is. -/
def Chan.res (c : Chan) : Res := ⟨c.1, by omega⟩

/-- The resource that an output is. -/
def Out.res (o : Out) : Res := ⟨72 + o.1, by omega⟩

/-- The value of one counter. -/
def PerCounter.get {α : Type} (t : PerCounter α) : CounterName → α
  | .crcErrors => t.crcErrors
  | .frameLosses => t.frameLosses
  | .lightLosses => t.lightLosses
  | .slips => t.slips
  | .testErrors => t.testErrors

/-- The health counters in the order of Table 5-1. -/
def CounterName.all : List CounterName := [.crcErrors, .frameLosses, .lightLosses, .slips, .testErrors]

/-- The lane's value in a table per link and side. -/
def laneGet {α : Type} (t : PerDesk (PerSide α)) (l : LaneId) : α := (t.get l.link).get l.side

/-- The table with one lane's value replaced. -/
def laneSet {α : Type} (t : PerDesk (PerSide α)) (l : LaneId) (x : α) : PerDesk (PerSide α) :=
  t.set l.link ((t.get l.link).set l.side x)

/-- The kind of a request: 01h to 20h in the order of Table 8-7 (R155). -/
def Call.kind : Call → Byte
  | .setInput .. => 0x01#8
  | .readInput .. => 0x02#8
  | .setGang .. => 0x03#8
  | .readGang .. => 0x04#8
  | .setTracking .. => 0x05#8
  | .setTrim .. => 0x06#8
  | .claim .. => 0x07#8
  | .release .. => 0x08#8
  | .override .. => 0x09#8
  | .freeze => 0x0A#8
  | .readClaims .. => 0x0B#8
  | .setPatch .. => 0x0C#8
  | .outputEnable .. => 0x0D#8
  | .readOutput .. => 0x0E#8
  | .talkOn .. => 0x0F#8
  | .talkOff => 0x10#8
  | .readTalk => 0x11#8
  | .readLink .. => 0x12#8
  | .readHealth .. => 0x13#8
  | .clearHealth .. => 0x14#8
  | .laneSwitch .. => 0x15#8
  | .laneTest .. => 0x16#8
  | .laneTestStop .. => 0x17#8
  | .writeInstall .. => 0x18#8
  | .readInstall => 0x19#8
  | .lockInstall => 0x1A#8
  | .erasePrepare => 0x1B#8
  | .eraseInstall => 0x1C#8
  | .saveNow => 0x1D#8
  | .hubRestart => 0x1E#8
  | .linkRestart .. => 0x1F#8
  | .readNotices .. => 0x20#8
  | .unknown k => k
  | .malformed k => k

/-- Whether Table 8-7 marks the kind "PANEL": 18h to 20h. -/
def panelOnly (kind : Byte) : Bool := decide (0x18 ≤ kind.toNat ∧ kind.toNat ≤ 0x20)

/-! ## Install settings from their 44 bytes (Table 9-3) -/

/-- A number in a range, from a byte. -/
def inRange (lo hi : Nat) (b : Byte) : Option Nat := if lo ≤ b.toNat ∧ b.toNat ≤ hi then some b.toNat else none

/-- A two-byte whole number. -/
def word16 (h l : Byte) : Nat := h.toNat * 256 + l.toNat

/-- A threshold pair, each 1 to 65535. -/
def threshold? (a b c d : Byte) : Option Threshold :=
  if 1 ≤ word16 a b ∧ 1 ≤ word16 c d then some ⟨word16 a b, word16 c d⟩ else none

/-- A byte read as the value 0 or 1. -/
def flag? (b : Byte) : Option Bool := offOn? b.toNat

/-- A stage talk mask: bit 7 A, bit 6 B, bit 5 C, the others 0 (R182). -/
def mask? (b : Byte) : Option (PerDesk Bool) :=
  if b.toNat % 32 = 0 then some ⟨b.getMsbD 0, b.getMsbD 1, b.getMsbD 2⟩ else none

/-- A set from its bytes: the first member at bit 7 of the first byte (Table 8-5). -/
def setOfBytes (n : Nat) (bs : List Byte) : BitSet n :=
  Tbl.of fun i => (bs.getD (i.1 / 8) 0#8).getMsbD (i.1 % 8)

/-- Priorities, 1 to 7 each. -/
def priorities? : List Byte → Option (PerReq Nat)
  | [a, b, c, d] =>
    match inRange 1 7 a, inRange 1 7 b, inRange 1 7 c, inRange 1 7 d with
    | some w, some x, some y, some z => some ⟨w, x, y, z⟩
    | _, _, _, _ => none
  | _ => none

/-- Supervisor flags, 0 no and 1 yes each. -/
def supervisors? : List Byte → Option (PerReq Bool)
  | [a, b, c, d] =>
    match flag? a, flag? b, flag? c, flag? d with
    | some w, some x, some y, some z => some ⟨w, x, y, z⟩
    | _, _, _, _ => none
  | _ => none

/-- The five threshold pairs, 20 bytes. -/
def thresholds? : List Byte → Option (PerCounter Threshold)
  | [a1, a2, a3, a4, b1, b2, b3, b4, c1, c2, c3, c4, d1, d2, d3, d4, e1, e2, e3, e4] =>
    match threshold? a1 a2 a3 a4, threshold? b1 b2 b3 b4, threshold? c1 c2 c3 c4, threshold? d1 d2 d3 d4,
      threshold? e1 e2 e3 e4 with
    | some v, some w, some x, some y, some z => some ⟨v, w, x, y, z⟩
    | _, _, _, _, _ => none
  | _ => none

/-- The talk timeout: 0, or 10 to 600 s (R143). -/
def talkTimeout? (h l : Byte) : Option Nat :=
  if word16 h l = 0 ∨ (10 ≤ word16 h l ∧ word16 h l ≤ 600) then some (word16 h l) else none

/-- The install settings carried by WRITE_INSTALL, where every value lies within its range (R182). -/
def Install.ofBytes (bs : List Byte) : Option Install := do
  let priority ← priorities? (bs.take 4)
  let supervisor ← supervisors? ((bs.drop 4).take 4)
  let window ← inRange 0 3 (bs.getD 8 0#8)
  let grace ← inRange 1 255 (bs.getD 9 0#8)
  let holdover ← inRange 1 100 (bs.getD 10 0#8)
  let qualify ← inRange 1 32 (bs.getD 11 0#8)
  let thresholds ← thresholds? ((bs.drop 12).take 20)
  let revertDelay ← inRange 0 60 (bs.getD 32 0#8)
  let talkTimeout ← talkTimeout? (bs.getD 33 0#8) (bs.getD 34 0#8)
  let allLinksLost ← flag? (bs.getD 39 0#8)
  let startEnabled ← flag? (bs.getD 40 0#8)
  let phantomRestore ← flag? (bs.getD 41 0#8)
  let mask1 ← mask? (bs.getD 42 0#8)
  let mask2 ← mask? (bs.getD 43 0#8)
  return {
    priority := priority
    supervisor := supervisor
    window := window
    grace := grace
    holdover := holdover
    qualify := qualify
    thresholds := thresholds
    revertDelay := revertDelay
    talkTimeout := talkTimeout
    safeMember := setOfBytes 32 ((bs.drop 35).take 4)
    allLinksLost := allLinksLost
    startEnabled := startEnabled
    phantomRestore := phantomRestore
    mask1 := mask1
    mask2 := mask2 }

end Sys2Proof.Machine
end

