-- ==== Sys2Proof/Machine/Messages.lean ====
section
/-!
DEFINITION. The layouts of chapter 8: the CRC-16, field encodings (Table 8-5), upstream and downstream frames
(Tables 8-1 to 8-3), control messages (Table 8-4), answer series and notices, and the reading of request bodies.
-/

namespace Sys2Proof.Machine

/-! ## CRC-16 (R153) -/

/-- One bit into the CRC: generator x^16 + x^12 + x^5 + 1. -/
def crcBit (crc : BitVec 16) (bit : Bool) : BitVec 16 :=
  if crc.msb != bit then (crc <<< 1) ^^^ 0x1021#16 else crc <<< 1

/-- One byte into the CRC, most significant bit first. -/
def crcByte (crc : BitVec 16) (b : Byte) : BitVec 16 :=
  [0, 1, 2, 3, 4, 5, 6, 7].foldl (fun c i => crcBit c (b.getMsbD i)) crc

/-- The CRC-16 of R153: starting value FFFFh, no final inversion. -/
def crc16 (bs : List Byte) : BitVec 16 := bs.foldl crcByte 0xFFFF#16

/-- The two bytes of a CRC, most significant first. -/
def crcBytes (bs : List Byte) : List Byte := [(crc16 bs).extractLsb' 8 8, (crc16 bs).extractLsb' 0 8]

/-! ## Field encodings (Table 8-5) -/

/-- A whole number in one, two or four bytes, most significant first. -/
def enc8 (n : Nat) : List Byte := [BitVec.ofNat 8 n]
def enc16 (n : Nat) : List Byte := [BitVec.ofNat 8 (n / 256), BitVec.ofNat 8 n]
def enc32 (n : Nat) : List Byte :=
  [BitVec.ofNat 8 (n / 16777216), BitVec.ofNat 8 (n / 65536), BitVec.ofNat 8 (n / 256), BitVec.ofNat 8 n]

/-- A signed level in one byte (trim, effective gain) and in two (reference). -/
def encInt8 (x : Int) : List Byte := [BitVec.ofInt 8 x]
def encInt16 (x : Int) : List Byte := enc16 (BitVec.ofInt 16 x).toNat

/-- An optional field: 00h absent; 01h and the value, present. -/
def encOpt {α : Type} (f : α → List Byte) : Option α → List Byte
  | none => [0#8]
  | some x => 0x01#8 :: f x

/-- A list: the count, then the items. -/
def encList {α : Type} (f : α → List Byte) (l : List α) : List Byte := enc8 l.length ++ l.flatMap f

/-- A value of a list that gives the false one first: "OFF, ON", "no, yes". -/
def encOff (b : Bool) : List Byte := [if b then 0x01#8 else 0#8]

/-- A value of a list that gives the true one first: "ON, OFF", "on, off", "yes, no", "set, clear". -/
def encOn (b : Bool) : List Byte := [if b then 0#8 else 0x01#8]

/-- A set of members: the first member at bit 7 of the first byte. -/
def encSet {n : Nat} (v : BitSet n) : List Byte :=
  (List.range ((n + 7) / 8)).map fun j =>
    BitVec.ofNat 8 ((List.range 8).foldl
      (fun acc i => 2 * acc + (if (v[8 * j + i]?).getD false then 1 else 0)) 0)

/-- A desk set in one byte: bit 7 A, bit 6 B, bit 5 C. Table 9-3 gives this for the install body; the model uses it in
STAGE_TALK (R148) and in READ_TALK (R149) too (log entry 16). -/
def encMask (m : PerDesk Bool) : List Byte :=
  enc8 ((if m.a then 128 else 0) + (if m.b then 64 else 0) + (if m.c then 32 else 0))

def Desk.num : Desk → Nat
  | .a => 1
  | .b => 2
  | .c => 3

def Requester.num : Requester → Nat
  | .a => 1
  | .b => 2
  | .c => 3
  | .panel => 4

def LaneId.num : LaneId → Nat
  | ⟨d, .p⟩ => 2 * Desk.num d - 1
  | ⟨d, .s⟩ => 2 * Desk.num d

def encDesk (d : Desk) : List Byte := enc8 (Desk.num d)
def encReq (r : Requester) : List Byte := enc8 (Requester.num r)
def encLane (l : LaneId) : List Byte := enc8 (LaneId.num l)
def encChan (c : Chan) : List Byte := enc8 (c.1 + 1)
def encOut (o : Out) : List Byte := enc8 (o.1 + 1)
def encRes (r : Res) : List Byte := enc8 (r.1 + 1)
def encSource (s : Source) : List Byte := encDesk s.link ++ enc8 (s.slot.1 + 1)

/-- Named values: the position in the value list, which is the order of the constructors. -/
def Hpf.pos : Hpf → Nat
  | .off => 0 | .hz40 => 1 | .hz80 => 2 | .hz120 => 3
def PhantomState.pos : PhantomState → Nat
  | .off => 0 | .queued => 1 | .charging => 2 | .on => 3 | .discharging => 4
def Level.pos : Level → Nat
  | .shared => 0 | .exclusive => 1
def ClaimState.pos : ClaimState → Nat
  | .opened => 0 | .contended => 1 | .held => 2 | .orphaned => 3
def LaneState.pos : LaneState → Nat
  | .dark => 0 | .acquiring => 1 | .qualifying => 2 | .ready => 3 | .active => 4 | .testing => 5
def LinkState.pos : LinkState → Nat
  | .down => 0 | .up => 1 | .holdover => 2
def Side.pos : Side → Nat
  | .p => 0 | .s => 1
def Verdict.pos : Verdict → Nat
  | .good => 0 | .worn => 1 | .failing => 2
def FaultCause.pos : FaultCause → Nat
  | .lightLoss => 0 | .frameLoss => 1 | .testSuspend => 2
def TestStatus.pos : TestStatus → Nat
  | .running => 0 | .suspended => 1 | .passed => 2 | .failed => 3 | .aborted => 4
def FailAction.pos : FailAction → Nat
  | .mute => 0 | .fallback => 1
def PathState.pos : PathState → Nat
  | .unpatched => 0 | .onPrimary => 1 | .onFallback => 2 | .silent => 3 | .gapOut => 4 | .gapIn => 5
def Target.pos : Target → Nat
  | .primary => 0 | .fallback => 1 | .none => 2
/-- The causes of SAFE_MUTE in the order in which R124 and R125 name them; the spec gives no value list (log entry 16). -/
def SafeCause.pos : SafeCause → Nat
  | .safeAsserted => 0 | .safeReleased => 1 | .allLinksLost => 2
def TalkCause.pos : TalkCause → Nat
  | .talkOn => 0 | .preempted => 1 | .reassigned => 2 | .talkOff => 3 | .timeout => 4 | .linkLost => 5
def RegionName.pos : RegionName → Nat
  | .install => 0 | .showData => 1
def RegionStatus.pos : RegionStatus → Nat
  | .good => 0 | .defaultsUsed => 1 | .fault => 2
def StoreCause.pos : StoreCause → Nat
  | .powerOn => 0 | .writeDone => 1 | .writeFault => 2
def CounterName.pos : CounterName → Nat
  | .crcErrors => 0 | .frameLosses => 1 | .lightLosses => 2 | .slips => 3 | .testErrors => 4
def StageIn.pos : StageIn → Nat
  | .st1 => 0 | .st2 => 1

/-- The code of an answer (Table 8-6). -/
def Code.num : Code → Nat
  | .done => 0x00 | .held => 0x01 | .exclusive => 0x02 | .orphaned => 0x03 | .notHolder => 0x04
  | .lostArbitration => 0x05 | .frozen => 0x06 | .notSupervisor => 0x07 | .range => 0x08 | .busy => 0x09
  | .notReady => 0x0A | .notUp => 0x0B | .safeHeld => 0x0C | .regionLocked => 0x0D | .noPrepare => 0x0E
  | .storeFault => 0x0F | .denied => 0x10 | .unknown => 0x11

/-! ## Notices (Table 8-8) -/

/-- The kind of a notice: 41h to 51h in the order of Table 8-8 (R155). -/
def Notice.kind : Notice → Byte
  | .inputChanged .. => 0x41#8
  | .phantomState .. => 0x42#8
  | .trackLimit .. => 0x43#8
  | .claimChanged .. => 0x44#8
  | .claimLost .. => 0x45#8
  | .claimRestored .. => 0x46#8
  | .freezeSet .. => 0x47#8
  | .linkState .. => 0x48#8
  | .laneState .. => 0x49#8
  | .healthVerdict .. => 0x4A#8
  | .testStatus .. => 0x4B#8
  | .outputState .. => 0x4C#8
  | .safeMute .. => 0x4D#8
  | .talkState .. => 0x4E#8
  | .stageTalk .. => 0x4F#8
  | .storeState .. => 0x50#8
  | .hubRestarted .. => 0x51#8

/-- One output's entry of OUTPUT_STATE (R129). The mark of the revert timer is the model's reading: not running 00h,
running 01h (log entry 16). -/
def OutputEntry.body (e : OutputEntry) : List Byte :=
  encOut e.out ++ encOpt encSource e.primary ++ encOpt encSource e.fallback ++ enc8 e.failAction.pos ++ enc8 e.gap ++
  enc8 e.pathState.pos ++ encOpt encSource e.carried ++ encOpt (fun t => enc8 t.pos) e.gapTarget ++
  encOn e.enable ++ encOff e.revertRunning

/-- The body of a notice: its fields in the order its rule lists them. The mark of TALK_STATE whether the record is
present is the model's reading: removed 00h, present 01h (log entry 16). -/
def Notice.body : Notice → List Byte
  | .inputChanged ch gain pad hpf target credited =>
      encChan ch ++ enc8 gain ++ encOff pad ++ enc8 hpf.pos ++ encOff target ++ encReq credited
  | .phantomState ch st target => encChan ch ++ enc8 st.pos ++ encOff target
  | .trackLimit ch mark trim ref eff =>
      encChan ch ++ encOn mark ++ encInt8 trim ++ encOpt encInt16 ref ++ encInt8 eff
  | .claimChanged st holder level rs =>
      enc8 st.pos ++ encOpt encReq holder ++ encOpt (fun l => enc8 l.pos) level ++ encList encRes rs
  | .claimLost rs holder => encList encRes rs ++ encReq holder
  | .claimRestored d level rs => encDesk d ++ enc8 level.pos ++ encList encRes rs
  | .freezeSet who => encReq who
  | .linkState d st active prov =>
      encDesk d ++ enc8 st.pos ++ encOpt (fun x => enc8 (Side.pos x)) active ++ encOn prov
  | .laneState l st q skew => encLane l ++ enc8 st.pos ++ encOn q ++ enc32 skew
  | .healthVerdict l new old counter =>
      encLane l ++ enc8 new.pos ++ enc8 old.pos ++ encOpt (fun c => enc8 c.pos) counter
  | .testStatus d side st fdone len pf pe =>
      encDesk d ++ enc8 (Side.pos side) ++ enc8 st.pos ++ enc32 fdone ++ enc32 len ++ enc32 pf ++ enc32 pe
  | .outputState es => encList OutputEntry.body es
  | .safeMute cause outs => enc8 cause.pos ++ encSet outs
  | .talkState d cause present granted pending duck rem =>
      encDesk d ++ enc8 cause.pos ++ encOff present ++ encSet granted ++ encSet pending ++ enc8 duck ++
      encOpt enc16 rem
  | .stageTalk i pressed mask => enc8 (StageIn.pos i) ++ encOn pressed ++ encMask mask
  | .storeState r st cause => enc8 r.pos ++ enc8 st.pos ++ enc8 cause.pos
  | .hubRestarted frozen => encOn frozen

/-! ## Control messages (Table 8-4) -/

/-- A message: length, kind, tag, flags, body padded to the 8-byte minimum, CRC (R155). -/
def messageBytes (kind tag flags : Byte) (body : List Byte) : List Byte :=
  let padded := body ++ List.replicate (2 - body.length) 0#8
  let head := BitVec.ofNat 8 (padded.length + 6) :: kind :: tag :: flags :: padded
  head ++ crcBytes head

/-- The message of a notice: tag 0, the GAP flag at bit 6. -/
def NoticeEntry.bytes (e : NoticeEntry) : List Byte :=
  messageBytes e.notice.kind 0#8 (if e.gap then 0x40#8 else 0#8) e.notice.body

/-- The body cut into pieces of at most 58 bytes, at least one piece; the number gives the pieces still allowed. Log
entry 48: every piece but the last is filled with 58 bytes, as R155 does not say where a series is cut. -/
def pieces : Nat → List Byte → List (List Byte)
  | 0, bs => [bs]
  | n + 1, bs => if bs.length ≤ 58 then [bs] else bs.take 58 :: pieces n (bs.drop 58)

/-- The messages of an answer series: CONTINUED on every message but the last, `discarded` on the first. -/
def seriesOf (kind tag : Byte) (discarded : Bool) : List (List Byte) → List (List Byte)
  | [] => []
  | [b] => [messageBytes kind tag (if discarded then 0x80#8 else 0#8) b]
  | b :: bs =>
      messageBytes kind tag (if discarded then 0xA0#8 else 0x20#8) b :: seriesOf kind tag false bs

/-- The answer as one message or a series of 2 to 4 (R155). -/
def Answer.messages (x : Answer) : List (List Byte) :=
  seriesOf x.kind x.tag x.discarded (pieces 3 (BitVec.ofNat 8 x.code.num :: x.body))

/-- The bytes of an answer, message after message (R173). -/
def Answer.bytes (x : Answer) : List Byte := x.messages.flatten

/-! ## Control cells (R154) -/

/-- The MORE cells of the bytes that follow a message's first three. -/
def moreCells : List Byte → List Cell
  | [] => []
  | [x] => [⟨0x02#8, x, 0#8, 0#8⟩]
  | [x, y] => [⟨0x02#8, x, y, 0#8⟩]
  | x :: y :: z :: rest => ⟨0x02#8, x, y, z⟩ :: moreCells rest

/-- The cells of a message: one START, then MORE, three message bytes each, the last filled up with 00h. -/
def messageCells : List Byte → List Cell
  | x :: y :: z :: rest => ⟨0x01#8, x, y, z⟩ :: moreCells rest
  | bs => [⟨0x01#8, bs.getD 0 0#8, bs.getD 1 0#8, 0#8⟩]

/-- The cells of a desk's answer: its messages one after another. -/
def Answer.cells (x : Answer) : List Cell := x.messages.flatMap messageCells

/-! ## Frames -/

/-- Three bytes of a sample word, most significant first. -/
def encSample (x : Sample) : List Byte := [x.extractLsb' 16 8, x.extractLsb' 8 8, x.extractLsb' 0 8]

/-- The sample word of three bytes. -/
def sampleOf (x y z : Byte) : Sample := (x ++ y ++ z).cast (by decide)

/-- The header flags of a downstream frame (Table 8-3). -/
def DownFrame.flags (f : DownFrame) : Byte :=
  BitVec.ofNat 8 ((if f.hold then 128 else 0) + (if f.gap then 64 else 0) + (if f.patternP then 32 else 0) +
    (if f.patternS then 16 else 0))

/-- The bytes of a control cell. -/
def Cell.bytes (x : Cell) : List Byte := [x.kind, x.b1, x.b2, x.b3]

/-- The downstream frame before its CRC, 228 bytes (Table 8-1). -/
def DownFrame.head (f : DownFrame) : List Byte :=
  enc32 f.number.toNat ++ [f.flags] ++ f.slots.toList.flatMap encSample ++ encSample f.stageTalk ++ f.cell.bytes

/-- The 230 bytes of a downstream frame, the same on both lanes (R65, R153). -/
def DownFrame.bytes (f : DownFrame) : List Byte := f.head ++ crcBytes f.head

/-- The frame number in the first four bytes. -/
def frameNumber (bs : List Byte) : Frame :=
  BitVec.ofNat 32 ((bs.getD 0 0#8).toNat * 16777216 + (bs.getD 1 0#8).toNat * 65536 + (bs.getD 2 0#8).toNat * 256 +
    (bs.getD 3 0#8).toNat)

/-- The sample at a byte position. -/
def sampleAt (bs : List Byte) (i : Nat) : Sample := sampleOf (bs.getD i 0#8) (bs.getD (i + 1) 0#8) (bs.getD (i + 2) 0#8)

/-- The upstream frame in 110 bytes (Table 8-2); none where its CRC fails (R153) or it is no frame of 110 bytes. -/
def parseUp (bs : List Byte) : Option UpFrame :=
  if bs.length = 110 ∧ crcBytes (bs.take 108) = bs.drop 108 then
    some
      { number := frameNumber bs
        pattern := (bs.getD 4 0#8).msb
        slots := Tbl.of fun k => sampleAt bs (5 + 3 * k.1)
        talk := sampleAt bs 101
        cell := ⟨bs.getD 104 0#8, bs.getD 105 0#8, bs.getD 106 0#8, bs.getD 107 0#8⟩ }
  else none

/-- The expected pattern word of slot k (1 to 33) of the frame numbered n (R103, R153). -/
def patternWord (n : Frame) (k : Nat) : Sample :=
  (BitVec.ofNat 8 k ++ ((n.extractLsb' 0 16) ^^^ BitVec.ofNat 16 (k * 257))).cast (by decide)

/-- How many of a PATTERN frame's 33 words differ from the expected words. -/
def patternErrorsOf (f : UpFrame) : Nat :=
  ((List.finRange 32).filter fun k => Tbl.get f.slots k ≠ patternWord f.number (k.1 + 1)).length +
    (if f.talk ≠ patternWord f.number 33 then 1 else 0)

/-! ## Reading request bodies (R155, R159, Table 8-5) -/

/-- A byte and the rest. -/
def get1 : List Byte → Option (Nat × List Byte)
  | [] => none
  | x :: r => some (x.toNat, r)

/-- Two bytes as a whole number. -/
def get2 : List Byte → Option (Nat × List Byte)
  | x :: y :: r => some (word16 x y, r)
  | _ => none

/-- An optional one-byte field; another mark than 00h and 01h is malformed (log entry 17). -/
def getOpt : List Byte → Option (Option Nat × List Byte)
  | [] => none
  | x :: r =>
    if x = 0#8 then some (none, r)
    else if x = 0x01#8 then (get1 r).map fun (v, r') => (some v, r')
    else none

/-- An optional source. -/
def getSource : List Byte → Option (Option (Nat × Nat) × List Byte)
  | [] => none
  | x :: r =>
    if x = 0#8 then some (none, r)
    else if x = 0x01#8 then
      match r with
      | l :: k :: r' => some (some (l.toNat, k.toNat), r')
      | _ => none
    else none

/-- A list of one-byte items with its count. -/
def getList : List Byte → Option (List Nat × List Byte)
  | [] => none
  | n :: r => if n.toNat ≤ r.length then some ((r.take n.toNat).map BitVec.toNat, r.drop n.toNat) else none

/-- A fixed number of bytes. -/
def getBytes (n : Nat) (bs : List Byte) : Option (List Byte × List Byte) :=
  if n ≤ bs.length then some (bs.take n, bs.drop n) else none

/-- The request of a kind and a body; none where the body is too short or malformed. -/
def parseBody (kind : Nat) (b : List Byte) : Option Call :=
  match kind with
  | 0x01 => do
    let (ch, b) ← get1 b
    let (gain, b) ← getOpt b
    let (pad, b) ← getOpt b
    let (hpf, b) ← getOpt b
    let (phantom, _) ← getOpt b
    return .setInput ch gain pad hpf phantom
  | 0x02 => (get1 b).map fun (ch, _) => .readInput ch
  | 0x03 => do
    let (g, b) ← get1 b
    let (ms, _) ← getList b
    return .setGang g ms
  | 0x04 => (getOpt b).map fun (g, _) => .readGang g
  | 0x05 => do
    let (d, b) ← get1 b
    let (s, b) ← getBytes 9 b
    let (v, _) ← get1 b
    return .setTracking d (setOfBytes 72 s) v
  | 0x06 => do
    let (d, b) ← get1 b
    let (ch, b) ← get1 b
    let (t, _) ← get1 b
    return .setTrim d ch (BitVec.ofNat 8 t).toInt
  | 0x07 => do
    let (rs, b) ← getList b
    let (l, _) ← get1 b
    return .claim rs l
  | 0x08 => (getList b).map fun (rs, _) => .release rs
  | 0x09 => (getList b).map fun (rs, _) => .override rs
  | 0x0A => some .freeze
  | 0x0B => (getList b).map fun (rs, _) => .readClaims rs
  | 0x0C => do
    let (o, b) ← get1 b
    let (pr, b) ← getSource b
    let (fb, b) ← getSource b
    let (fa, b) ← get1 b
    let (gap, _) ← get1 b
    return .setPatch o pr fb fa gap
  | 0x0D => do
    let (s, b) ← getBytes 4 b
    let (v, _) ← get1 b
    return .outputEnable (setOfBytes 32 s) v
  | 0x0E => (get1 b).map fun (o, _) => .readOutput o
  | 0x0F => do
    let (s, b) ← getBytes 4 b
    let (duck, _) ← get1 b
    return .talkOn (setOfBytes 32 s) duck
  | 0x10 => some .talkOff
  | 0x11 => some .readTalk
  | 0x12 => (get1 b).map fun (l, _) => .readLink l
  | 0x13 => (get1 b).map fun (l, _) => .readHealth l
  | 0x14 => (get1 b).map fun (l, _) => .clearHealth l
  | 0x15 => (get1 b).map fun (l, _) => .laneSwitch l
  | 0x16 => do
    let (l, b) ← get1 b
    let (n, _) ← get2 b
    return .laneTest l n
  | 0x17 => (get1 b).map fun (l, _) => .laneTestStop l
  | 0x18 => (getBytes 44 b).map fun (s, _) => .writeInstall s
  | 0x19 => some .readInstall
  | 0x1A => some .lockInstall
  | 0x1B => some .erasePrepare
  | 0x1C => some .eraseInstall
  | 0x1D => some .saveNow
  | 0x1E => some .hubRestart
  | 0x1F => (get1 b).map fun (l, _) => .linkRestart l
  | 0x20 => (get1 b).map fun (f, _) => .readNotices f
  | _ => none

/-- The request of a kind and a body, with unknown kinds and malformed bodies kept to be answered in queue order. -/
def parseCall (kind : Byte) (body : List Byte) : Call :=
  if 1 ≤ kind.toNat ∧ kind.toNat ≤ 0x20 then (parseBody kind.toNat body).getD (.malformed kind)
  else .unknown kind

/-- The request in a complete message of 8 to 64 bytes; none where the CRC fails (R157). -/
def parseMessage (bs : List Byte) : Option QEntry :=
  if crcBytes (bs.take (bs.length - 2)) = bs.drop (bs.length - 2) then
    some ⟨bs.getD 2 0#8, parseCall (bs.getD 1 0#8) ((bs.take (bs.length - 2)).drop 4)⟩
  else none

/-- A complete message's length byte gives its length, 8 to 64 (R156, R172). -/
def lengthOk (bs : List Byte) : Bool :=
  decide (8 ≤ bs.length ∧ bs.length ≤ 64 ∧ (bs.getD 0 0#8).toNat = bs.length)

/-! ## Install settings to bytes (Table 9-3) -/

/-- The install settings in the order and widths of Table 9-3. -/
def Install.bytes (x : Install) : List Byte :=
  Requester.all.flatMap (fun r => enc8 (x.priority.get r)) ++
  Requester.all.flatMap (fun r => encOff (x.supervisor.get r)) ++
  enc8 x.window ++ enc8 x.grace ++ enc8 x.holdover ++ enc8 x.qualify ++
  CounterName.all.flatMap (fun c => enc16 (x.thresholds.get c).warn ++ enc16 (x.thresholds.get c).fail) ++
  enc8 x.revertDelay ++ enc16 x.talkTimeout ++ encSet x.safeMember ++ encOff x.allLinksLost ++
  encOff x.startEnabled ++ encOff x.phantomRestore ++ encMask x.mask1 ++ encMask x.mask2

/-! ## The regions of the store (R178, Table 9-4; log entry 19) -/

/-- A channel's SHOW settings. -/
def ShowChannel.bytes (x : ShowChannel) : List Byte :=
  enc8 x.gain ++ encOff x.pad ++ enc8 x.hpf.pos ++ encOff x.phantomTarget

/-- An output's patch. -/
def ShowPatch.bytes (x : ShowPatch) : List Byte :=
  encOpt encSource x.primary ++ encOpt encSource x.fallback ++ enc8 x.failAction.pos ++ enc8 x.gap

/-- A stored tracking entry. -/
def ShowTrack.bytes (x : ShowTrack) : List Byte :=
  encOn x.tracking ++ encInt8 x.trim ++ encOpt encInt16 x.reference

/-- The SHOW settings in the order of Table 9-4, their fields encoded as Table 8-5 states. -/
def ShowData.bytes (x : ShowData) : List Byte :=
  x.channels.toList.flatMap ShowChannel.bytes ++ x.gangs.toList.flatMap (encOpt (encList encChan)) ++
  x.patches.toList.flatMap ShowPatch.bytes ++
  Desk.all.flatMap fun d => (x.tracking.get d).toList.flatMap ShowTrack.bytes

/-- The CRC-16 over the settings of an INSTALL region; the lock mark is not part of them. -/
def InstallImage.crc (x : InstallImage) : BitVec 16 := crc16 x.settings.bytes

/-- The CRC-16 over the settings of a SHOW region. -/
def ShowData.crc (x : ShowData) : BitVec 16 := crc16 x.bytes

/-- A region passes its check: the CRC-16 stored is the one of its settings, computed by a function (R178, R179). -/
def Region.passes {α : Type} (crc : α → BitVec 16) (r : Region α) : Bool := decide (r.crc = crc r.contents)

end Sys2Proof.Machine
end

