-- ==== Sys2Proof/Machine/Ops.lean ====
section
/-!
DEFINITION. The shared operations: deadlines and times remaining, rounding, placing notices (R164, R165, R174), handing
an answer to REQ (R160, R161, R163, R173) and reporting a change of SHOW data (R180).
-/

namespace Sys2Proof.Machine

/-! ## Time (00 section 5, R65) -/

/-- The frame number n frames later, across the wrap. -/
def later (now : Frame) (n : Nat) : Frame := now + BitVec.ofNat 32 n

/-- The counter has reached the deadline, compared across the wrap. -/
def reached (now deadline : Frame) : Bool := decide ((now - deadline).toNat < 2147483648)

/-- An optional deadline is present and reached. -/
def due (now : Frame) : Option Frame → Bool
  | none => false
  | some t => reached now t

/-- The frames left to a deadline; 0 once it is reached. -/
def framesLeft (now deadline : Frame) : Nat := if reached now deadline then 0 else (deadline - now).toNat

/-- The time left in units of some frames, rounded up. -/
def timeLeft (unit : Nat) (now deadline : Frame) : Nat := (framesLeft now deadline + (unit - 1)) / unit

/-! ## Rounding (R28, R128, R130, R147) -/

/-- The whole number nearest to num / den; an exact tie goes up where Config.tieUp says so (log entry 11). -/
def roundNearest (num : Int) (den : Nat) : Int :=
  let low := num / (den : Int)
  let rest := 2 * (num % (den : Int))
  if rest < den then low else if (den : Int) < rest then low + 1 else if Config.tieUp low then low + 1 else low

/-- A value replaced by the largest 24-bit value of its sign where it lies beyond the range. -/
def saturate24 (x : Int) : Sample := BitVec.ofInt 24 (if x < -8388608 then -8388608 else if 8388607 < x then 8388607 else x)

/-! ## Linear gains (R28, R128) -/

/-- n/2 against num/den times the linear factor 10^(x/20) of a level of x dB, the level in units of 1/2,882,880 dB:
both are raised to the root of the factor, so that whole numbers are compared (log entry 10). -/
def compareHalf (level : Int) (num den n : Nat) : Ordering :=
  let g := Nat.gcd level.natAbs Config.tenfold
  let root := Config.tenfold / g
  let power := 10 ^ (level.natAbs / g)
  if 0 ≤ level then compare ((n * den) ^ root) ((2 * num) ^ root * power)
  else compare ((n * den) ^ root * power) ((2 * num) ^ root)

/-- The last number below 2^bits that passes a test which 0 passes and which fails from some number on. -/
def lastBelow (test : Nat → Bool) (bits : Nat) : Nat :=
  (List.range bits).reverse.foldl (fun low i => if test (low + 2 ^ i) then low + 2 ^ i else low) 0

/-- The whole number nearest to num/den times the linear factor of a level, plus a whole number; 2^28 lies beyond every
sample times a trim of +24.0 dB. -/
def roundScaled (level num : Int) (den : Nat) (plus : Int) : Int :=
  let k := lastBelow (fun n => compareHalf level num.natAbs den (2 * n) != .gt) 28
  let low := (if num < 0 then -(k + 1 : Int) else k) + plus
  let nearZero := if num < 0 then low + 1 else low
  let farther := if num < 0 then low else low + 1
  match compareHalf level num.natAbs den (2 * k + 1) with
  | .gt => nearZero
  | .lt => farther
  | .eq => if Config.tieUp low then low + 1 else low

/-- The whole number nearest to num/den times the linear factor of a level, plus a whole number: 0.0 dB is the factor 1
and +6.0 dB the factor 2 (R28), a level of x dB any other time 10^(x/20) (log entry 10). -/
def scaled (level num : Int) (den : Nat) (plus : Int) : Int :=
  if level = 0 then roundNearest (num + plus * den) den
  else if level = 6 * Config.duckPerDb then roundNearest (2 * num + plus * den) den
  else roundScaled level num den plus

/-! ## Notices -/

/-- A notice at the tail of a desk's Notice Buffer, taking the GAP flag the mark owes; or discarded where 8 are held,
the mark then set (R164, R165). -/
def DeskPort.place (p : DeskPort) (n : Notice) : DeskPort :=
  if p.notices.length < 8 then { p with notices := p.notices ++ [⟨n, p.gapOwed⟩], gapOwed := false }
  else { p with gapOwed := true }

/-- A notice at the tail of the Panel Notice Queue, or discarded and counted where 16 are held (R174). -/
def Pnl.place (p : Pnl) (n : Notice) : Pnl :=
  if p.notices.length < 16 then { p with notices := p.notices ++ [⟨n, p.gapOwed⟩], gapOwed := false }
  else { p with gapOwed := true, discardCount := if p.discardCount < 255 then p.discardCount + 1 else p.discardCount }

/-- What REQ holds for a desk, replaced. -/
def Hub.setDesk (h : Hub) (d : Desk) (p : DeskPort) : Hub := { h with req := { h.req with desks := h.req.desks.set d p } }

/-- A requester's queue, replaced. -/
def Hub.setQueue (h : Hub) (r : Requester) (q : ReqQueue) : Hub :=
  { h with req := { h.req with queues := h.req.queues.set r q } }

/-- A notice for one desk: placed if its link is UP, passed over otherwise (R164). -/
def notifyDesk (d : Desk) (n : Notice) (h : Hub) : Hub :=
  if h.linkUp d then h.setDesk d ((h.req.desks.get d).place n) else h

/-- A notice for PANEL. -/
def notifyPanel (n : Notice) (h : Hub) : Hub := { h with pnl := h.pnl.place n }

/-- A notice for a desk, if UP, and PANEL. -/
def notifyDeskPanel (d : Desk) (n : Notice) (h : Hub) : Hub := notifyPanel n (notifyDesk d n h)

/-- An all-desk notice: every desk whose link is UP, and PANEL. -/
def notifyAll (n : Notice) (h : Hub) : Hub :=
  notifyPanel n (notifyDesk .c n (notifyDesk .b n (notifyDesk .a n h)))

/-- All-desk notices in order. -/
def notifyEach (ns : List Notice) (h : Hub) : Hub := ns.foldl (fun h n => notifyAll n h) h

/-- A notice for one requester: a desk whose link is UP, or PANEL. -/
def notifyRequester (r : Requester) (n : Notice) (h : Hub) : Hub :=
  match r.desk with
  | none => notifyPanel n h
  | some d => notifyDesk d n h

/-! ## Answers -/

/-- An answer in the requester's answer slot: a desk's in REQ, behind the notices it holds; PANEL's in PNL (R163, R166,
R173). -/
def Hub.putAnswer (h : Hub) (who : Requester) (x : Answer) : Hub :=
  match who.desk with
  | none => { h with pnl := { h.pnl with answer := some x } }
  | some d =>
    let p := h.req.desks.get d
    h.setDesk d { p with answer := some ⟨x, p.notices.length⟩ }

/-- An owner's answer to the requester's request in execution: REQ forms it with the request's kind and tag and the
discarded mark, which it clears, and puts it in the requester's answer slot (R160, R161). Nothing is answered where no
request of the requester is in execution. -/
def answerTo (who : Requester) (code : Code) (body : List Byte) (h : Hub) : Hub :=
  let q := h.req.queues.get who
  match q.executing, q.items with
  | true, e :: _ => (h.setQueue who { q with discarded := false }).putAnswer who ⟨e.call.kind, e.tag, q.discarded, code, body⟩
  | _, _ => h

/-! ## Reports of SHOW data (R23, R180) -/

/-- An owner's report of a change of SHOW data: the settle timer starts again, 10 s ahead. -/
def showReport (h : Hub) : Hub := { h with sto := { h.sto with settle := some (later h.now Config.settleFrames) } }

/-- The report, where a change was made. -/
def showReportIf (changed : Bool) (h : Hub) : Hub := if changed then showReport h else h

/-! ## Lists -/

/-- A list cut into pieces of at most n items, for lists of at most fuel pieces. -/
def cut {α : Type} (n : Nat) : Nat → List α → List (List α)
  | 0, _ => []
  | fuel + 1, l => if l.isEmpty then [] else l.take n :: cut n fuel (l.drop n)

end Sys2Proof.Machine
end

