-- ==== Sys2Proof/Machine/Queues.lean ====
section
/-!
DEFINITION. REQ (chapter 8) where it acts without handing a request to an owner: link events, HUB_RESTART, power-on,
the choice and sending of control cells (R166), the notice-gap and HOLD indications.
-/

namespace Sys2Proof.Machine

/-! ## Link events and restart -/

/-- A desk's part of REQ when its link leaves UP (R156, R167). -/
def DeskPort.leavesUp (p : DeskPort) : DeskPort := { p with asm := none, gapOwed := true }

/-- REQ when a desk's link leaves UP. -/
def reqLeavesUp (d : Desk) (h : Hub) : Hub := h.setDesk d (h.req.desks.get d).leavesUp

/-- A desk's part of REQ at its teardown (R168). -/
def DeskPort.teardown (p : DeskPort) : DeskPort := ⟨false, none, [], p.gapOwed, none, none⟩

/-- REQ at the entry of a desk's link to DOWN (R168). -/
def reqDown (d : Desk) (h : Hub) : Hub :=
  (h.setQueue d.req ReqQueue.reset).setDesk d (h.req.desks.get d).teardown

/-- A desk's part of REQ at HUB_RESTART (R169); the assembler is kept. -/
def DeskPort.restart (p : DeskPort) : DeskPort := ⟨false, none, [], true, none, p.asm⟩

/-- The PANEL queue at HUB_RESTART: the requests behind the HUB_RESTART are dropped (R169, step 2). -/
def ReqQueue.panelRestart (q : ReqQueue) : ReqQueue := { q with items := q.items.take 1, discarded := false }

/-- REQ at HUB_RESTART (R169). -/
def Req.restart (x : Req) : Req where
  queues := ⟨ReqQueue.reset, ReqQueue.reset, ReqQueue.reset, x.queues.panel.panelRestart⟩
  desks := PerDesk.of fun d => (x.desks.get d).restart

/-- REQ at power-on (R170). -/
def Req.powerOn : Req where
  queues := PerReq.of fun _ => ReqQueue.reset
  desks := PerDesk.of fun _ => DeskPort.reset

/-! ## HOLD (R162) -/

/-- HOLD after an arrival that leaves the queue at a count. -/
def holdAfterArrival (hold : Bool) (count : Nat) : Bool := hold || decide (6 ≤ count)

/-- HOLD after a delivery that leaves the queue at a count. -/
def holdAfterDelivery (hold : Bool) (count : Nat) : Bool := hold && !decide (count ≤ 3)

/-! ## Control cells (R166) -/

/-- The answer or the notice handed to REQ first, as the cells of its message; none where neither waits. -/
def DeskPort.nextMessage (p : DeskPort) : Option Tx :=
  match p.answer, p.notices with
  | none, [] => none
  | none, n :: _ => some ⟨messageCells n.bytes, false⟩
  | some x, [] => some ⟨x.answer.cells, true⟩
  | some x, n :: _ => if x.ahead = 0 then some ⟨x.answer.cells, true⟩ else some ⟨messageCells n.bytes, false⟩

/-- A notice whose last cell is sent leaves the buffer (R164). -/
def DeskPort.noticeSent (p : DeskPort) : DeskPort :=
  { p with
    notices := p.notices.tail
    answer := p.answer.map fun x => { x with ahead := x.ahead - 1 }
    tx := none }

/-- The next cell of a message is sent. An answer wholly sent stays as the message being sent until its delivery. -/
def DeskPort.send (p : DeskPort) (m : Tx) : Cell × DeskPort :=
  match m.cells with
  | [] => (Cell.idle, { p with tx := some m })
  | [c] => (c, if m.isAnswer then { p with tx := some ⟨[], true⟩ } else p.noticeSent)
  | c :: c' :: cs => (c, { p with tx := some ⟨c' :: cs, m.isAnswer⟩ })

/-- The control cell of a desk's next downstream frame (R166). -/
def DeskPort.nextCell (p : DeskPort) : Cell × DeskPort :=
  match p.tx with
  | some m => p.send m
  | none =>
    match p.nextMessage with
    | none => (Cell.idle, p)
    | some m => p.send m

/-- The last cell of the desk's answer has been sent: its delivery is due (R160). -/
def DeskPort.answerSent (p : DeskPort) : Bool :=
  match p.tx with
  | none => false
  | some m => m.isAnswer && m.cells.isEmpty

end Sys2Proof.Machine
end

