-- ==== Sys2Proof/Machine/Claims.lean ====
section
/-!
DEFINITION. ARB, the Claim Arbiter (chapter 3): permission verdicts, CLAIM, RELEASE, OVERRIDE, FREEZE, READ_CLAIMS,
resolve windows, orphaning, grace and restore, the restart, and the claim notices.
-/

namespace Sys2Proof.Machine

/-! ## Permission (R41, R42) -/

/-- The permission verdict. -/
inductive Permission where
  | permitted
  | refusedHeld (holder : Requester) (level : Level)
  | refusedOrphaned
  deriving DecidableEq, Repr

/-- Whether the requester may change the resource (the table of R41). -/
def Arb.permission (x : Arb) (who : Requester) (r : Res) : Permission :=
  match x.claim r with
  | .opened => .permitted
  | .contended .. => .permitted
  | .held h l => if h = who then .permitted else .refusedHeld h l
  | .orphaned .. => .refusedOrphaned

/-- The verdict permits. -/
def Arb.permits (x : Arb) (who : Requester) (r : Res) : Bool := decide (x.permission who r = .permitted)

/-- The answer code a refused verdict gives where a rule takes it from the verdict (R3, R120, R123). -/
def Permission.code : Permission → Option Code
  | .permitted => none
  | .refusedHeld .. => some .held
  | .refusedOrphaned => some .orphaned

/-- The claim summary of READ_INPUT and READ_OUTPUT (R22, R42, R130). -/
def Claim.summary (x : Claim) : List Byte :=
  enc8 x.state.pos ++ encOpt encReq x.holder ++ encOpt (fun l => enc8 l.pos) x.level

/-! ## Records -/

/-- A resource's record replaced. -/
def Arb.setClaim (x : Arb) (r : Res) (c : Claim) : Arb := { x with claims := Tbl.set x.claims r c }

/-- The outcome of a resource in a requester's pending claim, where it is still undecided (R47). -/
def Arb.setOutcome (x : Arb) (who : Requester) (r : Res) (code : Code) : Arb :=
  { x with pendingClaims := x.pendingClaims.set who ((x.pendingClaims.get who).map fun pc =>
      pc.map fun e => if e.1 = r ∧ e.2 = none then (e.1, some code) else e) }

/-- The contender list with an entry appended, or with the requester's level replaced in place (R44). -/
def joinContest (cs : List (Requester × Level)) (who : Requester) (l : Level) : List (Requester × Level) :=
  if cs.any (fun e => decide (e.1 = who)) then cs.map fun e => if e.1 = who then (who, l) else e
  else cs ++ [(who, l)]

/-- The resolve window in frames: 0, 48, 192 or 768 (R40, R45). -/
def Install.windowFrames (x : Install) : Nat :=
  match x.window with
  | 0 => 0
  | 1 => 48
  | 2 => 192
  | _ => 768

/-- The claim grace in frames (R40). -/
def Install.graceFrames (x : Install) : Nat := x.grace * Config.secFrames

/-- One resource of a CLAIM, by the state of its record (Table 3-4): the record and the outcome, if decided. -/
def claimRecord (now : Frame) (window : Nat) (who : Requester) (l : Level) : Claim → Claim × Option Code
  | .opened =>
    if window = 0 then (.held who l, some .done) else (.contended (later now window) [(who, l)], none)
  | .contended t cs => (.contended t (joinContest cs who l), none)
  | .held h hl =>
    if h = who then (.held who l, some .done)
    else match hl with
      | .shared => (.held h .shared, some .held)
      | .exclusive => (.held h .exclusive, some .exclusive)
  | .orphaned d dl t => (.orphaned d dl t, some .orphaned)

/-- The contender that wins: the highest priority, among equals the earliest (R47). -/
def winnerOf (priority : PerReq Nat) : List (Requester × Level) → Option (Requester × Level)
  | [] => none
  | e :: es =>
    match winnerOf priority es with
    | none => some e
    | some w => if priority.get e.1 < priority.get w.1 then some w else some e

/-- A contended resource decided: the winner holds it, and every contender's pending claim has its outcome (R47). -/
def Arb.decide (x : Arb) (priority : PerReq Nat) (r : Res) : Arb :=
  match x.claim r with
  | .contended _ cs =>
    match winnerOf priority cs with
    | none => x
    | some (w, l) =>
      cs.foldl (fun y e => y.setOutcome e.1 r (if e.1 = w then .done else .lostArbitration))
        (x.setClaim r (.held w l))
  | .opened => x
  | .held .. => x
  | .orphaned .. => x

/-! ## Notices (R59, R60) -/

/-- What CLAIM_CHANGED reports of a record. -/
def Claim.key (x : Claim) : ClaimState × Option Requester × Option Level := (x.state, x.holder, x.level)

/-- The changed resources grouped by their new state, holder and level, the groups in the order of their first
resource and cut into notices of at most 16. -/
def claimGroups (x : Arb) : Nat → List Res → List Notice
  | 0, _ => []
  | _, [] => []
  | fuel + 1, r :: rs =>
    let c := x.claim r
    let same := (r :: rs).filter fun q => decide ((x.claim q).key = c.key)
    let rest := (r :: rs).filter fun q => !decide ((x.claim q).key = c.key)
    (cut 16 7 same).map (Notice.claimChanged c.state c.holder c.level) ++ claimGroups x fuel rest

/-- The CLAIM_CHANGED notices of an event that took the table from one to another. -/
def claimChanges (before x : Arb) : List Notice :=
  claimGroups x 104 ((List.finRange 104).filter fun r => !decide ((before.claim r).key = (x.claim r).key))

/-! ## Answers of pending claims (R46) -/

/-- Every outcome is decided. -/
def claimComplete (pc : PendingClaim) : Bool := pc.all (·.2.isSome)

/-- The body of a CLAIM, RELEASE or OVERRIDE answer: one outcome per named resource. -/
def outcomeBody (codes : List Code) : List Byte := encList (fun c => enc8 c.num) codes

/-- A complete pending claim is answered DONE with its outcomes and removed. -/
def answerClaim (h : Hub) (who : Requester) : Hub :=
  match h.arb.pendingClaims.get who with
  | none => h
  | some pc =>
    if claimComplete pc then
      answerTo who .done (outcomeBody (pc.map fun e => e.2.getD .done))
        { h with arb := { h.arb with pendingClaims := h.arb.pendingClaims.set who none } }
    else h

/-- Every pending claim that is now complete is answered. -/
def answerClaims (h : Hub) : Hub := Requester.all.foldl answerClaim h

/-- A new claim table takes effect: its CLAIM_CHANGED notices are sent. -/
def commitClaims (x : Arb) (h : Hub) : Hub := notifyEach (claimChanges h.arb x) { h with arb := x }

/-! ## Requests -/

/-- The resources of a CLAIM taken in list order, with the outcomes so far in reverse. -/
def claimEach (now : Frame) (window : Nat) (who : Requester) (l : Level) :
    List Res → Arb → Arb × PendingClaim
  | [], x => (x, [])
  | r :: rs, x =>
    let p := claimRecord now window who l (x.claim r)
    let q := claimEach now window who l rs (x.setClaim r p.1)
    (q.1, (r, p.2) :: q.2)

/-- CLAIM (R43, R44, R45, R46). -/
def arbClaim (who : Requester) (rs : List Nat) (l : Nat) (h : Hub) : Hub :=
  match resources? rs, level? l with
  | some rs, some l =>
    if h.arb.frozen then answerTo who .frozen [] h
    else
      let p := claimEach h.now h.sto.install.windowFrames who l rs h.arb
      answerClaims (commitClaims { p.1 with pendingClaims := p.1.pendingClaims.set who (some p.2) } h)
  | _, _ => answerTo who .range [] h

/-- One resource of a RELEASE (R49). -/
def releaseRecord (who : Requester) (c : Claim) : Claim × Code :=
  match c with
  | .held h l => if h = who then (.opened, .done) else (.held h l, .notHolder)
  | .opened => (.opened, .notHolder)
  | .contended t cs => (.contended t cs, .notHolder)
  | .orphaned d l t => (.orphaned d l t, .notHolder)

/-- The resources of a RELEASE in list order. -/
def releaseEach (who : Requester) : List Res → Arb → Arb × List Code
  | [], x => (x, [])
  | r :: rs, x =>
    let p := releaseRecord who (x.claim r)
    let q := releaseEach who rs (x.setClaim r p.1)
    (q.1, p.2 :: q.2)

/-- RELEASE (R49). -/
def arbRelease (who : Requester) (rs : List Nat) (h : Hub) : Hub :=
  match resources? rs with
  | none => answerTo who .range [] h
  | some rs =>
    if h.arb.frozen then answerTo who .frozen [] h
    else
      let p := releaseEach who rs h.arb
      answerTo who .done (outcomeBody p.2) (commitClaims p.1 h)

/-- One resource of an OVERRIDE (Table 3-5): the record, the outcome, and the former holder it is taken from. -/
def overrideRecord (who : Requester) (c : Claim) : Claim × Code × Option Requester :=
  match c with
  | .opened => (.held who .shared, .done, none)
  | .contended .. => (.held who .shared, .done, none)
  | .held h l =>
    if h = who then (.held h l, .done, none)
    else match l with
      | .shared => (.held who .shared, .done, some h)
      | .exclusive => (.held h .exclusive, .exclusive, none)
  | .orphaned d l t =>
    match l with
    | .shared => (.held who .shared, .done, some d.req)
    | .exclusive => (.orphaned d .exclusive t, .exclusive, none)

/-- The resources of an OVERRIDE in list order: the table, the outcomes, the resources taken from former holders. -/
def overrideEach (who : Requester) : List Res → Arb → Arb × List Code × List (Requester × Res)
  | [], x => (x, [], [])
  | r :: rs, x =>
    let c := x.claim r
    let p := overrideRecord who c
    let x1 := c.contenders.foldl (fun y e => y.setOutcome e.1 r .lostArbitration) (x.setClaim r p.1)
    let q := overrideEach who rs x1
    (q.1, p.2.1 :: q.2.1, (p.2.2.toList.map fun f => (f, r)) ++ q.2.2)

/-- CLAIM_LOST to one former holder: the resources taken from it, in resource order (R52). -/
def claimLostTo (who : Requester) (lost : List (Requester × Res)) (h : Hub) (f : Requester) : Hub :=
  let rs := (List.finRange 104).filter fun r => lost.contains (f, r)
  if rs.isEmpty then h else notifyRequester f (.claimLost rs who) h

/-- OVERRIDE (R50, R51, R52). -/
def arbOverride (who : Requester) (rs : List Nat) (h : Hub) : Hub :=
  match resources? rs with
  | none => answerTo who .range [] h
  | some rs =>
    if !h.sto.install.supervisor.get who then answerTo who .notSupervisor [] h
    else if h.arb.frozen then answerTo who .frozen [] h
    else
      let p := overrideEach who rs h.arb
      let h1 := Requester.all.foldl (claimLostTo who p.2.2) (commitClaims p.1 h)
      answerTo who .done (outcomeBody p.2.1) (answerClaims h1)

/-- An orphan deadline removed (R57). -/
def Claim.noGrace : Claim → Claim
  | .orphaned d l _ => .orphaned d l none
  | .opened => .opened
  | .contended t cs => .contended t cs
  | .held w l => .held w l

/-- Every contended resource that a test picks, decided in resource order (R47, R57). -/
def Arb.decideAll (x : Arb) (priority : PerReq Nat) (pick : Claim → Bool) : Arb :=
  ((List.finRange 104).filter fun r => pick (x.claim r)).foldl (fun y r => y.decide priority r) x

/-- FREEZE (R57). -/
def arbFreeze (who : Requester) (h : Hub) : Hub :=
  if !h.sto.install.supervisor.get who then answerTo who .notSupervisor [] h
  else if h.arb.frozen then answerTo who .done [] h
  else
    let h1 := answerClaims (commitClaims (h.arb.decideAll h.sto.install.priority fun _ => true) h)
    let x := { h1.arb with claims := Tbl.of fun r => (h1.arb.claim r).noGrace, frozen := true }
    answerTo who .done [] (notifyAll (.freezeSet who) { h1 with arb := x })

/-- What READ_CLAIMS gives of one resource (R61). The requester and the level of the entry that would win share one
presence mark (log entry 16). -/
def readClaim (h : Hub) (r : Res) : List Byte :=
  let c := h.arb.claim r
  c.summary ++ encOpt (fun t => enc8 (timeLeft Config.secFrames h.now t)) c.orphanDeadline ++
    enc8 c.contenders.length ++
    encOpt (fun w => encReq w.1 ++ enc8 w.2.pos) (winnerOf h.sto.install.priority c.contenders)

/-- READ_CLAIMS (R61). -/
def arbReadClaims (who : Requester) (rs : List Nat) (h : Hub) : Hub :=
  match resources? rs with
  | none => answerTo who .range [] h
  | some rs => answerTo who .done (encOn h.arb.frozen ++ encList (readClaim h) rs) h

/-! ## Timers -/

/-- A record's resolve window has been reached. -/
def Claim.windowDue (now : Frame) (c : Claim) : Bool := due now c.windowDeadline

/-- WINDOW_EXPIRY (R47): every window that is reached is decided, in resource order. -/
def windowExpiry (h : Hub) : Hub :=
  answerClaims (commitClaims (h.arb.decideAll h.sto.install.priority (Claim.windowDue h.now)) h)

/-- A record at the grace expiry of a desk's orphans (R54). -/
def Claim.graceOver (now : Frame) (d : Desk) (c : Claim) : Claim :=
  match c with
  | .orphaned o l t => if o = d ∧ due now t then .opened else .orphaned o l t
  | .opened => .opened
  | .contended t cs => .contended t cs
  | .held w l => .held w l

/-- GRACE_EXPIRY (R54): the desk's orphans whose grace is reached become OPEN. -/
def graceExpiry (d : Desk) (h : Hub) : Hub :=
  commitClaims { h.arb with claims := Tbl.of fun r => (h.arb.claim r).graceOver h.now d } h

/-! ## Link events and restart -/

/-- A record at the teardown of a desk's link: its contender entry withdrawn, its hold orphaned (R48, R53). -/
def Claim.teardown (d : Desk) (grace : Option Frame) (c : Claim) : Claim :=
  match c with
  | .contended t cs =>
    match cs.filter fun e => !decide (e.1 = d.req) with
    | [] => .opened
    | e :: es => .contended t (e :: es)
  | .held w l => if w = d.req then .orphaned d l grace else .held w l
  | .opened => .opened
  | .orphaned o l t => .orphaned o l t

/-- ARB at a link's entry to DOWN (R53, R58, R64). -/
def arbDown (d : Desk) (h : Hub) : Hub :=
  let grace := if h.arb.frozen then none else some (later h.now h.sto.install.graceFrames)
  commitClaims
    { h.arb with
      claims := Tbl.of fun r => (h.arb.claim r).teardown d grace
      pendingClaims := h.arb.pendingClaims.set d.req none } h

/-- The resources a link's entry to UP restores to its desk at a level, in resource order. -/
def restoredAt (x : Arb) (d : Desk) (l : Level) : List Res :=
  (List.finRange 104).filter fun r =>
    match x.claim r with
    | .orphaned o ol _ => decide (o = d ∧ ol = l)
    | .opened => false
    | .contended .. => false
    | .held .. => false

/-- A record at its desk's return (R55). -/
def Claim.restore (d : Desk) (c : Claim) : Claim :=
  match c with
  | .orphaned o l t => if o = d then .held o.req l else .orphaned o l t
  | .opened => .opened
  | .contended t cs => .contended t cs
  | .held w l => .held w l

/-- ARB at a link's entry to UP (R55): CLAIM_RESTORED, SHARED before EXCLUSIVE, at most 16 resources a notice. -/
def arbUp (d : Desk) (h : Hub) : Hub :=
  let notices :=
    (cut 16 7 (restoredAt h.arb d .shared)).map (Notice.claimRestored d .shared) ++
    (cut 16 7 (restoredAt h.arb d .exclusive)).map (Notice.claimRestored d .exclusive)
  notifyEach notices { h with arb := { h.arb with claims := Tbl.of fun r => (h.arb.claim r).restore d } }

/-- ARB at HUB_RESTART (R63). -/
def Arb.restart (x : Arb) : Arb :=
  if x.frozen then { x with pendingClaims := PerReq.of fun _ => none }
  else { x with claims := Vector.replicate 104 .opened, pendingClaims := PerReq.of fun _ => none }

/-- ARB at power-on reset (R62). -/
def Arb.powerOn : Arb :=
  { claims := Vector.replicate 104 .opened, pendingClaims := PerReq.of fun _ => none, frozen := false }

/-! ## Meanings of the timer rows -/

/-- WINDOW_EXPIRY. -/
def execWindowExpiry (s : State) : Host.Outcome State Fault Refusal := .next { s with hub := windowExpiry s.hub }

/-- GRACE_EXPIRY. -/
def execGraceExpiry (d : Desk) (s : State) : Host.Outcome State Fault Refusal :=
  .next { s with hub := graceExpiry d s.hub }

end Sys2Proof.Machine
end

