-- ==== Sys2Proof/Machine/Outputs.lean ====
section
/-!
DEFINITION. MON, the Monitor Output Unit (chapter 6): source choice and retargeting, the output gap, failover and
revert, SET_PATCH and OUTPUT_ENABLE, safe-mute, talk and duck at the output, the output sample, OUTPUT_STATE.
-/

namespace Sys2Proof.Machine

/-! ## Source choice and retargeting (R112, R113) -/

/-- The source that a patch field or choice names; absent for NONE. -/
def Output.named (o : Output) : Target → Option Source
  | .primary => o.primary
  | .fallback => o.fallback
  | .none => none

/-- A source is present and its link is UP. -/
def sourceUp (up : Desk → Bool) : Option Source → Bool
  | none => false
  | some s => up s.link

/-- The source choice (R112). -/
def Output.choice (up : Desk → Bool) (o : Output) : Target :=
  if o.primary.isNone then .none
  else if sourceUp up o.primary then .primary
  else if o.failAction = .fallback ∧ sourceUp up o.fallback = true then .fallback
  else .none

/-- The state of an output without a source: UNPATCHED if primary is absent, otherwise SILENT. -/
def Output.idleState (o : Output) : PathState := if o.primary.isNone then .unpatched else .silent

/-- ON_PRIMARY or ON_FALLBACK by the choice. -/
def onState (t : Target) : PathState := if t = .primary then .onPrimary else .onFallback

/-- Retarget to no source (Table 6-3, first column). A fade in that has not made its first step turns to GAP_OUT with
the `fade` of 0 that Table 6-3 keeps and Table 6-2 does not list (log entry 46). -/
def Output.retargetNone (o : Output) : Output :=
  if o.gap = 0 then
    { o with pathState := o.idleState, carried := none, gapTarget := none, fade := 0, fadeDone := false }
  else
    match o.pathState with
    | .unpatched => { o with pathState := o.idleState }
    | .silent => { o with pathState := o.idleState }
    | .onPrimary =>
      { o with pathState := .gapOut, gapTarget := some .none, fade := Config.fadeFull, fadeDone := false }
    | .onFallback =>
      { o with pathState := .gapOut, gapTarget := some .none, fade := Config.fadeFull, fadeDone := false }
    | .gapOut => { o with gapTarget := some .none }
    | .gapIn => { o with pathState := .gapOut, gapTarget := some .none, fadeDone := false }

/-- Retarget to the source s of choice t (Table 6-3, second and third columns). A fade that has not made its first step
turns around with the `fade` of 0 or 1 that Table 6-3 keeps and Table 6-2 does not list (log entry 46). -/
def Output.retargetSource (o : Output) (t : Target) (s : Source) : Output :=
  if o.gap = 0 then
    { o with pathState := onState t, carried := some s, gapTarget := none, fade := Config.fadeFull, fadeDone := false }
  else
    match o.pathState with
    | .unpatched =>
      { o with pathState := .gapIn, carried := some s, gapTarget := some t, fade := 0, fadeDone := false }
    | .silent =>
      { o with pathState := .gapIn, carried := some s, gapTarget := some t, fade := 0, fadeDone := false }
    | .onPrimary =>
      if o.carried = some s then { o with pathState := onState t }
      else { o with pathState := .gapOut, gapTarget := some t, fade := Config.fadeFull, fadeDone := false }
    | .onFallback =>
      if o.carried = some s then { o with pathState := onState t }
      else { o with pathState := .gapOut, gapTarget := some t, fade := Config.fadeFull, fadeDone := false }
    | .gapOut =>
      if o.carried = some s then { o with pathState := .gapIn, gapTarget := some t, fadeDone := false }
      else { o with gapTarget := some t }
    | .gapIn =>
      if o.carried = some s then { o with gapTarget := some t }
      else { o with pathState := .gapOut, gapTarget := some t, fadeDone := false }

/-- Retarget to a choice (R113). The revert deadline is kept where the output still takes from its fallback, but not
by SET_PATCH. -/
def Output.retarget (bySetPatch : Bool) (t : Target) (o : Output) : Output :=
  let o1 := match o.named t with
    | none => o.retargetNone
    | some s => o.retargetSource t s
  { o1 with revertDeadline := if !bySetPatch && o1.takesFallback then o.revertDeadline else none }

/-- The choice made and the output retargeted to it. -/
def Output.choose (up : Desk → Bool) (bySetPatch : Bool) (o : Output) : Output := o.retarget bySetPatch (o.choice up)

/-! ## Revert timer (R118) -/

/-- The revert timer started where the conditions of R118 hold. -/
def Output.startRevert (now : Frame) (delaySeconds : Nat) (up : Desk → Bool) (o : Output) : Output :=
  if o.takesFallback && sourceUp up o.primary && !decide (delaySeconds = 0) && o.revertDeadline.isNone then
    { o with revertDeadline := some (later now (delaySeconds * Config.secFrames)) }
  else o

/-! ## Notices (R129) -/

/-- An output's notified fields, with its entry in OUTPUT_STATE. -/
def Output.entry (o : Output) (i : Out) : OutputEntry :=
  ⟨i, o.primary, o.fallback, o.failAction, o.gap, o.pathState, o.carried, o.gapTarget, o.enable,
    o.revertDeadline.isSome⟩

/-- A notified field of the output changed; the enable counts where OUTPUT_ENABLE made the change. -/
def Output.notifiedChange (byEnable : Bool) (x y : Output) : Bool :=
  !decide (x.primary = y.primary ∧ x.fallback = y.fallback ∧ x.failAction = y.failAction ∧ x.gap = y.gap ∧
    x.pathState = y.pathState ∧ x.carried = y.carried ∧ x.gapTarget = y.gapTarget) ||
  (byEnable && !decide (x.enable = y.enable))

/-- The OUTPUT_STATE notices of an event: changed outputs in number order, at most 3 a notice. -/
def outputChanges (byEnable : Bool) (x y : Vector Output 32) : List Notice :=
  (cut 3 11 (((List.finRange 32).filter fun i => Output.notifiedChange byEnable (Tbl.get x i) (Tbl.get y i)).map
    fun i => (Tbl.get y i).entry i)).map .outputState

/-- A new Output Table takes effect: revert timers start where R118 requires, OUTPUT_STATE is sent. -/
def commitMon (byEnable : Bool) (outs : Vector Output 32) (h : Hub) : Hub :=
  let outs1 : Vector Output 32 :=
    Tbl.of fun i => (Tbl.get outs i).startRevert h.now h.sto.install.revertDelay h.linkUp
  notifyEach (outputChanges byEnable h.mon.outputs outs1) { h with mon := { h.mon with outputs := outs1 } }

/-- One output changed, the others as they stand. -/
def Mon.withOutput (m : Mon) (i : Out) (o : Output) : Vector Output 32 := Tbl.set m.outputs i o

/-! ## SET_PATCH (R120, R121) -/

/-- The fields of a SET_PATCH, in range. -/
structure PatchFields where
  primary : Option Source
  fallback : Option Source
  failAction : FailAction
  gap : Nat
  deriving DecidableEq, Repr

/-- The range check of the patch: a fallback requires a primary and differs from it (R120, check 1). -/
def patchFields? (primary fallback : Option (Nat × Nat)) (failAction gap : Nat) : Option PatchFields :=
  match opt? source? primary, opt? source? fallback, failAction? failAction with
  | some p, some f, some fa =>
    if gap ≤ 15 ∧ (f = none ∨ (p ≠ none ∧ f ≠ p)) then some ⟨p, f, fa, gap⟩ else none
  | _, _, _ => none

/-- The patch fields taken; a gap of 0 gives the duck its target at once (R121, R127). -/
def Output.patch (o : Output) (f : PatchFields) : Output :=
  { o with
    primary := f.primary
    fallback := f.fallback
    failAction := f.failAction
    gap := f.gap
    duck := if f.gap = 0 then o.duckTarget else o.duck }

/-- A patch field differs. -/
def Output.patchDiffers (o : Output) (f : PatchFields) : Bool :=
  !decide (o.primary = f.primary ∧ o.fallback = f.fallback ∧ o.failAction = f.failAction ∧ o.gap = f.gap)

/-- SET_PATCH. -/
def monSetPatch (who : Requester) (out : Nat) (primary fallback : Option (Nat × Nat)) (failAction gap : Nat)
    (h : Hub) : Hub :=
  match out? out, patchFields? primary fallback failAction gap with
  | some i, some f =>
    match (h.arb.permission who (Out.res i)).code with
    | some code => answerTo who code [] h
    | none =>
      let o := h.mon.output i
      answerTo who .done []
        (commitMon false (h.mon.withOutput i ((o.patch f).choose h.linkUp true)) (showReportIf (o.patchDiffers f) h))
  | _, _ => answerTo who .range [] h

/-! ## Enable and safe-mute (R122 to R125) -/

/-- The first listed output whose verdict is refused gives the code (R123, check 2). -/
def enableRefusal (x : Arb) (who : Requester) : List Out → Option Code
  | [] => none
  | i :: is =>
    match (x.permission who (Out.res i)).code with
    | some code => some code
    | none => enableRefusal x who is

/-- OUTPUT_ENABLE (R123). -/
def monOutputEnable (who : Requester) (set : BitSet 32) (value : Nat) (h : Hub) : Hub :=
  match onOff? value with
  | none => answerTo who .range [] h
  | some on =>
    if (BitSet.members set).isEmpty then answerTo who .range [] h
    else
      match enableRefusal h.arb who (BitSet.members set) with
      | some code => answerTo who code [] h
      | none =>
        if on && h.mon.safe && (BitSet.members set).any fun i => Tbl.get h.sto.install.safeMember i then
          answerTo who .safeHeld [] h
        else
          answerTo who .done []
            (commitMon true (Tbl.of fun i =>
              if Tbl.get set i then { h.mon.output i with enable := on } else h.mon.output i) h)

/-- The safe members whose enable is on: what safe-mute clears. -/
def Hub.safeSet (h : Hub) : BitSet 32 := Tbl.of fun i => Tbl.get h.sto.install.safeMember i && (h.mon.output i).enable

/-- Safe-mute: the enables cleared and SAFE_MUTE sent (R124, R125). -/
def safeMute (cause : SafeCause) (h : Hub) : Hub :=
  let set := h.safeSet
  let outs : Vector Output 32 :=
    Tbl.of fun i => if Tbl.get set i then { h.mon.output i with enable := false } else h.mon.output i
  notifyAll (.safeMute cause set) { h with mon := { h.mon with outputs := outs } }

/-- SAFE_ASSERTED (R124): a change of the line from released to asserted. -/
def safeAsserted (h : Hub) : Hub :=
  if h.mon.safe then h else safeMute .safeAsserted { h with mon := { h.mon with safe := true } }

/-- SAFE_RELEASED (R124): a change of the line from asserted to released. No enable changes. -/
def safeReleased (h : Hub) : Hub :=
  if h.mon.safe then
    notifyAll (.safeMute .safeReleased (BitSet.empty 32)) { h with mon := { h.mon with safe := false } }
  else h

/-! ## Link events (R116, R117, R125) -/

/-- The source is on the link. -/
def onLink (d : Desk) : Option Source → Bool
  | none => false
  | some s => decide (s.link = d)

/-- An output whose source is gone, before it moves on (R116, step 1). -/
def Output.loseSource (o : Output) : Output :=
  { o with
    pathState := o.idleState
    carried := none
    gapTarget := none
    fade := 0
    revertDeadline := none
    fadeDone := false }

/-- The target of a fade out, as a source. -/
def Output.targetSource (o : Output) : Option Source :=
  match o.gapTarget with
  | none => none
  | some t => o.named t

/-- An output when a link leaves UP (R116). `up` gives the link states after the event. -/
def Output.linkLeaves (up : Desk → Bool) (d : Desk) (o : Output) : Output :=
  if onLink d o.carried then
    if o.pathState = .gapOut ∧ sourceUp up o.targetSource = true then
      { o with
        pathState := .gapIn, carried := o.targetSource, fade := 0, revertDeadline := none, fadeDone := false }
    else o.loseSource.choose up false
  else if o.pathState = .gapOut ∧ onLink d o.targetSource = true then o.choose up false
  else if o.takesFallback && onLink d o.primary then { o with revertDeadline := none }
  else o

/-- An output when a link enters UP (R117); revert timers start at the commit. -/
def Output.linkEnters (up : Desk → Bool) (o : Output) : Output :=
  if o.pathState = .silent ∨ (o.pathState = .gapOut ∧ o.gapTarget = some .none) then
    if o.choice up = .none then o else o.choose up false
  else o

/-- MON when a link enters UP. -/
def monUp (h : Hub) : Hub := commitMon false (Tbl.of fun i => (h.mon.output i).linkEnters h.linkUp) h

/-- No link is UP or in HOLDOVER. -/
def Hub.allDown (h : Hub) : Bool := Desk.all.all fun d => decide ((h.links.get d).state = .down)

/-- The all-links-lost trigger falls (R125), the link event having made its changes of state. -/
def Hub.allLost (h : Hub) : Bool := h.allDown && h.sto.install.allLinksLost

/-- The all-links-lost trigger at a link's entry to DOWN from HOLDOVER (R125). -/
def monDown (h : Hub) : Hub := if h.allLost then safeMute .allLinksLost h else h

/-- MON when a link leaves UP: every output in number order (R116). Where the event takes the link DOWN and the
all-links-lost trigger falls, the enables are cleared in the same event, so that OUTPUT_STATE has them as the event
leaves them (R129). That OUTPUT_STATE goes before SAFE_MUTE is the model's choice (log entry 40). -/
def monLeavesUp (d : Desk) (h : Hub) : Hub :=
  let set := if h.allLost then h.safeSet else BitSet.empty 32
  let h1 := commitMon false (Tbl.of fun i =>
    let o := (h.mon.output i).linkLeaves h.linkUp d
    { o with enable := o.enable && !Tbl.get set i }) h
  if h.allLost then notifyAll (.safeMute .allLinksLost set) h1 else h1

/-! ## Talk at the output (R126, R127) -/

/-- A new talker with its duck depth in decibels, or a removal. With a gap of 0 the duck takes its target at once. -/
def Output.setTalker (talk : Option (Desk × Nat)) (o : Output) : Output :=
  let target := match talk with
    | none => 0
    | some (_, db) => db * Config.duckPerDb
  { o with
    talker := talk.map (·.1)
    duckTarget := target
    duck := if o.gap = 0 then target else o.duck }

/-! ## Fades and ducks (R114, R115, R127) -/

/-- The fade step of a period (R114); `fadeDone` marks that it reached its end. A fade that starts at its end (log entry
46) reaches it in its first step. -/
def Output.fadeStep (o : Output) : Output :=
  let step := Config.fadeUnit / o.gap
  match o.pathState with
  | .gapOut => { o with fade := o.fade - step, fadeDone := decide (o.fade ≤ step) }
  | .gapIn =>
    { o with fade := min Config.fadeFull (o.fade + step), fadeDone := decide (Config.fadeFull ≤ o.fade + step) }
  | .unpatched => o
  | .onPrimary => o
  | .onFallback => o
  | .silent => o

/-- The duck step of a period (R127): towards the target by 30/G dB, stopping at the target. -/
def Output.duckStep (o : Output) : Output :=
  if o.gap = 0 then { o with duck := o.duckTarget }
  else
    let step := Config.duckUnit / o.gap
    if o.duck < o.duckTarget then { o with duck := min o.duckTarget (o.duck + step) }
    else { o with duck := max o.duckTarget (o.duck - step) }

/-- An output at the completion of its fade (R115). -/
def Output.fadeEnd (o : Output) : Output :=
  match o.pathState with
  | .gapOut =>
    match o.targetSource with
    | none =>
      { o with pathState := o.idleState, carried := none, gapTarget := none, fade := 0, fadeDone := false }
    | some s => { o with pathState := .gapIn, carried := some s, fade := 0, fadeDone := false }
  | .gapIn =>
    { o with pathState := onState (o.gapTarget.getD .primary), gapTarget := none, fade := Config.fadeFull
             fadeDone := false }
  | .unpatched => o
  | .onPrimary => o
  | .onFallback => o
  | .silent => o

/-- The output is in a fade whose step reached its end in this period. -/
def Output.fadeDue (o : Output) : Bool :=
  match o.pathState with
  | .gapOut => o.fadeDone
  | .gapIn => o.fadeDone
  | .unpatched => false
  | .onPrimary => false
  | .onFallback => false
  | .silent => false

/-- FADE_COMPLETE (R115). -/
def fadeComplete (i : Out) (h : Hub) : Hub :=
  if (h.mon.output i).fadeDue then commitMon false (h.mon.withOutput i (h.mon.output i).fadeEnd) h else h

/-- REVERT_EXPIRY (R119): the deadline is removed and the output retargeted to PRIMARY. -/
def revertExpiry (i : Out) (h : Hub) : Hub :=
  let o := h.mon.output i
  if due h.now o.revertDeadline then
    commitMon false (h.mon.withOutput i (Output.retarget false .primary { o with revertDeadline := none })) h
  else h

/-! ## The output sample (R122, R128) -/

/-- The program before the duck factor, as numerator and denominator: the carried slot's sample times fade. -/
def Output.program (delivered : Desk → Option Entry) (o : Output) : Int × Nat :=
  match o.carried with
  | none => (0, 1)
  | some s =>
    match delivered s.link with
    | none => (0, 1)
    | some e => ((Tbl.get e.slots s.slot).toInt * o.fade, Config.fadeFull)

/-- The talk sample at unity gain. -/
def Output.talk (delivered : Desk → Option Entry) (o : Output) : Int :=
  match o.talker with
  | none => 0
  | some d =>
    match delivered d with
    | none => 0
    | some e => e.talk.toInt

/-- The output sample of a period: program times the duck factor plus talk, rounded and limited; the zero word where
enable is off. -/
def Output.sample (delivered : Desk → Option Entry) (o : Output) : Sample :=
  if o.enable then
    let p := o.program delivered
    saturate24 (scaled (-(o.duck : Int)) p.1 p.2 (o.talk delivered))
  else 0#24

/-- What the samples of a period take from its start: enable and talker (R122, R126). -/
def Output.latch (o : Output) : Latched := ⟨o.enable, o.talker⟩

/-- An output as the samples of the period see it: enable and talker as the period began, the rest as it stands. -/
def Output.latched (o : Output) (v : Latched) : Output := { o with enable := v.enable, talker := v.talker }

/-! ## READ_OUTPUT (R130) -/

/-- READ_OUTPUT. -/
def monReadOutput (who : Requester) (out : Nat) (h : Hub) : Hub :=
  match out? out with
  | none => answerTo who .range [] h
  | some i =>
    let o := h.mon.output i
    answerTo who .done
      (encOpt encSource o.primary ++ encOpt encSource o.fallback ++ enc8 o.failAction.pos ++ enc8 o.gap ++
       encOn o.enable ++ encOn (Tbl.get h.sto.install.safeMember i) ++ enc8 o.pathState.pos ++
       encOpt encSource o.carried ++ encOpt (fun t => enc8 t.pos) o.gapTarget ++
       enc8 (roundNearest (o.fade * 100) Config.fadeFull).toNat ++
       encOpt (fun t => enc16 (timeLeft Config.msFrames h.now t)) o.revertDeadline ++
       encOpt encDesk o.talker ++
       enc16 (roundNearest (o.duck * 10) Config.duckPerDb).toNat ++
       enc16 (roundNearest (o.duckTarget * 10) Config.duckPerDb).toNat ++
       encOn h.mon.safe ++ (h.arb.claim (Out.res i)).summary) h

/-! ## Power-on (R132) -/

/-- An output at power-on: the restored patch, no link UP, the enable from the start flag and the SAFE line. -/
def ShowPatch.output (x : ShowPatch) (enable : Bool) : Output :=
  { Output.reset with
    primary := x.primary
    fallback := x.fallback
    failAction := x.failAction
    gap := x.gap
    pathState := if x.primary.isNone then .unpatched else .silent
    enable := enable }

/-- MON at power-on. -/
def Mon.powerOn (x : ShowData) (install : Install) (safe : Bool) : Mon :=
  let outs : Vector Output 32 := Tbl.of fun i =>
    (Tbl.get x.patches i).output (install.startEnabled && !(safe && Tbl.get install.safeMember i))
  { outputs := outs, safe := safe, view := Tbl.of fun i => (Tbl.get outs i).latch, port := Vector.replicate 32 0#24 }

/-! ## Meanings of the output event rows -/

/-- FADE_COMPLETE. -/
def execFadeComplete (i : Out) (s : State) : Host.Outcome State Fault Refusal :=
  .next { s with hub := fadeComplete i s.hub }

/-- REVERT_EXPIRY. -/
def execRevertExpiry (i : Out) (s : State) : Host.Outcome State Fault Refusal :=
  .next { s with hub := revertExpiry i s.hub }

/-- SAFE_ASSERTED. -/
def execSafeAsserted (s : State) : Host.Outcome State Fault Refusal := .next { s with hub := safeAsserted s.hub }

/-- SAFE_RELEASED. -/
def execSafeReleased (s : State) : Host.Outcome State Fault Refusal := .next { s with hub := safeReleased s.hub }

end Sys2Proof.Machine
end

