-- ==== Sys2Proof/Machine/Talk.lean ====
section
/-!
DEFINITION. TBK, the Talkback Unit (chapter 7): TALK_ON, TALK_OFF, READ_TALK, pre-emption, freed outputs, the talk
timeout, the end of talk at a link's leaving UP and at HUB_RESTART, and stage talk.
-/

namespace Sys2Proof.Machine

/-! ## Records and grants (R134, R135, R137) -/

/-- A desk's record, replaced. -/
def Tbk.setRecord (t : Tbk) (d : Desk) (r : Option TalkRec) : Tbk := { t with records := t.records.set d r }

/-- An output's entry in the Talk Grant map, replaced. -/
def Tbk.setGrant (t : Tbk) (o : Out) (d : Option Desk) : Tbk := { t with grants := Tbl.set t.grants o d }

/-- The output among the record's granted, not among its pending. -/
def TalkRec.take (r : TalkRec) (o : Out) : TalkRec :=
  { r with granted := Tbl.set r.granted o true, pending := Tbl.set r.pending o false }

/-- The output among the record's pending, not among its granted. -/
def TalkRec.wait (r : TalkRec) (o : Out) : TalkRec :=
  { r with granted := Tbl.set r.granted o false, pending := Tbl.set r.pending o true }

/-- The desk becomes the output's talker. -/
def Tbk.grant (t : Tbk) (d : Desk) (o : Out) : Tbk :=
  (t.setRecord d ((t.records.get d).map fun r => r.take o)).setGrant o (some d)

/-- The desk waits on the output. -/
def Tbk.hold (t : Tbk) (d : Desk) (o : Out) : Tbk := t.setRecord d ((t.records.get d).map fun r => r.wait o)

/-- The first desk of the highest priority in a list. -/
def bestDesk (priority : PerReq Nat) : List Desk → Option Desk
  | [] => none
  | d :: ds =>
    match bestDesk priority ds with
    | none => some d
    | some w => if priority.get d.req < priority.get w.req then some w else some d

/-- A freed output goes to the waiting record of highest priority, among equals the earliest, or falls empty
(R141, steps 2 and 3). -/
def Tbk.offer (priority : PerReq Nat) (t : Tbk) (o : Out) : Tbk :=
  match bestDesk priority (t.queue.filter fun d => t.pendingOn d o) with
  | none => t.setGrant o none
  | some d => t.grant d o

/-- The outputs in a record's granted set, in number order; none without a record. -/
def Tbk.grantedTo (t : Tbk) (d : Desk) : List Out :=
  match t.records.get d with
  | none => []
  | some r => BitSet.members r.granted

/-- A desk's record removed and its granted outputs freed (R141). -/
def Tbk.remove (priority : PerReq Nat) (t : Tbk) (d : Desk) : Tbk :=
  (t.grantedTo d).foldl (Tbk.offer priority) { t.setRecord d none with order := t.order.filter fun x => !decide (x = d) }

/-! ## TALK_ON (R139, R140) -/

/-- A destination of a TALK_ON (R139, step 3). -/
def Tbk.destination (priority : PerReq Nat) (d : Desk) (t : Tbk) (o : Out) : Tbk :=
  match Tbl.get t.grants o with
  | none => t.grant d o
  | some x =>
    if x = d then t.grant d o
    else if priority.get x.req < priority.get d.req then (t.hold x o).grant d o
    else t.hold d o

/-- The new record in place of the desk's old one (R139, steps 1 and 2; R136). -/
def Tbk.begin (t : Tbk) (d : Desk) (destinations : BitSet 32) (duck : Nat) (deadline : Option Frame) : Tbk :=
  { t.setRecord d (some ⟨destinations, duck, t.arrival, BitSet.empty 32, BitSet.empty 32, deadline⟩) with
    order := (t.order.filter fun x => !decide (x = d)) ++ [d]
    arrival := t.arrival + 1#32 }

/-- The destinations taken (R139, step 3). -/
def Tbk.takeAll (priority : PerReq Nat) (t : Tbk) (d : Desk) (destinations : BitSet 32) : Tbk :=
  (BitSet.members destinations).foldl (Tbk.destination priority d) t

/-- The outputs that the desk held and no longer names, freed (R139, step 4). -/
def Tbk.giveUp (priority : PerReq Nat) (t : Tbk) (held : List Out) (destinations : BitSet 32) : Tbk :=
  (held.filter fun o => !Tbl.get destinations o).foldl (Tbk.offer priority) t

/-! ## Committing an event (R135, R145) -/

/-- The talker of an output, with its duck. -/
def Tbk.talkAt (t : Tbk) (o : Out) : Option (Desk × Nat) :=
  match Tbl.get t.grants o with
  | none => none
  | some d =>
    match t.records.get d with
    | none => none
    | some r => some (d, r.duck)

/-- The changes of the Talk Grant map handed to MON (R126, R135). -/
def handTalk (t : Tbk) (h : Hub) : Hub :=
  { h with
    tbk := t
    mon := { h.mon with
      outputs := Tbl.of fun o =>
        if h.tbk.talkAt o = t.talkAt o then h.mon.output o else (h.mon.output o).setTalker (t.talkAt o) } }

/-- A record's sets, as a change of them is notified. -/
def Tbk.sets (t : Tbk) (d : Desk) : Option (BitSet 32 × BitSet 32) := (t.records.get d).map fun r => (r.granted, r.pending)

/-- The time left in whole seconds rounded up, where the record has a deadline. -/
def TalkRec.remaining (r : TalkRec) (now : Frame) : Option Nat := r.deadline.map (timeLeft Config.secFrames now)

/-- The duck of a desk's record, 0 without one. -/
def Tbk.duckOf (t : Tbk) (d : Desk) : Nat :=
  match t.records.get d with
  | none => 0
  | some r => r.duck

/-- TALK_STATE for a desk as TBK stands (R145). A removed record has empty sets, the duck it had before the event, and
no time. -/
def Tbk.state (before t : Tbk) (now : Frame) (d : Desk) (cause : TalkCause) : Notice :=
  match t.records.get d with
  | none => .talkState d cause false (BitSet.empty 32) (BitSet.empty 32) (before.duckOf d) none
  | some r => .talkState d cause true r.granted r.pending r.duck (r.remaining now)

/-- The TALK_STATE notices of an event, for the desks that have a cause, in the order A, B, C. -/
def notifyTalk (before : Tbk) (cause : Desk → Option TalkCause) (h : Hub) : Hub :=
  notifyEach (Desk.all.filterMap fun d => (cause d).map (before.state h.tbk h.now d)) h

/-- The desk's record ends (R142, R143, R144): its removal is reported with the cause, and REASSIGNED for the records
that received its outputs. Nothing happens without a record. -/
def endTalk (d : Desk) (cause : TalkCause) (h : Hub) : Hub :=
  match h.tbk.records.get d with
  | none => h
  | some _ =>
    let t := h.tbk.remove h.sto.install.priority d
    notifyTalk h.tbk (fun x =>
      if x = d then some cause else if h.tbk.sets x = t.sets x then none else some .reassigned) (handTalk t h)

/-! ## Requests -/

/-- The talk timeout in frames from now, or none (R143). -/
def talkDeadline (now : Frame) (seconds : Nat) : Option Frame :=
  if seconds = 0 then none else some (later now (seconds * Config.secFrames))

/-- Cause of TALK_STATE for a desk at a TALK_ON of another: it lost outputs, received freed ones, or both
(log entry 24). -/
def talkCause (lost received : Bool) : Option TalkCause :=
  match lost, received with
  | false, false => none
  | true, false => some .preempted
  | false, true => some .reassigned
  | true, true => some (if Config.reportsPreempted then .preempted else .reassigned)

/-- TALK_ON carried out (R139). -/
def carryTalkOn (d : Desk) (destinations : BitSet 32) (duck : Nat) (h : Hub) : Hub :=
  let p := h.sto.install.priority
  let t1 := h.tbk.begin d destinations duck (talkDeadline h.now h.sto.install.talkTimeout)
  let t2 := t1.takeAll p d destinations
  let t3 := t2.giveUp p (h.tbk.grantedTo d) destinations
  notifyTalk h.tbk (fun x =>
    if x = d then some .talkOn
    else talkCause (!decide (t1.sets x = t2.sets x)) (!decide (t2.sets x = t3.sets x))) (handTalk t3 h)

/-- The body of a TALK_ON answer (R139, step 7). -/
def talkOnBody (h : Hub) (d : Desk) : List Byte :=
  match h.tbk.records.get d with
  | none => []
  | some r => encSet r.granted ++ encSet r.pending ++ encOpt enc16 (r.remaining h.now)

/-- TALK_ON (R138). -/
def tbkTalkOn (who : Requester) (destinations : BitSet 32) (duck : Nat) (h : Hub) : Hub :=
  if (BitSet.members destinations).isEmpty || decide (30 < duck) then answerTo who .range [] h
  else
    match who.desk with
    | none => answerTo who .denied [] h
    | some d =>
      if h.linkUp d then
        let h1 := carryTalkOn d destinations duck h
        answerTo who .done (talkOnBody h1 d) h1
      else answerTo who .notUp [] h

/-- TALK_OFF (R142): DONE marked REMOVED or NONE. -/
def tbkTalkOff (who : Requester) (h : Hub) : Hub :=
  match who.desk with
  | none => answerTo who .denied [] h
  | some d => answerTo who .done (encOn (h.tbk.records.get d).isSome) (endTalk d .talkOff h)

/-- Position of a desk in a list, from 1: the arrival rank, and the position in the Talk Queue, whose base the spec leaves
open (log entry 41). -/
def rankIn (d : Desk) : List Desk → Option Nat
  | [] => none
  | x :: xs => if x = d then some 1 else (rankIn d xs).map (· + 1)

/-- A record as READ_TALK reports it. -/
def TalkRec.body (r : TalkRec) (now : Frame) (rank : Nat) (position : Option Nat) : List Byte :=
  encSet r.destinations ++ enc8 r.duck ++ encSet r.granted ++ encSet r.pending ++ enc8 rank ++ encOpt enc8 position ++
    encOpt enc16 (r.remaining now)

/-- READ_TALK (R149). The talk timeout is given in whole seconds, in two bytes, as in Table 9-3 (log entry 16). -/
def tbkReadTalk (who : Requester) (h : Hub) : Hub :=
  let t := h.tbk
  let x := h.sto.install
  answerTo who .done
    (Desk.all.flatMap (fun d =>
      encOpt (fun r : TalkRec => r.body h.now ((rankIn d t.order).getD 0) (rankIn d t.queue)) (t.records.get d)) ++
     encList encDesk t.queue ++
     t.grants.toList.flatMap (encOpt encDesk) ++
     encOn t.st1 ++ encMask x.mask1 ++ encOn t.st2 ++ encMask x.mask2 ++
     enc16 x.talkTimeout ++ Desk.all.flatMap fun d => enc8 (x.priority.get d.req)) h

/-! ## Events -/

/-- TALK_TIMEOUT (R143): the deadline is reached. -/
def talkTimeout (d : Desk) (h : Hub) : Hub :=
  match h.tbk.records.get d with
  | none => h
  | some r => if due h.now r.deadline then endTalk d .timeout h else h

/-- TBK at a desk's link leaving UP (R144). -/
def tbkLeavesUp (d : Desk) (h : Hub) : Hub := endTalk d .linkLost h

/-- TBK at HUB_RESTART (R151): all talk is released and handed to MON, with no TALK_STATE. -/
def tbkRestart (h : Hub) : Hub :=
  handTalk { h.tbk with records := PerDesk.of fun _ => none, grants := Vector.replicate 32 none, order := [] } h

/-- TBK at power-on, with the sampled buttons (R151). -/
def Tbk.powerOn (tb1 tb2 : Bool) : Tbk where
  records := PerDesk.of fun _ => none
  grants := Vector.replicate 32 none
  order := []
  arrival := 0#32
  st1 := tb1
  st2 := tb2

/-! ## Stage talk (R147, R148) -/

/-- An input is pressed. -/
def Tbk.pressed (t : Tbk) : StageIn → Bool
  | .st1 => t.st1
  | .st2 => t.st2

/-- An input's state replaced. -/
def Tbk.setPressed (t : Tbk) (i : StageIn) (b : Bool) : Tbk :=
  match i with
  | .st1 => { t with st1 := b }
  | .st2 => { t with st2 := b }

/-- An input's desk mask, an install setting. -/
def Install.mask (x : Install) : StageIn → PerDesk Bool
  | .st1 => x.mask1
  | .st2 => x.mask2

/-- A change of a stage talk input: STAGE_TALK to the desks of its mask, if UP, and PANEL. No change, nothing. -/
def stageChange (i : StageIn) (b : Bool) (h : Hub) : Hub :=
  if h.tbk.pressed i = b then h
  else
    let m := h.sto.install.mask i
    let h1 := { h with tbk := h.tbk.setPressed i b }
    notifyPanel (.stageTalk i b m)
      (Desk.all.foldl (fun h d => if m.get d then notifyDesk d (.stageTalk i b m) h else h) h1)

/-- The stage-talk slot of a desk's downstream frame (R147), from the samples of ST1 and ST2. -/
def stageSlot (h : Hub) (st1 st2 : Sample) (d : Desk) : Sample :=
  saturate24
    ((if h.tbk.st1 && h.sto.install.mask1.get d then st1.toInt else 0) +
     (if h.tbk.st2 && h.sto.install.mask2.get d then st2.toInt else 0))

/-! ## Meanings of the talk event rows -/

/-- TALK_TIMEOUT. -/
def execTalkTimeout (d : Desk) (s : State) : Host.Outcome State Fault Refusal :=
  .next { s with hub := talkTimeout d s.hub }

/-- STAGE_TALK_PRESS. -/
def execStageTalkPress (i : StageIn) (s : State) : Host.Outcome State Fault Refusal :=
  .next { s with hub := stageChange i true s.hub }

/-- STAGE_TALK_RELEASE. -/
def execStageTalkRelease (i : StageIn) (s : State) : Host.Outcome State Fault Refusal :=
  .next { s with hub := stageChange i false s.hub }

end Sys2Proof.Machine
end

