-- ==== Sys2Proof/Machine/Lanes.lean ====
section
/-!
DEFINITION. LNK, the Link Controller, and HLM, the Lane Health Monitor (chapters 4 and 5): lane records and frame
results, switches and link events, lane faults, holdover, health counters and verdicts, lane tests, and the requests
that read or act on links and lanes. Takes and deliveries (R73 to R76) are in Sys2Proof/Machine/Period.lean.
-/

namespace Sys2Proof.Machine

/-! ## Records -/

/-- A link's record replaced. -/
def Hub.setLink (h : Hub) (d : Desk) (k : Link) : Hub := { h with links := h.links.set d k }

/-- A lane's record replaced. -/
def Hub.setLane (h : Hub) (l : LaneId) (r : LaneRec) : Hub :=
  h.setLink l.link { h.links.get l.link with lanes := (h.links.get l.link).lanes.set l.side r }

/-- A lane's health replaced. -/
def Hub.setHealth (h : Hub) (l : LaneId) (x : Health) : Hub :=
  { h with hlm := { h.hlm with health := laneSet h.hlm.health l x } }

/-- A link's test record replaced. -/
def Hub.setTest (h : Hub) (d : Desk) (t : Option TestRec) : Hub :=
  { h with hlm := { h.hlm with tests := h.hlm.tests.set d t } }

/-- The other lane of the same link. -/
def otherLane (l : LaneId) : LaneId := ⟨l.link, Side.other l.side⟩

/-- The lane is the active lane of its UP link. -/
def Hub.isActive (h : Hub) (l : LaneId) : Bool :=
  decide ((h.links.get l.link).state = .up ∧ (h.links.get l.link).activeLane = some l.side)

/-- A requester may name a desk's link and lanes: PANEL any, a desk its own (R86, R98, R102, R106). -/
def ownsLink (who : Requester) (d : Desk) : Bool := decide (who = .panel ∨ who = d.req)

/-! ## Notices -/

/-- LANE_STATE as the lane stands (R72). -/
def tellLane (l : LaneId) (h : Hub) : Hub :=
  notifyDeskPanel l.link (.laneState l (h.lane l).state (h.lane l).qualified (h.links.get l.link).skew) h

/-- LANE_STATE, where the lane's state changed, or its qualified while ACTIVE. -/
def tellLaneChange (before : Hub) (l : LaneId) (h : Hub) : Hub :=
  if (before.lane l).state ≠ (h.lane l).state ∨
      ((h.lane l).state = .active ∧ (before.lane l).qualified ≠ (h.lane l).qualified) then tellLane l h
  else h

/-- LINK_STATE, where the state, the active lane or provisional changed (R77). -/
def tellLinkChange (before : Link) (d : Desk) (h : Hub) : Hub :=
  let k := h.links.get d
  if before.state = k.state ∧ before.activeLane = k.activeLane ∧ before.provisional = k.provisional then h
  else notifyAll (.linkState d k.state k.activeLane k.provisional) h

/-- TEST_STATUS as the test record stands (R101). -/
def tellTest (d : Desk) (h : Hub) : Hub :=
  match h.hlm.tests.get d with
  | none => h
  | some t =>
    notifyDeskPanel d (.testStatus d t.lane t.status t.framesDone t.length t.patternFrames t.patternErrors) h

/-! ## Lane tests: status changes (R103 to R109) -/

/-- A test is in progress: RUNNING or SUSPENDED. -/
def TestRec.inProgress (t : TestRec) : Bool :=
  match t.status with
  | .running => true
  | .suspended => true
  | .passed => false
  | .failed => false
  | .aborted => false

/-- The test's outcome at its completion (R104). -/
def TestRec.outcome (t : TestRec) : TestStatus :=
  if t.patternErrors = 0 ∧ 1 ≤ t.patternFrames then .passed else .failed

/-- The test is RUNNING and has counted its whole length. -/
def TestRec.complete (t : TestRec) : Bool := decide (t.status = .running ∧ t.length ≤ t.framesDone)

/-- The link's test takes a status, reported by TEST_STATUS. -/
def setTestStatus (d : Desk) (t : TestRec) (st : TestStatus) (h : Hub) : Hub :=
  tellTest d (h.setTest d (some { t with status := st }))

/-- TEST_COMPLETE (R104): the test ends, if it has counted its whole length. -/
def testComplete (d : Desk) (h : Hub) : Hub :=
  match h.hlm.tests.get d with
  | none => h
  | some t => if t.complete then setTestStatus d t t.outcome h else h

/-- HLM at a link's entry to DOWN (R109). -/
def hlmDown (d : Desk) (h : Hub) : Hub :=
  match h.hlm.tests.get d with
  | none => h
  | some t => if t.status = .aborted then h else setTestStatus d t .aborted h

/-- HLM at a link's entry to UP from DOWN (R109). -/
def hlmUp (d : Desk) (h : Hub) : Hub := h.setTest d none

/-- A test aborted by HUB_RESTART, with no notice (R110). -/
def TestRec.restart (t : TestRec) : TestRec := if t.inProgress then { t with status := .aborted } else t

/-- HLM at HUB_RESTART: completions due are taken first (log entry 25). -/
def hlmRestart (h : Hub) : Hub :=
  let h1 := Desk.all.foldl (fun h d => testComplete d h) h
  { h1 with hlm := { h1.hlm with tests := PerDesk.of fun d => (h1.hlm.tests.get d).map TestRec.restart } }

/-! ## Link events (R77) -/

/-- A change of link state handed to ARB, MON, TBK, REQ and HLM in this order (log entry 23); at a link's entry to DOWN
from UP, MON sends OUTPUT_STATE before SAFE_MUTE (log entry 40). -/
def linkEvent (before : LinkState) (d : Desk) (h : Hub) : Hub :=
  match before, (h.links.get d).state with
  | .up, .holdover => reqLeavesUp d (tbkLeavesUp d (monLeavesUp d h))
  | .up, .down => hlmDown d (reqDown d (reqLeavesUp d (tbkLeavesUp d (monLeavesUp d (arbDown d h)))))
  | .holdover, .down => hlmDown d (reqDown d (monDown (arbDown d h)))
  | .down, .up => hlmUp d (monUp (arbUp d h))
  | .holdover, .up => monUp (arbUp d h)
  | .up, .up => h
  | .down, .down => h
  | .holdover, .holdover => h
  | .down, .holdover => h

/-! ## Resumption (R108) -/

/-- The condition of R108: the test is SUSPENDED, its lane READY, the other lane ACTIVE and qualified. -/
def resumable (k : Link) (t : TestRec) : Bool :=
  decide (t.status = .suspended ∧ (k.lane t.lane).state = .ready ∧ (k.lane (Side.other t.lane)).state = .active ∧
    (k.lane (Side.other t.lane)).qualified = true)

/-- The link's test resumed, where the condition holds: RUNNING with a new lead-in, its lane TESTING. -/
def resumeTest (d : Desk) (h : Hub) : Option Hub :=
  match h.hlm.tests.get d with
  | none => none
  | some t =>
    if resumable (h.links.get d) t then
      some ((h.setTest d (some { t with status := .running, leadIn := true })).setLane ⟨d, t.lane⟩
        { h.lane ⟨d, t.lane⟩ with state := .testing, qualifyDue := false })
    else none

/-- A link's lanes and record changed: the suspended test resumes where it can, then LANE_STATE for the lane named
first and for the other, LINK_STATE, TEST_STATUS of a resumed test, and the link event. `before` is the part before the
change. R72 names the first lane where one leaves service, and R88 at LINK_RESTART; where no rule does, it is the lane of
the event (log entry 43). -/
def settleLink (before : Hub) (d : Desk) (first : Side) (h : Hub) : Hub :=
  let resumed := resumeTest d h
  let h1 := resumed.getD h
  let h2 := tellLaneChange before ⟨d, Side.other first⟩ (tellLaneChange before ⟨d, first⟩ h1)
  let h3 := tellLinkChange (before.links.get d) d h2
  let h4 := if resumed.isSome then tellTest d h3 else h3
  linkEvent (before.links.get d).state d h4

/-! ## Lane records (R66 to R71) -/

/-- A lane out of sync: DARK or ACQUIRING with its counts at 0 (R67, R70, R88). -/
def LaneRec.outOfSync (l : LaneRec) (st : LaneState) : LaneRec :=
  { l with
    state := st
    latency := none
    acquireRun := 0
    badRun := 0
    qualifyCount := 0
    qualified := false
    buffer := []
    rx := none
    qualifyDue := false }

/-- The frames that stay in the alignment buffer when a number becomes due: the 32 most recent numbers (R69). -/
def pruned (due : Frame) (b : List UpFrame) : List UpFrame := b.filter fun f => decide ((due - f.number).toNat < 32)

/-- The lane counts qualification: QUALIFYING, or ACTIVE and not qualified (R71). -/
def LaneRec.counting (l : LaneRec) : Bool :=
  match l.state with
  | .qualifying => true
  | .active => !l.qualified
  | .dark => false
  | .acquiring => false
  | .ready => false
  | .testing => false

/-- The qualify length that applies to a lane, in frames (R71). -/
def qualifyLength (h : Hub) (l : LaneId) : Nat :=
  h.sto.install.qualify * 12000 * (if (laneGet h.hlm.health l).verdict = .failing then 4 else 1)

/-- The frame that arrived is a good result for the number due (R69). -/
def LaneRec.isGood (l : LaneRec) (due : Frame) (f : UpFrame) : Bool :=
  decide (f.number = due) && (!f.pattern || decide (l.state = .testing))

/-- A lane after a good result (R69, R71). `stay`: the count is set to 0 for the skew against a trusted partner. -/
def LaneRec.good (l : LaneRec) (due : Frame) (f : UpFrame) (stay : Bool) (length : Nat) : LaneRec :=
  let count := if stay then 0 else l.qualifyCount + 1
  { l with
    badRun := 0
    buffer := pruned due l.buffer ++ [f]
    qualifyCount := if l.counting then count else l.qualifyCount
    qualifyDue := l.counting && decide (length ≤ count) }

/-- A lane after a bad result (R69, R71). -/
def LaneRec.bad (l : LaneRec) (due : Frame) : LaneRec :=
  { l with
    badRun := min 8 (l.badRun + 1)
    buffer := pruned due l.buffer
    qualifyCount := if l.counting then 0 else l.qualifyCount
    qualifyDue := false }

/-- The acquire run after a frame on an ACQUIRING lane (R68). -/
def LaneRec.acquire (l : LaneRec) (f : Option UpFrame) : LaneRec :=
  match f with
  | none => { l with acquireRun := 0 }
  | some f =>
    if f.pattern then { l with acquireRun := 0 }
    else if 0 < l.acquireRun ∧ f.number = l.runNumber + 1#32 then
      { l with acquireRun := min 4 (l.acquireRun + 1), runNumber := f.number }
    else { l with acquireRun := 1, runNumber := f.number }

/-! ## Links (R75, R77, R78, R80, R84) -/

/-- The link UP on a lane (R75, R78, R84): the number due in the next period is the first to take. -/
def Link.enterUp (k : Link) (now : Frame) (side : Side) (latency : Frame) (qualified : Bool) : Link :=
  { k with
    state := .up
    activeLane := some side
    provisional := !qualified
    holdoverDeadline := none
    nextTake := some (now + 1#32 - latency)
    rescuedFrames := if k.state = .down then 0 else k.rescuedFrames
    repeatedFrames := if k.state = .down then 0 else k.repeatedFrames
    returnBuffer := List.replicate 8 Entry.zero
    lastEntry := none
    delivered := none
    fresh := true
    lanes := k.lanes.set side { k.lane side with state := .active, qualified := qualified } }

/-- The link leaves UP or HOLDOVER for a state, with nothing to take from (R83, R85, R88). -/
def Link.leave (k : Link) (st : LinkState) (deadline : Option Frame) : Link :=
  { k with
    state := st
    activeLane := none
    provisional := false
    holdoverDeadline := deadline
    nextTake := none
    returnBuffer := []
    lastEntry := none
    delivered := none }

/-- The holdover limit in frames (R82). -/
def Install.holdoverFrames (x : Install) : Nat := x.holdover * 4800

/-- A lane that leaves ACTIVE without a fault (R80, step 2). -/
def LaneRec.stepDown (l : LaneRec) : LaneRec :=
  match l.state with
  | .active => { l with state := if l.qualified then .ready else .qualifying }
  | .dark => l
  | .acquiring => l
  | .qualifying => l
  | .ready => l
  | .testing => l

/-- The lane that takes over (R80, step 1). -/
def LaneRec.takeOver (l : LaneRec) : LaneRec :=
  { l with state := .active, qualified := decide (l.state = .ready) }

/-- A switch from a lane to the other lane of its link (R80, steps 1 to 5). The old lane has left ACTIVE already if it
faulted. -/
def Link.switchFrom (k : Link) (old : Side) : Link :=
  let new := Side.other old
  { k with
    activeLane := some new
    provisional := !decide ((k.lane new).state = .ready)
    lanes := (k.lanes.set old (k.lane old).stepDown).set new (k.lane new).takeOver }

/-- A switch made without a fault, with its notices (R80). -/
def switchLink (d : Desk) (old : Side) (h : Hub) : Hub :=
  settleLink h d old (h.setLink d ((h.links.get d).switchFrom old))

/-! ## Health (R94 to R97) -/

/-- What one counter gives (R96). -/
def counterResult (th : Threshold) (n : Nat) : Verdict :=
  if th.fail ≤ n then .failing else if th.warn ≤ n then .worn else .good

/-- The worse of two verdicts. -/
def Verdict.worse (x y : Verdict) : Verdict := if x.pos < y.pos then y else x

/-- The verdict of the counters (R96). -/
def verdictOf (th : PerCounter Threshold) (n : PerCounter Nat) : Verdict :=
  CounterName.all.foldl (fun v c => v.worse (counterResult (th.get c) (n.get c))) .good

/-- The counter that HEALTH_VERDICT names: the first whose result is the new verdict; none for GOOD (R97). -/
def verdictCounter (th : PerCounter Threshold) (n : PerCounter Nat) (v : Verdict) : Option CounterName :=
  if v = .good then none else CounterName.all.find? fun c => decide (counterResult (th.get c) (n.get c) = v)

/-- The planned switch at a lane's verdict change (R87). -/
def plannedSwitch (l : LaneId) (new : Verdict) (h : Hub) : Hub :=
  if new = .failing ∧ h.isActive l = true ∧ (h.lane (otherLane l)).state = .ready ∧
      (laneGet h.hlm.health (otherLane l)).verdict = .good then switchLink l.link l.side h
  else h

/-- A lane's verdict as computed: a change is reported and handed to LNK (R97). -/
def setVerdict (l : LaneId) (new : Verdict) (h : Hub) : Hub :=
  let x := laneGet h.hlm.health l
  if x.verdict = new then h
  else
    plannedSwitch l new
      (notifyDeskPanel l.link
        (.healthVerdict l new x.verdict (verdictCounter h.sto.install.thresholds x.counters new))
        (h.setHealth l { x with verdict := new }))

/-- The verdict computed again from the counters and the running thresholds (R96). -/
def computeVerdict (l : LaneId) (h : Hub) : Hub :=
  setVerdict l (verdictOf h.sto.install.thresholds (laneGet h.hlm.health l).counters) h

/-- All six verdicts computed again, in lane order (R96, R97). Log entry 47: each lane is computed and acted on before
the next one, so R87's check for a lane sees the old verdict of a partner that comes after it. -/
def computeVerdicts (h : Hub) : Hub := LaneId.all.foldl (fun h l => computeVerdict l h) h

/-- A count that saturates at 65535 (R94). -/
def saturate16 (n : Nat) : Nat := min 65535 n

/-- Occurrences added to counters. -/
def PerCounter.add (x y : PerCounter Nat) : PerCounter Nat where
  crcErrors := saturate16 (x.crcErrors + y.crcErrors)
  frameLosses := saturate16 (x.frameLosses + y.frameLosses)
  lightLosses := saturate16 (x.lightLosses + y.lightLosses)
  slips := saturate16 (x.slips + y.slips)
  testErrors := saturate16 (x.testErrors + y.testErrors)

/-- Occurrences counted on a lane, and its verdict computed once (R94, R96, R103). -/
def countHealth (l : LaneId) (n : PerCounter Nat) (h : Hub) : Hub :=
  let x := laneGet h.hlm.health l
  computeVerdict l (h.setHealth l { x with counters := x.counters.add n })

/-- A slip of a link's return buffer, counted on the lane active at the slip (R76). -/
def countSlip (d : Desk) (h : Hub) : Hub :=
  match (h.links.get d).activeLane with
  | none => h
  | some side => countHealth ⟨d, side⟩ ⟨0, 0, 0, 1, 0⟩ h

/-! ## Frame results (R69, R103) -/

/-- Pattern errors of a result of the tested lane (Table 5-4); none of a bad result's frame. -/
def patternJudge (leadIn : Bool) (f : Option UpFrame) : Nat :=
  match f with
  | none => if leadIn then 0 else 33
  | some f => if f.pattern then patternErrorsOf f else if leadIn then 0 else 33

/-- A result is a good PATTERN frame. -/
def isPattern (f : Option UpFrame) : Bool :=
  match f with
  | none => false
  | some f => f.pattern

/-- A RUNNING test after a result of its lane (R103). -/
def TestRec.count (t : TestRec) (f : Option UpFrame) : TestRec :=
  { t with
    framesDone := t.framesDone + 1
    patternFrames := t.patternFrames + (if isPattern f then 1 else 0)
    patternErrors := min 4294967295 (t.patternErrors + patternJudge t.leadIn f)
    leadIn := t.leadIn && !isPattern f }

/-- The link's test, where it is RUNNING on the lane and has not yet counted its whole length. -/
def countingTest (l : LaneId) (h : Hub) : Option TestRec :=
  match h.hlm.tests.get l.link with
  | none => none
  | some t => if t.status = .running ∧ t.lane = l.side ∧ t.framesDone < t.length then some t else none

/-- A frame result handed to HLM: a good frame, or none for a bad one (R94, R103). -/
def hlmResult (l : LaneId) (f : Option UpFrame) (h : Hub) : Hub :=
  let bad := if f.isSome then 0 else 1
  match countingTest l h with
  | none => if bad = 0 then h else countHealth l ⟨bad, 0, 0, 0, 0⟩ h
  | some t =>
    countHealth l ⟨bad, 0, 0, 0, patternJudge t.leadIn f⟩ (h.setTest l.link (some (t.count f)))

/-- A TESTING lane whose test is not RUNNING, at its first good AUDIO frame, enters QUALIFYING, or brings its link back
from HOLDOVER (R84, R89). -/
def testingReturns (l : LaneId) (f : UpFrame) (h : Hub) : Hub :=
  let r := h.lane l
  if r.state = .testing ∧ h.hlm.testRunningOn l = false ∧ f.pattern = false then
    let r1 := { r with state := .qualifying, qualified := false, qualifyCount := 0, qualifyDue := false }
    let h1 := h.setLane l r1
    let k := h1.links.get l.link
    match k.state, r.latency with
    | .holdover, some lat => settleLink h l.link l.side (h1.setLink l.link (k.enterUp h.now l.side lat false))
    | _, _ => settleLink h l.link l.side h1
  else h

/-- The good result of a lane (R69). -/
def goodResult (l : LaneId) (due : Frame) (f : UpFrame) (h : Hub) : Hub :=
  let k := h.links.get l.link
  let stay := (h.lane (otherLane l)).trusted && decide (32 < k.skew)
  hlmResult l (some f)
    (testingReturns l f (h.setLane l ((h.lane l).good due f stay (qualifyLength h l))))

/-- The bad result of a lane (R69). -/
def badResult (l : LaneId) (due : Frame) (h : Hub) : Hub := hlmResult l none (h.setLane l ((h.lane l).bad due))

/-- A frame received on a lane, its CRC already checked (R68, R69). -/
def receive (l : LaneId) (f : Option UpFrame) (h : Hub) : Hub :=
  let r := { h.lane l with arrived := true, rx := f }
  let h1 := h.setLane l r
  match r.latency with
  | some lat =>
    let due := h.now - lat
    match f with
    | none => badResult l due h1
    | some f => if r.isGood due f then goodResult l due f h1 else badResult l due h1
  | none => if r.state = .acquiring then h1.setLane l (r.acquire f) else h1

/-- UPSTREAM_FRAME: the frame that arrives on a lane in this period; a second one is ignored (log entry 5). -/
def upstreamFrame (l : LaneId) (bytes : List Byte) (h : Hub) : Hub :=
  if (h.lane l).arrived then h else receive l (parseUp bytes) h

/-- The lane's period is over for frames: one that has not arrived is recorded as one whose CRC fails is (R68, R69), and
none is taken any more. -/
def missingFrame (l : LaneId) (h : Hub) : Hub := if (h.lane l).arrived then h else receive l none h

/-- The results of a link's period are recorded, those of missing frames too (R73, step 1). -/
def recordLink (d : Desk) (h : Hub) : Hub := missingFrame ⟨d, .s⟩ (missingFrame ⟨d, .p⟩ h)

/-! ## Acquisition and qualification (R68, R71, R78, R84) -/

/-- The acquisition's skew check: the other lane is trusted and more than 32 frames away. -/
def skewFails (other : LaneRec) (latency : Frame) : Bool :=
  match other.latency with
  | none => false
  | some x => other.trusted && decide (32 < latencyDistance latency x)

/-- ACQUISITION_COMPLETE (R68): the fourth frame of the run gives the latency, unless the skew is refused. -/
def acquisitionComplete (l : LaneId) (h : Hub) : Hub :=
  let r := h.lane l
  match r.rx with
  | none => h
  | some f =>
    if r.state = .acquiring ∧ 4 ≤ r.acquireRun then
      let lat := h.now - f.number
      if skewFails (h.lane (otherLane l)) lat then h.setLane l { r with acquireRun := 1, runNumber := f.number }
      else
        let r1 := { r with
          state := .qualifying, latency := some lat, qualifyCount := 0, badRun := 0, qualified := false, buffer := [f]
          qualifyDue := false }
        let h1 := h.setLane l r1
        let k := h1.links.get l.link
        match k.state with
        | .holdover => settleLink h l.link l.side (h1.setLink l.link (k.enterUp h.now l.side lat false))
        | .up => settleLink h l.link l.side h1
        | .down => settleLink h l.link l.side h1
    else h

/-- QUALIFICATION_COMPLETE (R71): the lane enters READY, or the active lane takes qualified yes. A lane entering READY
brings a link that is not UP up on it (R78, R84). Where the active lane's qualified resumes a suspended test on the READY
other lane (R108), the active lane is reported first and the tested lane second (log entry 43). -/
def qualificationComplete (l : LaneId) (h : Hub) : Hub :=
  let r := h.lane l
  if r.qualifyDue && r.counting then
    let k := h.links.get l.link
    match r.state, k.state, r.latency with
    | .active, _, _ =>
      settleLink h l.link l.side
        ((h.setLink l.link { k with provisional := false }).setLane l { r with qualified := true, qualifyDue := false })
    | _, .up, _ =>
      settleLink h l.link l.side (h.setLane l { r with state := .ready, qualified := true, qualifyDue := false })
    | _, _, some lat =>
      let k1 := (h.setLane l { r with qualifyDue := false }).links.get l.link
      settleLink h l.link l.side (h.setLink l.link (k1.enterUp h.now l.side lat true))
    | _, _, none => h
  else h

/-! ## Faults (R67, R70, R79, R83, R99, R105, R107) -/

/-- The link's response to the fault of its active lane (R79), the faulted lane having taken its new state. -/
def Link.respond (k : Link) (now : Frame) (limit : Nat) (faulted : Side) : Link :=
  match (k.lane (Side.other faulted)).state with
  | .ready => k.switchFrom faulted
  | .qualifying => k.switchFrom faulted
  | .testing => k.leave .holdover (some (later now limit))
  | .acquiring => k.leave .holdover (some (later now limit))
  | .dark => k.leave .holdover (some (later now limit))
  | .active => k.leave .holdover (some (later now limit))

/-- The counter of a fault's cause (Table 5-1). -/
def faultCount : FaultCause → PerCounter Nat
  | .lightLoss => ⟨0, 0, 1, 0, 0⟩
  | .frameLoss => ⟨0, 1, 0, 0, 0⟩
  | .testSuspend => ⟨0, 0, 0, 0, 0⟩

/-- A lane's fault capture written (R99). -/
def writeCapture (l : LaneId) (c : Capture) (h : Hub) : Hub :=
  h.setHealth l { laneGet h.hlm.health l with capture := some c }

/-- The suspension of the link's test (R107). -/
def suspendTest (d : Desk) (t : TestRec) (h : Hub) : Hub :=
  setTestStatus d t .suspended (writeCapture ⟨d, t.lane⟩ ⟨.testSuspend, h.now, .testing⟩ h)

/-- What a fault does to the link's test: FAILED for the tested lane (R105), SUSPENDED for the active lane (R107). -/
def faultTest (l : LaneId) (wasActive : Bool) (h : Hub) : Hub :=
  match h.hlm.tests.get l.link with
  | none => h
  | some t =>
    if t.status = .running then
      if t.lane = l.side then setTestStatus l.link t .failed h
      else if wasActive then suspendTest l.link t h
      else h
    else h

/-- HLM at a lane fault (R94, R99, R105, R107). -/
def hlmFault (l : LaneId) (cause : FaultCause) (prior : LaneState) (wasActive : Bool) (h : Hub) : Hub :=
  faultTest l wasActive (writeCapture l ⟨cause, h.now, prior⟩ (countHealth l (faultCount cause) h))

/-- The results of a period come before its faults (R73, step 1): at a fault of the active lane that will suspend a test
of the other lane, a frame that has not arrived there is recorded first (log entry 4). -/
def recordTested (l : LaneId) (h : Hub) : Hub :=
  if h.isActive l && h.hlm.testRunningOn (otherLane l) then missingFrame (otherLane l) h else h

/-- A lane fault: the lane's new record, the link's response, then HLM. A test completion due is taken first (log entry
25). -/
def laneFault (l : LaneId) (cause : FaultCause) (st : LaneState) (h : Hub) : Hub :=
  let h0 := testComplete l.link (recordTested l h)
  let prior := (h0.lane l).state
  let active := h0.isActive l
  let h1 := h0.setLane l ((h0.lane l).outOfSync st)
  let k := h1.links.get l.link
  let h2 := if active then h1.setLink l.link (k.respond h.now h.sto.install.holdoverFrames l.side) else h1
  hlmFault l cause prior active (settleLink h0 l.link l.side h2)

/-- The lane's light report replaced. -/
def setLight (l : LaneId) (b : Bool) (h : Hub) : Hub := h.setLane l { h.lane l with light := b }

/-- FRAME_LOSS (R70): the eighth consecutive bad frame of an in-sync lane. -/
def frameLoss (l : LaneId) (h : Hub) : Hub :=
  if (h.lane l).inSync && decide (8 ≤ (h.lane l).badRun) then laneFault l .frameLoss .acquiring h else h

/-- LIGHT_APPEARS (R67). -/
def lightAppears (l : LaneId) (h : Hub) : Hub :=
  if (h.lane l).light then h
  else
    let h1 := setLight l true h
    if (h.lane l).state = .dark then
      settleLink h l.link l.side (h1.setLane l { h1.lane l with state := .acquiring, acquireRun := 0 })
    else h1

/-- LIGHT_LOSS (R67). The results of the link's period come before its light changes (R73, step 1): frames of its two
lanes that have not arrived are recorded, with what follows from it (a verdict change switches the link first), and a
FRAME_LOSS of the lane that is due is taken (log entry 4). -/
def lightLoss (l : LaneId) (h : Hub) : Hub :=
  if (h.lane l).light then
    let h1 := setLight l false (frameLoss l (recordLink l.link h))
    if (h1.lane l).state = .dark then h1 else laneFault l .lightLoss .dark h1
  else h

/-- HOLDOVER_EXPIRY (R85). -/
def holdoverExpiry (d : Desk) (h : Hub) : Hub :=
  let k := h.links.get d
  if k.state = .holdover ∧ due h.now k.holdoverDeadline = true then
    settleLink h d .p (h.setLink d (k.leave .down none))
  else h

/-! ## Requests on links (R86, R88, R91) -/

/-- LANE_SWITCH (R86). -/
def lnkLaneSwitch (who : Requester) (link : Nat) (h : Hub) : Hub :=
  match desk? link with
  | none => answerTo who .range [] h
  | some d =>
    if ownsLink who d then
      match (h.links.get d).state, (h.links.get d).activeLane with
      | .up, some side =>
        if ((h.links.get d).lane (Side.other side)).state = .ready then answerTo who .done [] (switchLink d side h)
        else answerTo who .notReady [] h
      | _, _ => answerTo who .notUp [] h
    else answerTo who .denied [] h

/-- A lane at LINK_RESTART (R88). -/
def LaneRec.restart (l : LaneRec) : LaneRec := l.outOfSync (if l.light then .acquiring else .dark)

/-- A link at LINK_RESTART (R88). -/
def Link.restart (k : Link) : Link :=
  let k1 := match k.state with
    | .down => k
    | .up => k.leave .down none
    | .holdover => k.leave .down none
  { k1 with lanes := ⟨k1.lanes.p.restart, k1.lanes.s.restart⟩ }

/-- LINK_RESTART (R88). A test completion due is taken first (log entry 25). -/
def lnkLinkRestart (who : Requester) (link : Nat) (h : Hub) : Hub :=
  match desk? link with
  | none => answerTo who .range [] h
  | some d =>
    let h0 := testComplete d h
    answerTo who .done [] (settleLink h0 d .p (h0.setLink d (h0.links.get d).restart))

/-- A lane as READ_LINK reports it. -/
def laneBody (h : Hub) (l : LaneId) : List Byte :=
  let r := h.lane l
  enc8 r.state.pos ++ encOpt (fun x : Frame => enc32 x.toNat) r.latency ++ enc32 (h.links.get l.link).skew ++
    enc8 r.badRun ++ enc32 r.qualifyCount ++ enc32 (qualifyLength h l) ++ encOn r.qualified

/-- READ_LINK (R91). -/
def lnkReadLink (who : Requester) (link : Nat) (h : Hub) : Hub :=
  match desk? link with
  | none => answerTo who .range [] h
  | some d =>
    let k := h.links.get d
    let fill := if k.state = .up then some k.fill else none
    answerTo who .done
      (enc8 k.state.pos ++ encOpt (fun x => enc8 (Side.pos x)) k.activeLane ++ encOn k.provisional ++
       encOpt (fun t => enc16 (timeLeft Config.msFrames h.now t)) k.holdoverDeadline ++ encOpt enc8 fill ++
       enc32 k.rescuedFrames ++ enc32 k.repeatedFrames ++ laneBody h ⟨d, .p⟩ ++ laneBody h ⟨d, .s⟩) h

/-! ## Requests on health and tests (R98, R100, R102, R106) -/

/-- CLEAR_HEALTH (R98). -/
def hlmClearHealth (who : Requester) (lane : Nat) (h : Hub) : Hub :=
  match lane? lane with
  | none => answerTo who .range [] h
  | some l =>
    if ownsLink who l.link then
      answerTo who .done []
        (setVerdict l .good (h.setHealth l { laneGet h.hlm.health l with counters := ⟨0, 0, 0, 0, 0⟩ }))
    else answerTo who .denied [] h

/-- A lane's health as READ_HEALTH reports it. -/
def Health.body (x : Health) : List Byte :=
  CounterName.all.flatMap (fun c => enc16 (x.counters.get c)) ++ enc8 x.verdict.pos ++
    encOpt (fun c : Capture => enc8 c.cause.pos ++ enc32 c.frameNumber.toNat ++ enc8 c.priorState.pos) x.capture

/-- A test record as READ_HEALTH reports it, in the order of Table 5-3. -/
def TestRec.body (t : TestRec) : List Byte :=
  enc8 (Side.pos t.lane) ++ enc32 t.length ++ enc32 t.framesDone ++ enc32 t.patternFrames ++ enc32 t.patternErrors ++
    encOn t.leadIn ++ enc8 t.status.pos

/-- READ_HEALTH (R100). R100 does not say how the ten thresholds follow one another: the model gives warn then fail,
counter by counter, as Table 9-3 does for the install body (log entry 16). -/
def hlmReadHealth (who : Requester) (link : Nat) (h : Hub) : Hub :=
  match desk? link with
  | none => answerTo who .range [] h
  | some d =>
    let th := h.sto.install.thresholds
    answerTo who .done
      ((laneGet h.hlm.health ⟨d, .p⟩).body ++ (laneGet h.hlm.health ⟨d, .s⟩).body ++
       CounterName.all.flatMap (fun c => enc16 (th.get c).warn ++ enc16 (th.get c).fail) ++
       encOpt TestRec.body (h.hlm.tests.get d)) h

/-- The link's test is in progress (R102, check 3; R106, check 3). -/
def testInProgress (h : Hub) (d : Desk) : Bool :=
  match h.hlm.tests.get d with
  | none => false
  | some t => t.inProgress

/-- The readiness check of LANE_TEST (R102, check 4). -/
def testReady (h : Hub) (l : LaneId) : Bool :=
  decide ((h.links.get l.link).state = .up ∧ (h.links.get l.link).provisional = false ∧ (h.lane l).state = .ready)

/-- A new test record (R102). -/
def TestRec.start (lane : Side) (seconds : Nat) : TestRec where
  lane := lane
  length := seconds * Config.secFrames
  framesDone := 0
  patternFrames := 0
  patternErrors := 0
  leadIn := true
  status := .running

/-- LANE_TEST (R102). -/
def hlmLaneTest (who : Requester) (lane seconds : Nat) (h : Hub) : Hub :=
  match lane? lane with
  | none => answerTo who .range [] h
  | some l =>
    if 1 ≤ seconds ∧ seconds ≤ 600 then
      if ownsLink who l.link then
        if testInProgress h l.link then answerTo who .busy [] h
        else if testReady h l then
          let h1 := (h.setTest l.link (some (TestRec.start l.side seconds))).setLane l
            { h.lane l with state := .testing, qualifyDue := false }
          answerTo who .done [] (tellTest l.link (settleLink h l.link l.side h1))
        else answerTo who .notReady [] h
      else answerTo who .denied [] h
    else answerTo who .range [] h

/-- LANE_TEST_STOP (R106). A completion due is taken first (log entry 25). -/
def hlmLaneTestStop (who : Requester) (link : Nat) (h : Hub) : Hub :=
  match desk? link with
  | none => answerTo who .range [] h
  | some d =>
    if ownsLink who d then
      let h0 := testComplete d h
      match h0.hlm.tests.get d with
      | none => answerTo who .notReady [] h0
      | some t =>
        if t.inProgress then answerTo who .done [] (setTestStatus d t .aborted h0) else answerTo who .notReady [] h0
    else answerTo who .denied [] h

/-! ## Power-on -/

/-- HLM at power-on (R110). -/
def Hlm.powerOn : Hlm where
  health := PerDesk.of fun _ => ⟨Health.reset, Health.reset⟩
  tests := PerDesk.of fun _ => none

/-! ## Meanings of the lane and link event rows -/

/-- UPSTREAM_FRAME. -/
def execUpstreamFrame (l : LaneId) (bytes : List Byte) (s : State) : Host.Outcome State Fault Refusal :=
  .next { s with hub := upstreamFrame l bytes s.hub }

/-- ACQUISITION_COMPLETE. -/
def execAcquisitionComplete (l : LaneId) (s : State) : Host.Outcome State Fault Refusal :=
  .next { s with hub := acquisitionComplete l s.hub }

/-- QUALIFICATION_COMPLETE. -/
def execQualificationComplete (l : LaneId) (s : State) : Host.Outcome State Fault Refusal :=
  .next { s with hub := qualificationComplete l s.hub }

/-- FRAME_LOSS. -/
def execFrameLoss (l : LaneId) (s : State) : Host.Outcome State Fault Refusal :=
  .next { s with hub := frameLoss l s.hub }

/-- LIGHT_APPEARS. -/
def execLightAppears (l : LaneId) (s : State) : Host.Outcome State Fault Refusal :=
  .next { s with hub := lightAppears l s.hub }

/-- LIGHT_LOSS. -/
def execLightLoss (l : LaneId) (s : State) : Host.Outcome State Fault Refusal :=
  .next { s with hub := lightLoss l s.hub }

/-- HOLDOVER_EXPIRY. -/
def execHoldoverExpiry (d : Desk) (s : State) : Host.Outcome State Fault Refusal :=
  .next { s with hub := holdoverExpiry d s.hub }

/-- TEST_COMPLETE. -/
def execTestComplete (d : Desk) (s : State) : Host.Outcome State Fault Refusal :=
  .next { s with hub := testComplete d s.hub }

end Sys2Proof.Machine
end

