-- ==== Sys2Proof/Machine/Preamp.lean ====
section
/-!
DEFINITION. PCU, the Preamp Control Unit (chapters 1 and 2): staging and transfer of gain and pad, the filter, phantom
sequencing, gangs, and gain tracking. An event of PCU is worked out on a `PcuEvent` and committed once, so that its
notices go out in the order of R8, R19 and R30.
-/

namespace Sys2Proof.Machine

/-- An event of PCU under way: the state so far, and what it will report. -/
structure PcuEvent where
  pcu : Pcu
  /-- channels whose phantom_state changed, in the order they first changed (R15) -/
  phantom : List Chan
  /-- TRACK_LIMIT notices with their desks, in order (R30) -/
  limits : List (Desk × Notice)
  /-- INPUT_CHANGED notices, in order (R5, R9) -/
  changed : List Notice
  /-- an entry into a phantom transition forced a transfer (R8) -/
  forced : Bool
  /-- a change of SHOW data is to be reported (R23, R36) -/
  report : Bool
  deriving DecidableEq, Repr

/-- An event that has done nothing yet. -/
def PcuEvent.start (p : Pcu) : PcuEvent := ⟨p, [], [], [], false, false⟩

/-- A channel's record replaced. -/
def Pcu.setChannel (p : Pcu) (c : Chan) (x : Channel) : Pcu := { p with channels := Tbl.set p.channels c x }

/-- A tracking entry replaced. -/
def Pcu.setTrack (p : Pcu) (d : Desk) (c : Chan) (t : Track) : Pcu :=
  { p with tracking := p.tracking.set d (Tbl.set (p.tracking.get d) c t) }

/-- A channel's record replaced within an event. -/
def PcuEvent.setChannel (e : PcuEvent) (c : Chan) (x : Channel) : PcuEvent := { e with pcu := e.pcu.setChannel c x }

/-! ## Tracking (R26 to R37) -/

/-- The trim and limit mark derived from the reference and the effective gain (R27). -/
def Track.derive (eff : Int) (t : Track) : Track :=
  match t.reference with
  | none => t
  | some r =>
    if 48 < r - eff then { t with trim := 48, limitMark := true }
    else if r - eff < -48 then { t with trim := -48, limitMark := true }
    else { t with trim := r - eff, limitMark := false }

/-- A reference limited to -44.0 to +87.5 dB (R29). -/
def clampReference (r : Int) : Int := if r < -88 then -88 else if 175 < r then 175 else r

/-- A tracking entry at a transfer, with the new effective gain and the delta (Table 2-2). -/
def Track.transfer (eff delta : Int) (credited : Bool) (t : Track) : Track :=
  if t.tracking then
    Track.derive eff (if credited then { t with reference := t.reference.map fun r => clampReference (r + delta) } else t)
  else t

/-- A tracking entry takes a new value within an event; TRACK_LIMIT is noted where its mark changes (R30). -/
def PcuEvent.setTrack (e : PcuEvent) (d : Desk) (c : Chan) (t : Track) : PcuEvent :=
  let old := e.pcu.track d c
  { e with
    pcu := e.pcu.setTrack d c t
    limits := if old.limitMark = t.limitMark then e.limits
      else e.limits ++ [(d, .trackLimit c t.limitMark t.trim t.reference (e.pcu.channel c).effectiveGain)] }

/-- The three tracking entries of a channel at its transfer, in the order A, B, C (R29). -/
def PcuEvent.trackTransfer (e : PcuEvent) (c : Chan) (delta : Int) (credited : Requester) : PcuEvent :=
  Desk.all.foldl (fun e d =>
    e.setTrack d c ((e.pcu.track d c).transfer (e.pcu.channel c).effectiveGain delta (decide (credited = d.req)))) e

/-! ## Transfer (R6 to R9, R19) -/

/-- A channel's record after its transfer (R9, steps 1 and 2). -/
def Channel.transferred (x : Channel) : Channel :=
  { x with
    gain := x.commandedGain
    pad := x.commandedPad
    stagedGain := none
    stagedPad := none
    stagedBy := none
    transferDeadline := none }

/-- INPUT_CHANGED for a channel as its record stands (R9, step 5). -/
def Channel.inputChanged (x : Channel) (c : Chan) (credited : Requester) : Notice :=
  .inputChanged c x.gain x.pad x.hpf x.phantomTarget credited

/-- The transfer of one channel (R9). A channel with no staged value is left as it is; `stagedBy` is present wherever a
staged value is (R1). -/
def PcuEvent.transfer (e : PcuEvent) (c : Chan) : PcuEvent :=
  let x := e.pcu.channel c
  match x.isStaged, x.stagedBy with
  | true, some by_ =>
    let y := x.transferred
    let e1 := (e.setChannel c y).trackTransfer c (y.effectiveGain - x.effectiveGain) by_
    { e1 with changed := e1.changed ++ [y.inputChanged c by_], report := true }
  | _, _ => e

/-- The channels that transfer with a channel: its gang in list order, or itself (R19). -/
def Pcu.groupOf (p : Pcu) (c : Chan) : List Chan :=
  match (p.channel c).gang with
  | none => [c]
  | some g => (Tbl.get p.gangs g).getD [c]

/-- The transfer of a channel or of its whole gang, lead first. -/
def PcuEvent.transferGroup (e : PcuEvent) (c : Chan) : PcuEvent := (e.pcu.groupOf c).foldl PcuEvent.transfer e

/-! ## Phantom (R10 to R15) -/

/-- A channel's change of phantom_state, noted once per event (R15). -/
def PcuEvent.notePhantom (e : PcuEvent) (c : Chan) : PcuEvent :=
  if e.phantom.contains c then e else { e with phantom := e.phantom ++ [c] }

/-- Any channel of the group has a staged value. -/
def Pcu.groupStaged (p : Pcu) (c : Chan) : Bool := (p.groupOf c).any fun m => (p.channel m).isStaged

/-- A channel enters CHARGING or DISCHARGING: its timer starts, and staged values of it or its gang transfer at once
(R8, R10, R19). -/
def PcuEvent.enterTransition (e : PcuEvent) (now : Frame) (c : Chan) (st : PhantomState) (frames : Nat) : PcuEvent :=
  let e1 := (e.setChannel c { e.pcu.channel c with phantomState := st, phantomTimer := some (later now frames) }).notePhantom c
  if e1.pcu.groupStaged c then { e1.transferGroup c with forced := true } else e1

/-- PCU serves the Phantom Queue (R12): while fewer than 8 channels are CHARGING, the head starts charging. The number
bounds the entries served. -/
def PcuEvent.serve (now : Frame) : Nat → PcuEvent → PcuEvent
  | 0, e => e
  | fuel + 1, e =>
    if e.pcu.charging < 8 then
      match e.pcu.phantomQueue with
      | [] => e
      | c :: cs =>
        PcuEvent.serve now fuel
          (PcuEvent.enterTransition { e with pcu := { e.pcu with phantomQueue := cs } } now c .charging Config.chargeFrames)
    else e

/-- The Phantom Queue served whole. -/
def PcuEvent.serveQueue (e : PcuEvent) (now : Frame) : PcuEvent := e.serve now e.pcu.phantomQueue.length

/-- The phantom field of a SET_INPUT that passed its checks (R11, Table 1-2). -/
def PcuEvent.phantomField (e : PcuEvent) (now : Frame) (c : Chan) (on : Bool) : PcuEvent :=
  let x := e.pcu.channel c
  match x.phantomState, on with
  | .off, true =>
    let e1 := (e.setChannel c { x with phantomTarget := true, phantomState := .queued }).notePhantom c
    PcuEvent.serveQueue { e1 with pcu := { e1.pcu with phantomQueue := e1.pcu.phantomQueue ++ [c] }, report := true } now
  | .queued, false =>
    let e1 := (e.setChannel c { x with phantomTarget := false, phantomState := .off }).notePhantom c
    { e1 with pcu := { e1.pcu with phantomQueue := e1.pcu.phantomQueue.filter fun q => !decide (q = c) }, report := true }
  | .on, false =>
    let e1 := e.setChannel c { x with phantomTarget := false }
    { e1.enterTransition now c .discharging Config.dischargeFrames with report := true }
  | _, _ => e

/-- A phantom field that opposes a transition in progress (R3, check 3). -/
def phantomOpposes (st : PhantomState) (field : Option Bool) : Bool :=
  match st, field with
  | .charging, some false => true
  | .discharging, some true => true
  | _, _ => false

/-! ## Committing an event -/

/-- The PHANTOM_STATE notices of an event, with the states in which it leaves the channels (R15). -/
def PcuEvent.phantomNotices (e : PcuEvent) : List Notice :=
  e.phantom.map fun c => .phantomState c (e.pcu.channel c).phantomState (e.pcu.channel c).phantomTarget

/-- The TRACK_LIMIT notices, each to its desk. -/
def notifyLimits (ls : List (Desk × Notice)) (h : Hub) : Hub := ls.foldl (fun h x => notifyDesk x.1 x.2 h) h

/-- The event takes effect: the new state, its notices (PHANTOM_STATE first where an entry into a transition forced a
transfer, then TRACK_LIMIT, then INPUT_CHANGED; log entry 12), its report to STO. -/
def commitPcu (e : PcuEvent) (h : Hub) : Hub :=
  let h1 := { h with pcu := e.pcu }
  let h2 :=
    if e.forced then notifyEach e.changed (notifyLimits e.limits (notifyEach e.phantomNotices h1))
    else notifyEach e.phantomNotices (notifyEach e.changed (notifyLimits e.limits h1))
  showReportIf e.report h2

/-! ## SET_INPUT (R3, R4, R5, R17, R18) -/

/-- The fields of a SET_INPUT, in range. -/
structure InputFields where
  gain : Option Nat
  pad : Option Bool
  hpf : Option Hpf
  phantom : Option Bool
  deriving DecidableEq, Repr

/-- The request carries gain or pad. -/
def InputFields.stages (f : InputFields) : Bool := f.gain.isSome || f.pad.isSome

/-- The range check of the fields (R3, check 1). -/
def inputFields? (gain pad hpf phantom : Option Nat) : Option InputFields :=
  match opt? gain? gain, opt? offOn? pad, opt? hpf? hpf, opt? offOn? phantom with
  | some g, some p, some f, some ph => some ⟨g, p, f, ph⟩
  | _, _, _, _ => none

/-- The commanded gain that a change gives a member: its own plus the delta of R17. -/
def Pcu.memberGain (p : Pcu) (named m : Chan) (gain : Nat) : Int :=
  ((p.channel m).commandedGain : Int) + ((gain : Int) - ((p.channel named).commandedGain : Int))

/-- Every member's gain stays within 0.0 to 63.5 dB (R17). For a channel alone this is the range of its own gain. -/
def Pcu.gainFits (p : Pcu) (named : Chan) (gain : Option Nat) : Bool :=
  match gain with
  | none => true
  | some g => (p.groupOf named).all fun m => decide (0 ≤ p.memberGain named m g ∧ p.memberGain named m g ≤ 127)

/-- The request carries none of the four fields. -/
def InputFields.empty (f : InputFields) : Bool := f.gain.isNone && f.pad.isNone && f.hpf.isNone && f.phantom.isNone

/-- The permission check of SET_INPUT (R3, R17): none where it passes. A request that carries none of the four fields
passes and asks no verdict (R3, R42); its channel number is still checked (log entry 39). -/
def inputPermission (h : Hub) (who : Requester) (c : Chan) (f : InputFields) : Option Code :=
  if f.empty then none
  else if f.stages && (h.pcu.channel c).gang.isSome then
    if (h.pcu.groupOf c).all fun m => h.arb.permits who (Chan.res m) then none else some .held
  else (h.arb.permission who (Chan.res c)).code

/-- One member's record staged (R4, R18); `deadline` is set where nothing was staged before. -/
def PcuEvent.stageOne (who : Requester) (deadline : Option Frame) (f : InputFields) (gain : Option Nat)
    (e : PcuEvent) (m : Chan) : PcuEvent :=
  let x := e.pcu.channel m
  e.setChannel m
    { x with
      stagedGain := gain.or x.stagedGain
      stagedPad := f.pad.or x.stagedPad
      stagedBy := some who
      transferDeadline := deadline.or x.transferDeadline }

/-- Gain and pad staged on a channel or its gang, and transferred at once where a member is in phantom transition
(R4, R8, R18, R19). -/
def PcuEvent.stage (e : PcuEvent) (now : Frame) (who : Requester) (c : Chan) (f : InputFields) : PcuEvent :=
  let p := e.pcu
  let group := p.groupOf c
  let deadline := if p.groupStaged c then none else some (later now Config.zeroCrossFrames)
  let e1 := group.foldl
    (fun e m => e.stageOne who deadline f (f.gain.map fun g => (p.memberGain c m g).toNat) m) e
  if group.any fun m => (p.channel m).inTransition then e1.transferGroup c else e1

/-- The hpf field (R5). Its INPUT_CHANGED carries the gain, pad and phantom_target as they stand when the field is taken:
before the phantom field of the same SET_INPUT changes them, though PHANTOM_STATE is sent first (R8; log entry 12). -/
def PcuEvent.hpfField (e : PcuEvent) (who : Requester) (c : Chan) (f : Hpf) : PcuEvent :=
  let x := e.pcu.channel c
  if x.hpf = f then e
  else
    let y := { x with hpf := f }
    let e1 := e.setChannel c y
    { e1 with changed := e1.changed ++ [y.inputChanged c who], report := true }

/-- A SET_INPUT that passed its checks, carried out in the order of R3. -/
def PcuEvent.setInput (e : PcuEvent) (now : Frame) (who : Requester) (c : Chan) (f : InputFields) : PcuEvent :=
  let e1 := if f.stages then e.stage now who c f else e
  let e2 := match f.hpf with
    | none => e1
    | some v => e1.hpfField who c v
  match f.phantom with
  | none => e2
  | some v => e2.phantomField now c v

/-- SET_INPUT (R3). -/
def pcuSetInput (who : Requester) (ch : Nat) (gain pad hpf phantom : Option Nat) (h : Hub) : Hub :=
  match chan? ch, inputFields? gain pad hpf phantom with
  | some c, some f =>
    if h.pcu.gainFits c f.gain then
      match inputPermission h who c f with
      | some code => answerTo who code [] h
      | none =>
        if phantomOpposes (h.pcu.channel c).phantomState f.phantom then answerTo who .busy [] h
        else answerTo who .done [] (commitPcu ((PcuEvent.start h.pcu).setInput h.now who c f) h)
    else answerTo who .range [] h
  | _, _ => answerTo who .range [] h

/-! ## Gangs (R16, R20, R21) -/

/-- The members of a group, or none. -/
def Pcu.members (p : Pcu) (g : Grp) : List Chan := (Tbl.get p.gangs g).getD []

/-- No listed channel is a member of another group (R20, check 1). -/
def Pcu.freeFor (p : Pcu) (g : Grp) (ms : List Chan) : Bool :=
  ms.all fun m =>
    match (p.channel m).gang with
    | none => true
    | some k => decide (k = g)

/-- The gang field of a channel set. -/
def Pcu.setGangField (g : Option Grp) (p : Pcu) (m : Chan) : Pcu := p.setChannel m { p.channel m with gang := g }

/-- The Gang Table takes the new list; the gang fields follow (R20, step 4). -/
def Pcu.takeGang (p : Pcu) (g : Grp) (ms : List Chan) : Pcu :=
  let cleared := (p.members g).foldl (Pcu.setGangField none) p
  let set := ms.foldl (Pcu.setGangField (some g)) cleared
  { set with gangs := Tbl.set set.gangs g (if ms.isEmpty then none else some ms) }

/-- The forced transfer of SET_GANG (R20, step 3): the present members together, then each listed channel that belongs
to no group. R20 gives the listed channels no order: the model takes them, and so sends their TRACK_LIMIT and
INPUT_CHANGED, in list order (log entry 12). -/
def PcuEvent.forceGang (e : PcuEvent) (g : Grp) (ms : List Chan) : PcuEvent :=
  let e1 := (e.pcu.members g).foldl PcuEvent.transfer e
  (ms.filter fun m => (e.pcu.channel m).gang.isNone).foldl PcuEvent.transfer e1

/-- SET_GANG (R20). R20 step 4 reports SHOW data without a condition, R23 at a change of the Gang Table: a request that
leaves the table as it was reports none (log entry 42). -/
def pcuSetGang (who : Requester) (group : Nat) (members : List Nat) (h : Hub) : Hub :=
  match grp? group, members? members with
  | some g, some ms =>
    if !h.pcu.freeFor g ms then answerTo who .range [] h
    else if (h.pcu.members g ++ ms).all fun m => h.arb.permits who (Chan.res m) then
      let e := (PcuEvent.start h.pcu).forceGang g ms
      let changed := !decide (Tbl.get h.pcu.gangs g = if ms.isEmpty then none else some ms)
      answerTo who .done [] (commitPcu { e with pcu := e.pcu.takeGang g ms, report := e.report || changed } h)
    else answerTo who .held [] h
  | _, _ => answerTo who .range [] h

/-- A group's list as an answer gives it: absent, or the members in list order (R21). -/
def gangBody (g : Option (List Chan)) : List Byte := encOpt (encList encChan) g

/-- READ_GANG (R21). -/
def pcuReadGang (who : Requester) (group : Option Nat) (h : Hub) : Hub :=
  match group with
  | none => answerTo who .done (h.pcu.gangs.toList.flatMap gangBody) h
  | some n =>
    match grp? n with
    | none => answerTo who .range [] h
    | some g => answerTo who .done (gangBody (Tbl.get h.pcu.gangs g)) h

/-! ## Reading a channel (R22) -/

/-- A tracking entry as READ_INPUT reports it (R26). -/
def Track.body (t : Track) : List Byte :=
  encOn t.tracking ++ encInt8 t.trim ++ encOpt encInt16 t.reference ++ encOn t.limitMark

/-- A channel's record as READ_INPUT reports it. -/
def Channel.body (x : Channel) : List Byte :=
  enc8 x.gain ++ encOff x.pad ++ encOpt enc8 x.stagedGain ++ encOpt encOff x.stagedPad ++ encOpt encReq x.stagedBy ++
  enc8 x.hpf.pos ++ encOff x.phantomTarget ++ enc8 x.phantomState.pos ++
  encOpt (fun g : Grp => enc8 (g.1 + 1)) x.gang

/-- READ_INPUT (R22). -/
def pcuReadInput (who : Requester) (ch : Nat) (h : Hub) : Hub :=
  match chan? ch with
  | none => answerTo who .range [] h
  | some c =>
    let entries := match who.desk with
      | some d => (h.pcu.track d c).body
      | none => Desk.all.flatMap fun d => (h.pcu.track d c).body
    answerTo who .done ((h.pcu.channel c).body ++ (h.arb.claim (Chan.res c)).summary ++ entries) h

/-! ## SET_TRACKING and SET_TRIM (R31 to R36) -/

/-- A requester may change a desk's entries: PANEL any, a desk its own (R31, R34). -/
def ownsEntries (who : Requester) (d : Desk) : Bool := decide (who = .panel ∨ who = d.req)

/-- An entry with tracking turned ON or OFF (R32, R33). -/
def Track.setTracking (eff : Int) (on : Bool) (t : Track) : Track :=
  if t.tracking = on then t
  else if on then Track.derive eff { t with tracking := true, reference := some (eff + t.trim) }
  else { t with tracking := false, reference := none, limitMark := false }

/-- An entry with a trim given (R34). -/
def Track.setTrim (eff trim : Int) (t : Track) : Track :=
  if t.tracking then { t with trim := trim, reference := some (eff + trim), limitMark := false }
  else { t with trim := trim, limitMark := false }

/-- The stored fields of an entry (R36). -/
def Track.stored (t : Track) : ShowTrack := ⟨t.tracking, t.trim, t.reference⟩

/-- A request's change of one entry within an event: TRACK_LIMIT and the report to STO follow (R30, R36). -/
def PcuEvent.change (d : Desk) (f : Int → Track → Track) (e : PcuEvent) (c : Chan) : PcuEvent :=
  let old := e.pcu.track d c
  let new := f (e.pcu.channel c).effectiveGain old
  let e1 := e.setTrack d c new
  { e1 with report := e1.report || !decide (old.stored = new.stored) }

/-- SET_TRACKING (R31). -/
def pcuSetTracking (who : Requester) (desk : Nat) (channels : BitSet 72) (value : Nat) (h : Hub) : Hub :=
  match desk? desk, onOff? value with
  | some d, some on =>
    if (BitSet.members channels).isEmpty then answerTo who .range [] h
    else if ownsEntries who d then
      answerTo who .done []
        (commitPcu ((BitSet.members channels).foldl (PcuEvent.change d fun eff => Track.setTracking eff on)
          (PcuEvent.start h.pcu)) h)
    else answerTo who .denied [] h
  | _, _ => answerTo who .range [] h

/-- SET_TRIM (R34). -/
def pcuSetTrim (who : Requester) (desk ch : Nat) (trim : Int) (h : Hub) : Hub :=
  match desk? desk, chan? ch, trim? trim with
  | some d, some c, some t =>
    if ownsEntries who d then
      answerTo who .done []
        (commitPcu (PcuEvent.change d (fun eff => Track.setTrim eff t) (PcuEvent.start h.pcu) c) h)
    else answerTo who .denied [] h
  | _, _, _ => answerTo who .range [] h

/-! ## Events of channels -/

/-- The channel makes transfers: it belongs to no gang or is the lead of its own (R6, R19). -/
def Pcu.leads (p : Pcu) (c : Chan) : Bool := decide ((p.groupOf c).head? = some c)

/-- Two consecutive samples of which one is negative and the other zero or positive (R6). -/
def crosses (x y : Sample) : Bool := x.msb != y.msb

/-- A zero crossing stands on the channel that may transfer: the last two samples cross, and the second did not arrive
in the frame in which the values were first staged (R6). -/
def Pcu.crossingDue (p : Pcu) (now : Frame) (c : Chan) : Bool :=
  p.leads c && p.groupStaged c && crosses (Tbl.get p.before c) (Tbl.get p.samples c) &&
    !decide ((p.channel c).transferDeadline = some (later now Config.zeroCrossFrames))

/-- The channel's zero-cross timeout is reached (R7, R19). -/
def Pcu.timeoutDue (p : Pcu) (now : Frame) (c : Chan) : Bool :=
  p.leads c && p.groupStaged c && due now (p.channel c).transferDeadline

/-- ZERO_CROSSING (R6, R19). -/
def zeroCrossing (c : Chan) (h : Hub) : Hub :=
  if h.pcu.crossingDue h.now c then commitPcu ((PcuEvent.start h.pcu).transferGroup c) h else h

/-- TRANSFER_TIMEOUT (R7, R19). -/
def transferTimeout (c : Chan) (h : Hub) : Hub :=
  if h.pcu.timeoutDue h.now c then commitPcu ((PcuEvent.start h.pcu).transferGroup c) h else h

/-- A phantom timer of a channel in the state is reached. -/
def Pcu.phantomDue (p : Pcu) (now : Frame) (c : Chan) (st : PhantomState) : Bool :=
  decide ((p.channel c).phantomState = st) && due now (p.channel c).phantomTimer

/-- A phantom timer's expiry moves the channel to a steady state and removes the timer (R10). -/
def PcuEvent.endTransition (e : PcuEvent) (c : Chan) (st : PhantomState) : PcuEvent :=
  (e.setChannel c { e.pcu.channel c with phantomState := st, phantomTimer := none }).notePhantom c

/-- CHARGE_EXPIRY (R13): the channel becomes ON and the queue is served. -/
def chargeExpiry (c : Chan) (h : Hub) : Hub :=
  if h.pcu.phantomDue h.now c .charging then
    commitPcu (((PcuEvent.start h.pcu).endTransition c .on).serveQueue h.now) h
  else h

/-- DISCHARGE_EXPIRY (R14): the channel becomes OFF. -/
def dischargeExpiry (c : Chan) (h : Hub) : Hub :=
  if h.pcu.phantomDue h.now c .discharging then commitPcu ((PcuEvent.start h.pcu).endTransition c .off) h else h

/-! ## Power-on (R24, R37) -/

/-- The group of which a channel is a member in restored groups. -/
def gangOf (gangs : Vector (Option (List Chan)) 12) (c : Chan) : Option Grp :=
  (List.finRange 12).find? fun g => ((Tbl.get gangs g).getD []).contains c

/-- A channel's restored record (R24). -/
def ShowData.channel (x : ShowData) (restore : Bool) (c : Chan) : Channel :=
  let v := Tbl.get x.channels c
  { Channel.reset with
    gain := v.gain
    pad := v.pad
    hpf := v.hpf
    phantomTarget := v.phantomTarget && restore
    phantomState := if v.phantomTarget && restore then .queued else .off
    gang := gangOf x.gangs c }

/-- A restored tracking entry (R37). -/
def ShowData.track (x : ShowData) (d : Desk) (c : Chan) (eff : Int) : Track :=
  let v := Tbl.get (x.tracking.get d) c
  if v.tracking then Track.derive eff ⟨true, v.trim, v.reference, false⟩ else ⟨false, v.trim, none, false⟩

/-- PCU's restored state before the Phantom Queue is served. -/
def ShowData.pcu (x : ShowData) (restore : Bool) (samples : Vector Sample 72) : Pcu :=
  let channels : Vector Channel 72 := Tbl.of fun c => x.channel restore c
  { channels := channels
    gangs := x.gangs
    phantomQueue := (List.finRange 72).filter fun c => (Tbl.get channels c).phantomState = .queued
    tracking := PerDesk.of fun d => Tbl.of fun c => x.track d c (Tbl.get channels c).effectiveGain
    before := samples
    samples := samples }

/-- The stored tracking entries differ from the restored ones (R36). -/
def ShowData.trackingChanged (x : ShowData) (p : Pcu) : Bool :=
  Desk.all.any fun d => (List.finRange 72).any fun c =>
    !decide ((p.track d c).stored = Tbl.get (x.tracking.get d) c)

/-- PCU at power-on (R24, R37): the restored state with the Phantom Queue served at frame 0, and whether a change of
SHOW data is reported. No notice is sent. -/
def Pcu.powerOn (x : ShowData) (restore : Bool) (samples : Vector Sample 72) : Pcu × Bool :=
  let p := x.pcu restore samples
  (((PcuEvent.start p).serveQueue 0#32).pcu, !restore || x.trackingChanged p)

/-! ## Meanings of the channel event rows -/

/-- ZERO_CROSSING. -/
def execZeroCrossing (c : Chan) (s : State) : Host.Outcome State Fault Refusal :=
  .next { s with hub := zeroCrossing c s.hub }

/-- TRANSFER_TIMEOUT. -/
def execTransferTimeout (c : Chan) (s : State) : Host.Outcome State Fault Refusal :=
  .next { s with hub := transferTimeout c s.hub }

/-- CHARGE_EXPIRY. -/
def execChargeExpiry (c : Chan) (s : State) : Host.Outcome State Fault Refusal :=
  .next { s with hub := chargeExpiry c s.hub }

/-- DISCHARGE_EXPIRY. -/
def execDischargeExpiry (c : Chan) (s : State) : Host.Outcome State Fault Refusal :=
  .next { s with hub := dischargeExpiry c s.hub }

end Sys2Proof.Machine
end

