-- ==== Sys2Proof/Machine/Store.lean ====
section
/-!
DEFINITION. STO, the Settings Store (chapter 9): the Store Write List, the running write and its end, the settle timer,
WRITE_INSTALL, READ_INSTALL, LOCK_INSTALL, ERASE_PREPARE, ERASE_INSTALL and SAVE_NOW.
-/

namespace Sys2Proof.Machine

/-! ## What a write puts into its region (R178, R181) -/

/-- The running SHOW values of every owner (Table 9-4). -/
def Hub.showData (h : Hub) : ShowData where
  channels := Tbl.of fun c =>
    let x := h.pcu.channel c
    ⟨x.gain, x.pad, x.hpf, x.phantomTarget⟩
  gangs := h.pcu.gangs
  patches := Tbl.of fun i =>
    let o := h.mon.output i
    ⟨o.primary, o.fallback, o.failAction, o.gap⟩
  tracking := PerDesk.of fun d => Tbl.of fun c => (h.pcu.track d c).stored

/-- The snapshot taken at the start of an entry's write. -/
def Hub.snapshot (h : Hub) (e : WriteEntry) : Snapshot :=
  match e.region with
  | .showData => .showData h.showData
  | .install =>
    match e.kind with
    | .save => .install ⟨h.sto.install, h.sto.lock⟩
    | .lock => .install ⟨h.sto.install, true⟩
    | .erase => .install ⟨Install.defaults, false⟩

/-! ## The write list (R181) -/

/-- An entry added to the list, merged into a pending entry of its region. -/
def mergeEntry (e : WriteEntry) : List WriteEntry → List WriteEntry
  | [] => [e]
  | x :: xs => if x.region = e.region then { e with waiting := x.waiting || e.waiting } :: xs else x :: mergeEntry e xs

/-- A region fails its CRC from now on: its write has started and not completed (R179, R181). The stored CRC stands for
it as the complement of the right one (log entry 19). -/
def Sto.spoil (x : Sto) : RegionName → Sto
  | .install => { x with installRegion := ⟨x.installRegion.contents, ~~~x.installRegion.contents.crc⟩ }
  | .showData => { x with showRegion := ⟨x.showRegion.contents, ~~~x.showRegion.contents.crc⟩ }

/-- A write starts; a SHOW write stops the settle timer (R180, R181). -/
def startWrite (e : WriteEntry) (h : Hub) : Hub :=
  let x := { h.sto.spoil e.region with
    running := some ⟨e, h.snapshot e, later h.now Config.writeFaultFrames⟩
    awaited := h.sto.awaited + 1
    settle := if e.region = .showData then none else h.sto.settle }
  { h with sto := x }

/-- The oldest pending entry starts, where no write runs. -/
def startNext (h : Hub) : Hub :=
  match h.sto.running, h.sto.writeList with
  | none, e :: es => startWrite e { h with sto := { h.sto with writeList := es } }
  | none, [] => h
  | some _, _ => h

/-- An entry added to the Store Write List; it starts at once where no write runs. -/
def addEntry (e : WriteEntry) (h : Hub) : Hub :=
  startNext { h with sto := { h.sto with writeList := mergeEntry e h.sto.writeList } }

/-! ## The end of a write (R181, R183, R184) -/

/-- New running install values take effect at their owners: HLM computes all six verdicts, MON starts revert timers
(R182). -/
def installChanged (h : Hub) : Hub :=
  let h1 := computeVerdicts h
  commitMon false h1.mon.outputs h1

/-- A region's status set, with STORE_STATE (R178). -/
def setStatus (r : RegionName) (st : RegionStatus) (cause : StoreCause) (h : Hub) : Hub :=
  notifyAll (.storeState r st cause)
    { h with sto := match r with
      | .install => { h.sto with installStatus := st }
      | .showData => { h.sto with showStatus := st } }

/-- A region's status. -/
def Sto.status (x : Sto) : RegionName → RegionStatus
  | .install => x.installStatus
  | .showData => x.showStatus

/-- The region holds the snapshot with a correct CRC. -/
def Sto.commit (x : Sto) : Snapshot → Sto
  | .install image => { x with installRegion := ⟨image, image.crc⟩ }
  | .showData data => { x with showRegion := ⟨data, data.crc⟩ }

/-- What the completion of an entry's write does to the running values. -/
def finishEntry (k : WriteKind) (h : Hub) : Hub :=
  match k with
  | .save => h
  | .lock => { h with sto := { h.sto with lock := true } }
  | .erase => installChanged { h with sto := { h.sto with install := Install.defaults, lock := false } }

/-- The request waiting on an entry is answered. -/
def answerWaiting (e : WriteEntry) (code : Code) (h : Hub) : Hub := if e.waiting then answerTo .panel code [] h else h

/-- A completion signal has come. -/
def Sto.signalTaken (x : Sto) : Sto := { x with awaited := x.awaited - 1, signals := x.signals + 1 }

/-- The completion signal that comes is that of the running write: no abandoned write's is outstanding, or the free value
says that it is not one of those (log entry 29). -/
def Sto.signalOwn (x : Sto) : Bool := decide (x.awaited ≤ 1) || !Config.signalIsLate x.signals

/-- The running write completes (R181). -/
def completeWrite (w : RunningWrite) (h : Hub) : Hub :=
  let h1 := { h with sto := { h.sto.commit w.snapshot with running := none } }
  let h2 := if h1.sto.status w.entry.region = .good then h1 else setStatus w.entry.region .good .writeDone h1
  startNext (answerWaiting w.entry .done (finishEntry w.entry.kind h2))

/-- STORE_WRITE_COMPLETE: the memory signals a completion. The signal is ignored where no write runs, where the running
write's fault deadline has been reached, and where it is that of an abandoned write (log entry 29). -/
def storeWriteComplete (h : Hub) : Hub :=
  let h1 := { h with sto := h.sto.signalTaken }
  match h.sto.running with
  | none => h1
  | some w => if !reached h.now w.faultDeadline && h.sto.signalOwn then completeWrite w h1 else h1

/-- STORE_WRITE_FAULT: the running write's fault deadline is reached. -/
def storeWriteFault (h : Hub) : Hub :=
  match h.sto.running with
  | none => h
  | some w =>
    if reached h.now w.faultDeadline then
      startNext (answerWaiting w.entry .storeFault
        (setStatus w.entry.region .fault .writeFault { h with sto := { h.sto with running := none } }))
    else h

/-- SETTLE_EXPIRY (R180). -/
def settleExpiry (h : Hub) : Hub :=
  if due h.now h.sto.settle then
    addEntry ⟨.showData, .save, false⟩ { h with sto := { h.sto with settle := none } }
  else h

/-! ## Requests -/

/-- WRITE_INSTALL (R182). -/
def stoWriteInstall (who : Requester) (settings : List Byte) (h : Hub) : Hub :=
  match Install.ofBytes settings with
  | none => answerTo who .range [] h
  | some x =>
    if h.sto.lock then answerTo who .regionLocked [] h
    else addEntry ⟨.install, .save, true⟩ (installChanged { h with sto := { h.sto with install := x } })

/-- A write of the region is running or pending. -/
def Sto.writing (x : Sto) (r : RegionName) : Bool :=
  (match x.running with
    | none => false
    | some w => decide (w.entry.region = r)) || x.writeList.any fun e => decide (e.region = r)

/-- READ_INSTALL (R182); `prepared` is the erase-prepare mark as it stood before the request. -/
def stoReadInstall (who : Requester) (prepared : Bool) (h : Hub) : Hub :=
  let x := h.sto
  answerTo who .done
    (x.install.bytes ++ encOn x.lock ++ enc8 x.installStatus.pos ++ enc8 x.showStatus.pos ++ encOn prepared ++
     encOff (x.writing .install) ++ encOff (x.writing .showData)) h

/-- LOCK_INSTALL (R183). -/
def stoLockInstall (who : Requester) (h : Hub) : Hub :=
  if h.sto.lock then answerTo who .done [] h else addEntry ⟨.install, .lock, true⟩ h

/-- ERASE_PREPARE (R184). -/
def stoErasePrepare (who : Requester) (h : Hub) : Hub :=
  answerTo who .done [] { h with sto := { h.sto with erasePrepared := true } }

/-- ERASE_INSTALL (R184); `prepared` is the mark as it stood before the request. -/
def stoEraseInstall (who : Requester) (prepared : Bool) (h : Hub) : Hub :=
  if prepared then addEntry ⟨.install, .erase, true⟩ h else answerTo who .noPrepare [] h

/-- SAVE_NOW (R180): its answer follows the end of its entry's write. -/
def stoSaveNow (h : Hub) : Hub := addEntry ⟨.showData, .save, true⟩ h

/-! ## Meanings of the store event rows -/

/-- SETTLE_EXPIRY. -/
def execSettleExpiry (s : State) : Host.Outcome State Fault Refusal := .next { s with hub := settleExpiry s.hub }

/-- STORE_WRITE_COMPLETE. -/
def execStoreWriteComplete (s : State) : Host.Outcome State Fault Refusal :=
  .next { s with hub := storeWriteComplete s.hub }

/-- STORE_WRITE_FAULT. -/
def execStoreWriteFault (s : State) : Host.Outcome State Fault Refusal := .next { s with hub := storeWriteFault s.hub }

end Sys2Proof.Machine
end

