-- ==== Sys2Proof/Machine/Engine.lean ====
section
/-!
DEFINITION. REQ, the Request Engine (chapter 8), where it hands requests to their owners: execution of a queue's head
(R159), arrivals (R157), deliveries (R160), the message assembler (R156); and the two requests that PNL owns,
READ_NOTICES and HUB_RESTART (R176, R177).
-/

namespace Sys2Proof.Machine

/-! ## Requests that PNL owns -/

/-- The Panel Notice Queue emptied, and its gap-owed mark set. A notice that a transaction in progress carries no longer
stands in the queue. -/
def Pnl.flush (p : Pnl) : Pnl :=
  { p with notices := [], gapOwed := true, txn := p.txn.map fun t => { t with noticeStands := false } }

/-- READ_NOTICES (R176). -/
def pnlReadNotices (who : Requester) (flush : Nat) (h : Hub) : Hub :=
  match offOn? flush with
  | none => answerTo who .range [] h
  | some b =>
    let body := enc8 h.pnl.notices.length ++ encOn h.pnl.gapOwed ++ enc8 h.pnl.discardCount
    let p := { h.pnl with discardCount := 0 }
    answerTo who .done body { h with pnl := if b then p.flush else p }

/-- HUB_RESTART (R177): the restart handed to HLM, TBK, ARB and REQ, the panel notices emptied, HUB_RESTARTED and the
answer. -/
def hubRestart (who : Requester) (h : Hub) : Hub :=
  let h1 := tbkRestart (hlmRestart h)
  let h2 := { h1 with arb := h1.arb.restart, req := h1.req.restart, pnl := h1.pnl.flush }
  answerTo who .done [] (notifyAll (.hubRestarted h2.arb.frozen) h2)

/-! ## Execution of the head (R159) -/

/-- A request handed to the owner that Table 8-7 names; a request that REQ answers itself has been answered. -/
def handOver (who : Requester) (prepared : Bool) (c : Call) (h : Hub) : Hub :=
  match c with
  | .setInput ch gain pad hpf phantom => pcuSetInput who ch gain pad hpf phantom h
  | .readInput ch => pcuReadInput who ch h
  | .setGang group members => pcuSetGang who group members h
  | .readGang group => pcuReadGang who group h
  | .setTracking desk channels value => pcuSetTracking who desk channels value h
  | .setTrim desk ch trim => pcuSetTrim who desk ch trim h
  | .claim resources level => arbClaim who resources level h
  | .release resources => arbRelease who resources h
  | .override resources => arbOverride who resources h
  | .freeze => arbFreeze who h
  | .readClaims resources => arbReadClaims who resources h
  | .setPatch out primary fallback failAction gap => monSetPatch who out primary fallback failAction gap h
  | .outputEnable outputs value => monOutputEnable who outputs value h
  | .readOutput out => monReadOutput who out h
  | .talkOn destinations duck => tbkTalkOn who destinations duck h
  | .talkOff => tbkTalkOff who h
  | .readTalk => tbkReadTalk who h
  | .readLink link => lnkReadLink who link h
  | .readHealth link => hlmReadHealth who link h
  | .clearHealth lane => hlmClearHealth who lane h
  | .laneSwitch link => lnkLaneSwitch who link h
  | .laneTest lane seconds => hlmLaneTest who lane seconds h
  | .laneTestStop link => hlmLaneTestStop who link h
  | .writeInstall settings => stoWriteInstall who settings h
  | .readInstall => stoReadInstall who prepared h
  | .lockInstall => stoLockInstall who h
  | .erasePrepare => stoErasePrepare who h
  | .eraseInstall => stoEraseInstall who prepared h
  | .saveNow => stoSaveNow h
  | .hubRestart => hubRestart who h
  | .linkRestart link => lnkLinkRestart who link h
  | .readNotices flush => pnlReadNotices who flush h
  | .unknown _ => answerTo who .unknown [] h
  | .malformed _ => answerTo who .range [] h

/-- The kind is one of the part's 32 request kinds (R159, check 1). -/
def knownKind (k : Byte) : Bool := decide (1 ≤ k.toNat ∧ k.toNat ≤ 0x20)

/-- REQ's checks of a request taken into execution, then its owner (R159). -/
def carryOut (who : Requester) (prepared : Bool) (c : Call) (h : Hub) : Hub :=
  if !knownKind c.kind then answerTo who .unknown [] h
  else if panelOnly c.kind && !decide (who = .panel) then answerTo who .denied [] h
  else handOver who prepared c h

/-- The erase-prepare mark at a PANEL request taken into execution (R184). -/
def clearPrepare (who : Requester) (c : Call) (h : Hub) : Hub :=
  if who = .panel ∧ c ≠ .erasePrepare then { h with sto := { h.sto with erasePrepared := false } } else h

/-- The head of a requester's queue taken into execution, where R159 allows. -/
def takeHead (who : Requester) (h : Hub) : Hub :=
  let q := h.req.queues.get who
  match q.items with
  | [] => h
  | e :: _ =>
    if !q.executing && h.slotEmpty who then
      carryOut who h.sto.erasePrepared e.call
        (clearPrepare who e.call (h.setQueue who { q with executing := true }))
    else h

/-! ## Arrivals (R157, R161, R162) -/

/-- HOLD of the requester's desk after an arrival. -/
def arrivalHold (who : Requester) (count : Nat) (h : Hub) : Hub :=
  match who.desk with
  | none => h
  | some d =>
    let p := h.req.desks.get d
    h.setDesk d { p with hold := holdAfterArrival p.hold count }

/-- A request arrives: it joins the queue, or is discarded where the queue holds 8. -/
def arrive (who : Requester) (e : QEntry) (h : Hub) : Hub :=
  let q := h.req.queues.get who
  if q.items.length < 8 then
    takeHead who
      (arrivalHold who (q.items.length + 1) (h.setQueue who { q with items := q.items ++ [e] }))
  else h.setQueue who { q with discarded := true }

/-- A desk's complete message: it arrives where its length and CRC hold (R156, R157). -/
def messageArrives (d : Desk) (bytes : List Byte) (h : Hub) : Hub :=
  if lengthOk bytes then
    match parseMessage bytes with
    | none => h
    | some e => arrive d.req e h
  else h

/-- REQUEST_ARRIVAL: a complete message of a desk whose link is UP. -/
def requestArrival (d : Desk) (bytes : List Byte) (h : Hub) : Hub :=
  if h.linkUp d then messageArrives d bytes h else h

/-- A request as one of the table's request rows gives it: it arrives whole at REQ, from a desk while its link is UP
(log entry 2). -/
def submit (who : Requester) (tag : Byte) (c : Call) (h : Hub) : Hub :=
  match who.desk with
  | none => arrive who ⟨tag, c⟩ h
  | some d => if h.linkUp d then arrive who ⟨tag, c⟩ h else h

/-! ## Deliveries (R160, R162, R173) -/

/-- The request leaves its queue. -/
def ReqQueue.pop (q : ReqQueue) : ReqQueue := { q with items := q.items.tail, executing := false }

/-- A desk's answer delivered: the slot is empty, the request leaves the queue, HOLD is looked at again, and the next
head is taken. -/
def deliverDesk (d : Desk) (h : Hub) : Hub :=
  let q := (h.req.queues.get d.req).pop
  let p := h.req.desks.get d
  takeHead d.req
    ((h.setQueue d.req q).setDesk d { p with answer := none, tx := none, hold := holdAfterDelivery p.hold q.items.length })

/-- ANSWER_DELIVERY: the last cell of the desk's answer has been sent. -/
def answerDelivery (d : Desk) (h : Hub) : Hub := if (h.req.desks.get d).answerSent then deliverDesk d h else h

/-- PANEL's answer delivered (R173). -/
def deliverPanel (h : Hub) : Hub :=
  let q := (h.req.queues.get .panel).pop
  takeHead .panel { h.setQueue .panel q with pnl := { h.pnl with answer := none } }

/-! ## The message assembler (R156) -/

/-- A START cell. -/
def asmStart (c : Cell) : Option Asm :=
  if 8 ≤ c.b1.toNat ∧ c.b1.toNat ≤ 64 then some ⟨c.b1.toNat, [c.b1, c.b2, c.b3]⟩ else none

/-- The assembler after a cell, and the message it completes; none is a lost cell. -/
def asmStep (a : Option Asm) (c : Option Cell) : Option Asm × Option (List Byte) :=
  match c with
  | none => (none, none)
  | some c =>
    if c.kind = 0x01#8 then (asmStart c, none)
    else if c.kind = 0x02#8 then
      match a with
      | none => (none, none)
      | some a =>
        let bytes := a.bytes ++ [c.b1, c.b2, c.b3]
        if a.length ≤ bytes.length then (none, some (bytes.take a.length)) else (some ⟨a.length, bytes⟩, none)
    else (none, none)

/-- REQ takes a cell that LNK hands it. -/
def takeCell (d : Desk) (c : Option Cell) (h : Hub) : Hub :=
  let p := h.req.desks.get d
  let r := asmStep p.asm c
  let h1 := h.setDesk d { p with asm := r.1 }
  match r.2 with
  | none => h1
  | some bytes => messageArrives d bytes h1

/-! ## Meanings of the message event rows -/

/-- REQUEST_ARRIVAL. -/
def execRequestArrival (d : Desk) (bytes : List Byte) (s : State) : Host.Outcome State Fault Refusal :=
  .next { s with hub := requestArrival d bytes s.hub }

/-- ANSWER_DELIVERY. -/
def execAnswerDelivery (d : Desk) (s : State) : Host.Outcome State Fault Refusal :=
  .next { s with hub := answerDelivery d s.hub }

end Sys2Proof.Machine
end

