-- ==== Sys2Proof/Machine/Panel.lean ====
section
/-!
DEFINITION. PNL, the Panel Port (chapter 9, R171 to R176): the start of a transaction and its four kinds of end.
-/

namespace Sys2Proof.Machine

/-! ## The start (R171) -/

/-- What the start of a transaction samples. -/
def Hub.sampleTxn (h : Hub) : Txn := ⟨h.statusByte, h.pnl.answer, h.pnl.notices.head?, true⟩

/-- TRANSACTION_START: the state is sampled and the status byte shifted out. One commanded while a transaction is open
does the same: the open one ends as a status poll does, with no effect, and its sample is dropped (log entry 20). -/
def transactionStart (h : Hub) : Hub :=
  { h with pnl := { h.pnl with txn := some h.sampleTxn, miso := [h.statusByte] } }

/-- The sample of the transaction that ends; a transaction whose start was not commanded starts and ends at once (log
entry 20). -/
def Hub.openTxn (h : Hub) : Txn := h.pnl.txn.getD h.sampleTxn

/-- The transaction ends, the bytes shifted out being its status byte and those given. -/
def closeTxn (t : Txn) (out : List Byte) (h : Hub) : Hub :=
  { h with pnl := { h.pnl with txn := none, miso := t.status :: out } }

/-- The first bytes of a message, then 00h. -/
def shiftOut (n : Nat) (bytes : List Byte) : List Byte := bytes.take n ++ List.replicate (n - bytes.length) 0#8

/-! ## The ends (R172 to R174) -/

/-- The message of a WRITE_REQUEST, where it is not rejected (R172). -/
def panelMessage (bytes : List Byte) : Option QEntry := if lengthOk bytes then parseMessage bytes else none

/-- The `rejected` bit set to a value. -/
def setRejected (b : Bool) (h : Hub) : Hub := { h with pnl := { h.pnl with rejected := b } }


/-- STATUS_POLL: the status byte is returned and nothing else changes. -/
def statusPoll (clocked : Nat) (h : Hub) : Hub := closeTxn h.openTxn (List.replicate clocked 0#8) h

/-- WRITE_REQUEST: the message is rejected, or handed whole to REQ. A transaction that ends after its first byte is a
status poll (R171). -/
def writeRequest (bytes : List Byte) (h : Hub) : Hub :=
  if bytes.isEmpty then statusPoll 0 h
  else
    let h1 := closeTxn h.openTxn (List.replicate bytes.length 0#8) h
    match panelMessage bytes with
    | none => setRejected true h1
    | some e => arrive .panel e (setRejected false h1)

/-- READ_ANSWER with a number of bytes clocked after the status byte: the answer is delivered when all its bytes were
shifted out. -/
def readAnswer (clocked : Nat) (h : Hub) : Hub :=
  let t := h.openTxn
  match t.answer with
  | none => closeTxn t (List.replicate clocked 0#8) h
  | some x =>
    let h1 := closeTxn t (shiftOut clocked x.bytes) h
    if x.bytes.length ≤ clocked then deliverPanel h1 else h1

/-- The oldest notice leaves the queue. -/
def Pnl.dropNotice (p : Pnl) : Pnl := { p with notices := p.notices.tail }

/-- READ_NOTICE with a number of bytes clocked after the status byte: the oldest notice leaves the queue when all its
bytes were shifted out, if it still stands there. -/
def readNotice (clocked : Nat) (h : Hub) : Hub :=
  let t := h.openTxn
  match t.notice with
  | none => closeTxn t (List.replicate clocked 0#8) h
  | some n =>
    let h1 := closeTxn t (shiftOut clocked n.bytes) h
    if decide (n.bytes.length ≤ clocked) && t.noticeStands then { h1 with pnl := h1.pnl.dropNotice } else h1

/-! ## Meanings of the panel rows -/

/-- TRANSACTION_START. -/
def execTransactionStart (s : State) : Host.Outcome State Fault Refusal := .next { s with hub := transactionStart s.hub }

/-- WRITE_REQUEST. -/
def execWriteRequest (bytes : List Byte) (s : State) : Host.Outcome State Fault Refusal :=
  .next { s with hub := writeRequest bytes s.hub }

/-- READ_ANSWER. -/
def execReadAnswer (clocked : Nat) (s : State) : Host.Outcome State Fault Refusal :=
  .next { s with hub := readAnswer clocked s.hub }

/-- READ_NOTICE. -/
def execReadNotice (clocked : Nat) (s : State) : Host.Outcome State Fault Refusal :=
  .next { s with hub := readNotice clocked s.hub }

/-- STATUS_POLL. -/
def execStatusPoll (clocked : Nat) (s : State) : Host.Outcome State Fault Refusal :=
  .next { s with hub := statusPoll clocked s.hub }

end Sys2Proof.Machine
end

