-- ==== Sys2Proof/Machine/Requests.lean ====
section
/-!
DEFINITION. The meanings of the 32 request rows: each arrives whole at REQ with its requester and tag (log entry 2), is
queued by R157 and taken into execution by R159, where its owner in Sys2Proof/Machine carries it out.
-/

namespace Sys2Proof.Machine

/-- The request of a WRITE_INSTALL row: a body of fewer than 44 bytes is too short (R159), further bytes are padding. -/
def writeInstallCall (settings : List Byte) : Call :=
  if settings.length < 44 then .malformed 0x18#8 else .writeInstall (settings.take 44)

/-- SET_INPUT. -/
def execSetInput (who : Requester) (tag : Byte) (ch : Nat) (gain pad hpf phantom : Option Nat) (s : State) :
    Host.Outcome State Fault Refusal :=
  .next { s with hub := submit who tag (.setInput ch gain pad hpf phantom) s.hub }

/-- READ_INPUT. -/
def execReadInput (who : Requester) (tag : Byte) (ch : Nat) (s : State) : Host.Outcome State Fault Refusal :=
  .next { s with hub := submit who tag (.readInput ch) s.hub }

/-- SET_GANG. -/
def execSetGang (who : Requester) (tag : Byte) (group : Nat) (members : List Nat) (s : State) :
    Host.Outcome State Fault Refusal :=
  .next { s with hub := submit who tag (.setGang group members) s.hub }

/-- READ_GANG. -/
def execReadGang (who : Requester) (tag : Byte) (group : Option Nat) (s : State) : Host.Outcome State Fault Refusal :=
  .next { s with hub := submit who tag (.readGang group) s.hub }

/-- SET_TRACKING. -/
def execSetTracking (who : Requester) (tag : Byte) (desk : Nat) (channels : BitSet 72) (value : Nat) (s : State) :
    Host.Outcome State Fault Refusal :=
  .next { s with hub := submit who tag (.setTracking desk channels value) s.hub }

/-- SET_TRIM. -/
def execSetTrim (who : Requester) (tag : Byte) (desk ch : Nat) (trim : Int) (s : State) :
    Host.Outcome State Fault Refusal :=
  .next { s with hub := submit who tag (.setTrim desk ch trim) s.hub }

/-- CLAIM. -/
def execClaim (who : Requester) (tag : Byte) (resources : List Nat) (level : Nat) (s : State) :
    Host.Outcome State Fault Refusal :=
  .next { s with hub := submit who tag (.claim resources level) s.hub }

/-- RELEASE. -/
def execRelease (who : Requester) (tag : Byte) (resources : List Nat) (s : State) : Host.Outcome State Fault Refusal :=
  .next { s with hub := submit who tag (.release resources) s.hub }

/-- OVERRIDE. -/
def execOverride (who : Requester) (tag : Byte) (resources : List Nat) (s : State) :
    Host.Outcome State Fault Refusal :=
  .next { s with hub := submit who tag (.override resources) s.hub }

/-- FREEZE. -/
def execFreeze (who : Requester) (tag : Byte) (s : State) : Host.Outcome State Fault Refusal :=
  .next { s with hub := submit who tag .freeze s.hub }

/-- READ_CLAIMS. -/
def execReadClaims (who : Requester) (tag : Byte) (resources : List Nat) (s : State) :
    Host.Outcome State Fault Refusal :=
  .next { s with hub := submit who tag (.readClaims resources) s.hub }

/-- SET_PATCH. -/
def execSetPatch (who : Requester) (tag : Byte) (out : Nat) (primary fallback : Option (Nat × Nat)) (failAction gap : Nat) (s : State) :
    Host.Outcome State Fault Refusal :=
  .next { s with hub := submit who tag (.setPatch out primary fallback failAction gap) s.hub }

/-- OUTPUT_ENABLE. -/
def execOutputEnable (who : Requester) (tag : Byte) (outputs : BitSet 32) (value : Nat) (s : State) :
    Host.Outcome State Fault Refusal :=
  .next { s with hub := submit who tag (.outputEnable outputs value) s.hub }

/-- READ_OUTPUT. -/
def execReadOutput (who : Requester) (tag : Byte) (out : Nat) (s : State) : Host.Outcome State Fault Refusal :=
  .next { s with hub := submit who tag (.readOutput out) s.hub }

/-- TALK_ON. -/
def execTalkOn (who : Requester) (tag : Byte) (destinations : BitSet 32) (duck : Nat) (s : State) :
    Host.Outcome State Fault Refusal :=
  .next { s with hub := submit who tag (.talkOn destinations duck) s.hub }

/-- TALK_OFF. -/
def execTalkOff (who : Requester) (tag : Byte) (s : State) : Host.Outcome State Fault Refusal :=
  .next { s with hub := submit who tag .talkOff s.hub }

/-- READ_TALK. -/
def execReadTalk (who : Requester) (tag : Byte) (s : State) : Host.Outcome State Fault Refusal :=
  .next { s with hub := submit who tag .readTalk s.hub }

/-- READ_LINK. -/
def execReadLink (who : Requester) (tag : Byte) (link : Nat) (s : State) : Host.Outcome State Fault Refusal :=
  .next { s with hub := submit who tag (.readLink link) s.hub }

/-- LANE_SWITCH. -/
def execLaneSwitch (who : Requester) (tag : Byte) (link : Nat) (s : State) : Host.Outcome State Fault Refusal :=
  .next { s with hub := submit who tag (.laneSwitch link) s.hub }

/-- LINK_RESTART. -/
def execLinkRestart (who : Requester) (tag : Byte) (link : Nat) (s : State) : Host.Outcome State Fault Refusal :=
  .next { s with hub := submit who tag (.linkRestart link) s.hub }

/-- READ_HEALTH. -/
def execReadHealth (who : Requester) (tag : Byte) (link : Nat) (s : State) : Host.Outcome State Fault Refusal :=
  .next { s with hub := submit who tag (.readHealth link) s.hub }

/-- CLEAR_HEALTH. -/
def execClearHealth (who : Requester) (tag : Byte) (lane : Nat) (s : State) : Host.Outcome State Fault Refusal :=
  .next { s with hub := submit who tag (.clearHealth lane) s.hub }

/-- LANE_TEST. -/
def execLaneTest (who : Requester) (tag : Byte) (lane seconds : Nat) (s : State) : Host.Outcome State Fault Refusal :=
  .next { s with hub := submit who tag (.laneTest lane seconds) s.hub }

/-- LANE_TEST_STOP. -/
def execLaneTestStop (who : Requester) (tag : Byte) (link : Nat) (s : State) : Host.Outcome State Fault Refusal :=
  .next { s with hub := submit who tag (.laneTestStop link) s.hub }

/-- READ_NOTICES. -/
def execReadNotices (who : Requester) (tag : Byte) (flush : Nat) (s : State) : Host.Outcome State Fault Refusal :=
  .next { s with hub := submit who tag (.readNotices flush) s.hub }

/-- HUB_RESTART. -/
def execHubRestart (who : Requester) (tag : Byte) (s : State) : Host.Outcome State Fault Refusal :=
  .next { s with hub := submit who tag .hubRestart s.hub }

/-- WRITE_INSTALL. -/
def execWriteInstall (who : Requester) (tag : Byte) (settings : List Byte) (s : State) :
    Host.Outcome State Fault Refusal :=
  .next { s with hub := submit who tag (writeInstallCall settings) s.hub }

/-- READ_INSTALL. -/
def execReadInstall (who : Requester) (tag : Byte) (s : State) : Host.Outcome State Fault Refusal :=
  .next { s with hub := submit who tag .readInstall s.hub }

/-- LOCK_INSTALL. -/
def execLockInstall (who : Requester) (tag : Byte) (s : State) : Host.Outcome State Fault Refusal :=
  .next { s with hub := submit who tag .lockInstall s.hub }

/-- ERASE_PREPARE. -/
def execErasePrepare (who : Requester) (tag : Byte) (s : State) : Host.Outcome State Fault Refusal :=
  .next { s with hub := submit who tag .erasePrepare s.hub }

/-- ERASE_INSTALL. -/
def execEraseInstall (who : Requester) (tag : Byte) (s : State) : Host.Outcome State Fault Refusal :=
  .next { s with hub := submit who tag .eraseInstall s.hub }

/-- SAVE_NOW. -/
def execSaveNow (who : Requester) (tag : Byte) (s : State) : Host.Outcome State Fault Refusal :=
  .next { s with hub := submit who tag .saveNow s.hub }

end Sys2Proof.Machine
end

