-- ==== Sys2Proof/Machine/Period.lean ====
section
/-!
DEFINITION. FRAME_PERIOD: the end of one frame period and the start of the next. The period that ends records its
missing frames, takes the steps due in it that no command took (log entry 4), takes upstream frames, delivers return
entries and forms output samples (R73 to R76, R128); the one that starts advances the counter, makes the fade and duck
steps, and builds the downstream frames (R65, R114, R127, R147, R153, R166).
-/

namespace Sys2Proof.Machine

/-! ## Missing frames and due steps (R69, log entry 4) -/

/-- Every lane without a frame in the period records it. -/
def missingFrames (h : Hub) : Hub := Desk.all.foldl (fun h d => recordLink d h) h

/-- The steps of a lane that are due, in this order: acquisition, loss of framing, qualification (log entry 4). -/
def sweepLane (h : Hub) (l : LaneId) : Hub := qualificationComplete l (frameLoss l (acquisitionComplete l h))

/-- The steps of the lanes and of the lane tests. -/
def sweepLanes (h : Hub) : Hub := Desk.all.foldl (fun h d => testComplete d h) (LaneId.all.foldl sweepLane h)

/-- The steps of the channels, in the model's order: every zero crossing, then every transfer timeout, charge expiry and
discharge expiry. R13 and R14 do not say which of two phantom timers of one period is first (log entry 4). -/
def sweepChannels (h : Hub) : Hub :=
  let all := List.finRange 72
  let h1 := all.foldl (fun h c => zeroCrossing c h) h
  let h2 := all.foldl (fun h c => transferTimeout c h) h1
  let h3 := all.foldl (fun h c => chargeExpiry c h) h2
  all.foldl (fun h c => dischargeExpiry c h) h3

/-- The timers of claims and links, in the model's order: windows, then the grace of desks A, B, C, then the holdovers.
R46 and R54 do not say whether a window or a grace of one period is first (log entry 4). -/
def sweepClaims (h : Hub) : Hub :=
  let h1 := Desk.all.foldl (fun h d => graceExpiry d h) (windowExpiry h)
  Desk.all.foldl (fun h d => holdoverExpiry d h) h1

/-- The fades, then the revert timers of the outputs, then the talk timeouts (log entry 4). -/
def sweepOutputs (h : Hub) : Hub :=
  let h1 := (List.finRange 32).foldl (fun h i => fadeComplete i h) h
  let h2 := (List.finRange 32).foldl (fun h i => revertExpiry i h) h1
  Desk.all.foldl (fun h d => talkTimeout d h) h2

/-- Every step that is due in the period, in the model's order: lanes, lane tests, channels, claims, links, outputs,
talk, the store, and last the deliveries of answers, desks A, B, C (log entry 4). -/
def sweep (h : Hub) : Hub :=
  Desk.all.foldl (fun h d => answerDelivery d h)
    (storeWriteFault (settleExpiry (sweepOutputs (sweepClaims (sweepChannels (sweepLanes h))))))

/-! ## Takes (R73, R74, R76) -/

/-- A lane's AUDIO frame of a number, if the alignment buffer holds it (R74; log entry 18). -/
def LaneRec.held (l : LaneRec) (n : Frame) : Option UpFrame :=
  l.buffer.find? fun f => decide (f.number = n) && !f.pattern

/-- The lane can rescue (R74). -/
def LaneRec.rescues (l : LaneRec) : Bool :=
  match l.state with
  | .qualifying => true
  | .ready => true
  | .dark => false
  | .acquiring => false
  | .active => false
  | .testing => false

/-- A 32-bit count that saturates. -/
def saturate32 (n : Nat) : Nat := min 4294967295 n

/-- Where a take's frame comes from. -/
inductive TakeSource where
  | own (f : UpFrame)
  | rescued (f : UpFrame)
  | repeated
  deriving DecidableEq, Repr

/-- The source of a take of the number n from a lane (R73). -/
def Link.source (k : Link) (side : Side) (mayRescue : Bool) (n : Frame) : TakeSource :=
  match (k.lane side).held n with
  | some f => .own f
  | none =>
    match (if mayRescue then (k.lane (Side.other side)).held n else none) with
    | some f => .rescued f
    | none => .repeated

/-- The frame used, or none at a repeat. -/
def TakeSource.frame : TakeSource → Option UpFrame
  | .own f => some f
  | .rescued f => some f
  | .repeated => none

/-- The return buffer entry of a frame. -/
def UpFrame.entry (f : UpFrame) : Entry := ⟨f.slots, f.talk⟩

/-- The return buffer after an entry is appended, and whether it slipped (R76). -/
def appendEntry (b : List Entry) (e : Entry) : List Entry × Bool :=
  if 16 ≤ (b ++ [e]).length then ((b ++ [e]).drop 8, true) else (b ++ [e], false)

/-- The link after a take of the number n from a source. -/
def Link.take (k : Link) (n : Frame) (x : TakeSource) : Link × Bool :=
  let e := match x.frame with
    | some f => f.entry
    | none => k.lastEntry.getD Entry.zero
  let b := appendEntry k.returnBuffer e
  ({ k with
      returnBuffer := b.1
      lastEntry := some e
      nextTake := some (n + 1#32)
      rescuedFrames := match x with
        | .rescued _ => saturate32 (k.rescuedFrames + 1)
        | .own _ => k.rescuedFrames
        | .repeated => k.rescuedFrames
      repeatedFrames := match x with
        | .repeated => saturate32 (k.repeatedFrames + 1)
        | .own _ => k.repeatedFrames
        | .rescued _ => k.repeatedFrames }, b.2)

/-- One take of a link from a lane: the entry is written, a slip handed to HLM, the control cell handed to REQ. R73, R76
and R154 do not order the last two: the model hands the slip, with what follows from it, first (log entry 45). -/
def takeOne (d : Desk) (side : Side) (mayRescue : Bool) (h : Hub) : Hub :=
  let k := h.links.get d
  match k.nextTake with
  | none => h
  | some n =>
    let x := k.source side mayRescue n
    let r := k.take n x
    let h1 := h.setLink d r.1
    takeCell d (x.frame.map UpFrame.cell) (if r.2 then countSlip d h1 else h1)

/-- A number of takes. -/
def takeMany (d : Desk) (side : Side) (mayRescue : Bool) : Nat → Hub → Hub
  | 0, h => h
  | n + 1, h => takeMany d side mayRescue n (takeOne d side mayRescue h)

/-- How many numbers stand from the next to take up to the number due (log entry 21). -/
def takeCount (next due : Frame) : Nat := if (due - next).toNat < 2147483648 then (due - next).toNat + 1 else 0

/-- Step 2 of a link in a period (R73): every number from the next to take up to the one due, while it is UP. In the
period in which the link enters UP there is none (R78, R84), unless it has moved to a lane that leads (R80). -/
def takeStep (h : Hub) (d : Desk) : Hub :=
  let k := h.links.get d
  match k.state, k.activeLane, k.nextTake with
  | .up, some side, some next =>
    match (k.lane side).latency with
    | none => h
    | some lat =>
      takeMany d side (k.lane (Side.other side)).rescues (takeCount next (h.now - lat)) h
  | _, _, _ => h

/-! ## Deliveries (R75, R76) -/

/-- The link after its oldest entry is delivered, and whether the buffer slipped. -/
def Link.deliver (k : Link) : Link × Bool :=
  match k.returnBuffer with
  | [] => (k, false)
  | [e] => ({ k with delivered := some e, returnBuffer := List.replicate 8 e }, true)
  | e :: e' :: es => ({ k with delivered := some e, returnBuffer := e' :: es }, false)

/-- Step 3 of a link in a period; none in the one in which it enters UP (log entry 7). -/
def deliverStep (h : Hub) (d : Desk) : Hub :=
  let k := h.links.get d
  if k.state = .up ∧ k.fresh = false then
    let r := k.deliver
    let h1 := h.setLink d r.1
    if r.2 then countSlip d h1 else h1
  else h

/-! ## Output samples (R128) -/

/-- The samples of the period, from the Output Table as it stands with the enables and talkers of the period's start
(log entry 8). -/
def outputSamples (h : Hub) : Hub :=
  let delivered := fun d => (h.links.get d).delivered
  { h with mon := { h.mon with port := Tbl.of fun i =>
      ((h.mon.output i).latched (Tbl.get h.mon.view i)).sample delivered } }

/-! ## The next period -/

/-- A lane at the start of a period. -/
def LaneRec.newPeriod (l : LaneRec) : LaneRec := { l with arrived := false, rx := none }

/-- A link at the start of a period. -/
def Link.newPeriod (k : Link) : Link :=
  { k with delivered := none, fresh := false, lanes := ⟨k.lanes.p.newPeriod, k.lanes.s.newPeriod⟩ }

/-- The Output Table at the start of a period: the fade and duck steps (R114, R127), enables and talkers latched. -/
def Mon.newPeriod (m : Mon) : Mon :=
  { m with
    outputs := Tbl.of fun i => (m.output i).fadeStep.duckStep
    view := Tbl.of fun i => (m.output i).latch }

/-- The counter advances, and every block starts the period; the ports deliver their samples. -/
def advance (ports : PortSamples) (h : Hub) : Hub :=
  { h with
    now := h.now + 1#32
    links := PerDesk.of fun d => (h.links.get d).newPeriod
    mon := h.mon.newPeriod
    pcu := { h.pcu with before := h.pcu.samples, samples := ports.inputs } }

/-- A sample with a trim in half decibels applied (R28). -/
def trimmed (trim : Int) (x : Sample) : Sample :=
  if trim = 0 then x else saturate24 (scaled (trim * (Config.duckPerDb / 2 : Nat)) x.toInt 1 0)

/-- The input slot of a channel in a desk's frame (R2, R28). -/
def inputSlot (p : Pcu) (d : Desk) (c : Chan) : Sample :=
  if (p.channel c).inTransition then 0#24 else trimmed (p.track d c).trim (Tbl.get p.samples c)

/-- A desk's downstream frame with a control cell, as the part stands (R65, R153). -/
def buildFrame (st1 st2 : Sample) (h : Hub) (d : Desk) (cell : Cell) : DownFrame where
  number := h.now
  hold := (h.req.desks.get d).hold
  gap := (h.req.desks.get d).noticeGap
  patternP := h.hlm.testRunningOn ⟨d, .p⟩
  patternS := h.hlm.testRunningOn ⟨d, .s⟩
  slots := Tbl.of fun c => inputSlot h.pcu d c
  stageTalk := stageSlot h st1 st2 d
  cell := cell

/-- A desk's downstream frame built and sent. -/
def sendFrame (st1 st2 : Sample) (h : Hub) (d : Desk) : Hub :=
  let c := (h.req.desks.get d).nextCell
  { h.setDesk d c.2 with down := h.down.set d (buildFrame st1 st2 h d c.1) }

/-- The downstream frames of the period. -/
def sendFrames (ports : PortSamples) (h : Hub) : Hub := Desk.all.foldl (sendFrame ports.st1 ports.st2) h

/-- What is left of the period that ends. Steps 2 and 3 of R73 are run by the links in the order A, B, C, which the spec
leaves open: a request completed by a cell of link A is carried out before one of link B (log entry 4). -/
def endPeriod (h : Hub) : Hub :=
  outputSamples (Desk.all.foldl deliverStep (Desk.all.foldl takeStep (sweep (missingFrames h))))

/-- FRAME_PERIOD. -/
def framePeriod (ports : PortSamples) (h : Hub) : Hub := sendFrames ports (advance ports (endPeriod h))

/-- FRAME_PERIOD. -/
def execFramePeriod (ports : PortSamples) (s : State) : Host.Outcome State Fault Refusal :=
  .next { s with hub := framePeriod ports s.hub }

end Sys2Proof.Machine
end

