-- ==== Sys2Proof/Machine/Power.lean ====
section
/-!
DEFINITION. POWER_ON_RESET (R179): the store's regions are read and checked, the blocks take their power-on state
(R24, R37, R62, R92, R110, R132, R151, R170, R174), STORE_STATE is sent for a bad region, a lane with light starts to
acquire, downstream frame 0 is sent. The only fields kept are the two regions, the count of completion signals and the
queue of commands (log entry 32).
-/

namespace Sys2Proof.Machine

/-- What a region gives: its contents where it passes its CRC, else the defaults (R179). -/
def Region.read {α : Type} (crc : α → BitVec 16) (r : Region α) (defaults : α) : α :=
  if r.passes crc then r.contents else defaults

/-- A region's status at power-on. -/
def Region.status {α : Type} (crc : α → BitVec 16) (r : Region α) : RegionStatus :=
  if r.passes crc then .good else .defaultsUsed

/-- The INSTALL image in force after power-on. -/
def Sto.readInstall (x : Sto) : InstallImage := x.installRegion.read InstallImage.crc ⟨Install.defaults, false⟩

/-- The SHOW settings restored at power-on. -/
def Sto.readShow (x : Sto) : ShowData := x.showRegion.read ShowData.crc ShowData.defaults

/-- STO at power-on; the settle timer runs where PCU reported a change of SHOW data (R179). -/
def Sto.powerOn (x : Sto) (report : Bool) : Sto where
  install := x.readInstall.settings
  lock := x.readInstall.lock
  installRegion := x.installRegion
  showRegion := x.showRegion
  installStatus := x.installRegion.status InstallImage.crc
  showStatus := x.showRegion.status ShowData.crc
  settle := if report then some (later 0#32 Config.settleFrames) else none
  writeList := []
  running := none
  awaited := 0
  signals := x.signals
  erasePrepared := false

/-- PNL at power-on, before STORE_STATE is sent (R172 to R175; log entry 32). -/
def Pnl.powerOn : Pnl where
  answer := none
  notices := []
  gapOwed := true
  discardCount := 0
  rejected := false
  txn := none
  miso := []

/-- Every block at power-on, before the notices and the light. -/
def Hub.restored (h : Hub) (pins : Pins) (ports : PortSamples) : Hub :=
  let image := h.sto.readInstall
  let shown := h.sto.readShow
  let p := Pcu.powerOn shown image.settings.phantomRestore ports.inputs
  { now := 0#32
    pcu := p.1
    arb := Arb.powerOn
    links := PerDesk.of fun _ => Link.reset
    hlm := Hlm.powerOn
    mon := Mon.powerOn shown image.settings pins.safe
    tbk := Tbk.powerOn pins.tb1 pins.tb2
    req := Req.powerOn
    pnl := Pnl.powerOn
    sto := h.sto.powerOn p.2
    down := h.down }

/-- STORE_STATE for a region found bad (R178). -/
def tellBadRegion (r : RegionName) (h : Hub) : Hub :=
  if h.sto.status r = .good then h else notifyAll (.storeState r (h.sto.status r) .powerOn) h

/-- The light-appears event of the lanes that report light (R92), each an event of its own, in the model's order A-P, A-S,
B-P, B-S, C-P, C-S (log entry 44). -/
def lightAtPowerOn (pins : Pins) (h : Hub) : Hub :=
  LaneId.all.foldl (fun h l => if laneGet pins.light l then lightAppears l h else h) h

/-- POWER_ON_RESET. -/
def powerOnReset (pins : Pins) (ports : PortSamples) (h : Hub) : Hub :=
  sendFrames ports
    (lightAtPowerOn pins (tellBadRegion .showData (tellBadRegion .install (h.restored pins ports))))

/-- POWER_ON_RESET. -/
def execPowerOnReset (pins : Pins) (ports : PortSamples) (s : State) : Host.Outcome State Fault Refusal :=
  .next { s with hub := powerOnReset pins ports s.hub }

end Sys2Proof.Machine
end

