-- ==== Sys2Proof/Machine/Dispatch.lean ====
section
/-!
DEFINITION. The meaning of every command: one arm per constructor of Instr.
-/

namespace Sys2Proof.Machine

def exec (i : Instr) (s : State) : Host.Outcome State Fault Refusal :=
  match i with
  | .powerOnReset pins ports => Sys2Proof.Machine.execPowerOnReset pins ports s
  | .framePeriod ports => Sys2Proof.Machine.execFramePeriod ports s
  | .upstreamFrame lane bytes => Sys2Proof.Machine.execUpstreamFrame lane bytes s
  | .acquisitionComplete lane => Sys2Proof.Machine.execAcquisitionComplete lane s
  | .qualificationComplete lane => Sys2Proof.Machine.execQualificationComplete lane s
  | .frameLoss lane => Sys2Proof.Machine.execFrameLoss lane s
  | .lightAppears lane => Sys2Proof.Machine.execLightAppears lane s
  | .lightLoss lane => Sys2Proof.Machine.execLightLoss lane s
  | .holdoverExpiry link => Sys2Proof.Machine.execHoldoverExpiry link s
  | .testComplete link => Sys2Proof.Machine.execTestComplete link s
  | .zeroCrossing ch => Sys2Proof.Machine.execZeroCrossing ch s
  | .transferTimeout ch => Sys2Proof.Machine.execTransferTimeout ch s
  | .chargeExpiry ch => Sys2Proof.Machine.execChargeExpiry ch s
  | .dischargeExpiry ch => Sys2Proof.Machine.execDischargeExpiry ch s
  | .setInput who tag ch gain pad hpf phantom => Sys2Proof.Machine.execSetInput who tag ch gain pad hpf phantom s
  | .readInput who tag ch => Sys2Proof.Machine.execReadInput who tag ch s
  | .setGang who tag group members => Sys2Proof.Machine.execSetGang who tag group members s
  | .readGang who tag group => Sys2Proof.Machine.execReadGang who tag group s
  | .setTracking who tag desk channels value => Sys2Proof.Machine.execSetTracking who tag desk channels value s
  | .setTrim who tag desk ch trim => Sys2Proof.Machine.execSetTrim who tag desk ch trim s
  | .claim who tag resources level => Sys2Proof.Machine.execClaim who tag resources level s
  | .release who tag resources => Sys2Proof.Machine.execRelease who tag resources s
  | .override who tag resources => Sys2Proof.Machine.execOverride who tag resources s
  | .freeze who tag => Sys2Proof.Machine.execFreeze who tag s
  | .readClaims who tag resources => Sys2Proof.Machine.execReadClaims who tag resources s
  | .windowExpiry => Sys2Proof.Machine.execWindowExpiry s
  | .graceExpiry desk => Sys2Proof.Machine.execGraceExpiry desk s
  | .setPatch who tag out primary fallback failAction gap => Sys2Proof.Machine.execSetPatch who tag out primary fallback failAction gap s
  | .outputEnable who tag outputs value => Sys2Proof.Machine.execOutputEnable who tag outputs value s
  | .readOutput who tag out => Sys2Proof.Machine.execReadOutput who tag out s
  | .fadeComplete out => Sys2Proof.Machine.execFadeComplete out s
  | .revertExpiry out => Sys2Proof.Machine.execRevertExpiry out s
  | .safeAsserted => Sys2Proof.Machine.execSafeAsserted s
  | .safeReleased => Sys2Proof.Machine.execSafeReleased s
  | .talkOn who tag destinations duck => Sys2Proof.Machine.execTalkOn who tag destinations duck s
  | .talkOff who tag => Sys2Proof.Machine.execTalkOff who tag s
  | .readTalk who tag => Sys2Proof.Machine.execReadTalk who tag s
  | .talkTimeout desk => Sys2Proof.Machine.execTalkTimeout desk s
  | .stageTalkPress input => Sys2Proof.Machine.execStageTalkPress input s
  | .stageTalkRelease input => Sys2Proof.Machine.execStageTalkRelease input s
  | .readLink who tag link => Sys2Proof.Machine.execReadLink who tag link s
  | .laneSwitch who tag link => Sys2Proof.Machine.execLaneSwitch who tag link s
  | .linkRestart who tag link => Sys2Proof.Machine.execLinkRestart who tag link s
  | .readHealth who tag link => Sys2Proof.Machine.execReadHealth who tag link s
  | .clearHealth who tag lane => Sys2Proof.Machine.execClearHealth who tag lane s
  | .laneTest who tag lane seconds => Sys2Proof.Machine.execLaneTest who tag lane seconds s
  | .laneTestStop who tag link => Sys2Proof.Machine.execLaneTestStop who tag link s
  | .requestArrival desk bytes => Sys2Proof.Machine.execRequestArrival desk bytes s
  | .answerDelivery desk => Sys2Proof.Machine.execAnswerDelivery desk s
  | .writeRequest bytes => Sys2Proof.Machine.execWriteRequest bytes s
  | .readAnswer clocked => Sys2Proof.Machine.execReadAnswer clocked s
  | .readNotice clocked => Sys2Proof.Machine.execReadNotice clocked s
  | .statusPoll clocked => Sys2Proof.Machine.execStatusPoll clocked s
  | .readNotices who tag flush => Sys2Proof.Machine.execReadNotices who tag flush s
  | .hubRestart who tag => Sys2Proof.Machine.execHubRestart who tag s
  | .writeInstall who tag settings => Sys2Proof.Machine.execWriteInstall who tag settings s
  | .readInstall who tag => Sys2Proof.Machine.execReadInstall who tag s
  | .lockInstall who tag => Sys2Proof.Machine.execLockInstall who tag s
  | .erasePrepare who tag => Sys2Proof.Machine.execErasePrepare who tag s
  | .eraseInstall who tag => Sys2Proof.Machine.execEraseInstall who tag s
  | .saveNow who tag => Sys2Proof.Machine.execSaveNow who tag s
  | .settleExpiry => Sys2Proof.Machine.execSettleExpiry s
  | .storeWriteComplete => Sys2Proof.Machine.execStoreWriteComplete s
  | .storeWriteFault => Sys2Proof.Machine.execStoreWriteFault s
  | .transactionStart => Sys2Proof.Machine.execTransactionStart s

end Sys2Proof.Machine
end

