-- ==== Sys2Proof/WellFormed.lean ====
section
/-!
DEFINITION. Which commands can be sent: every operand fits the bytes that Table 8-5 gives it, a frame has the 110 bytes
of Table 8-2, and an install set the 44 bytes of Table 9-3. The machine is total on ill-formed commands too.
-/

namespace Sys2Proof

/-- A value that fits one byte. -/
def fitsByte (n : Nat) : Bool := decide (n < 256)

/-- An optional value that fits one byte. -/
def optFits : Option Nat → Bool
  | none => true
  | some n => fitsByte n

/-- A list whose count byte and items fit one byte each. -/
def listFits (l : List Nat) : Bool := fitsByte l.length && l.all fitsByte

/-- An optional source of two bytes: link and return slot. -/
def sourceFits : Option (Nat × Nat) → Bool
  | none => true
  | some (l, k) => fitsByte l && fitsByte k

/-- The operands of a command fit their encodings (Tables 8-2, 8-5 and 9-3). -/
def Instr.wf : Instr → Bool
  | .powerOnReset _ _ => true
  | .framePeriod _ => true
  | .upstreamFrame _ bytes => decide (bytes.length = 110)
  | .acquisitionComplete _ => true
  | .qualificationComplete _ => true
  | .frameLoss _ => true
  | .lightAppears _ => true
  | .lightLoss _ => true
  | .holdoverExpiry _ => true
  | .testComplete _ => true
  | .zeroCrossing _ => true
  | .transferTimeout _ => true
  | .chargeExpiry _ => true
  | .dischargeExpiry _ => true
  | .setInput _ _ ch gain pad hpf phantom =>
      fitsByte ch && optFits gain && optFits pad && optFits hpf && optFits phantom
  | .readInput _ _ ch => fitsByte ch
  | .setGang _ _ group members => fitsByte group && listFits members
  | .readGang _ _ group => optFits group
  | .setTracking _ _ desk _ value => fitsByte desk && fitsByte value
  | .setTrim _ _ desk ch trim => fitsByte desk && fitsByte ch && decide (-128 ≤ trim ∧ trim ≤ 127)
  | .claim _ _ resources level => listFits resources && fitsByte level
  | .release _ _ resources => listFits resources
  | .override _ _ resources => listFits resources
  | .freeze _ _ => true
  | .readClaims _ _ resources => listFits resources
  | .windowExpiry => true
  | .graceExpiry _ => true
  | .setPatch _ _ out primary fallback failAction gap =>
      fitsByte out && sourceFits primary && sourceFits fallback && fitsByte failAction && fitsByte gap
  | .outputEnable _ _ _ value => fitsByte value
  | .readOutput _ _ out => fitsByte out
  | .fadeComplete _ => true
  | .revertExpiry _ => true
  | .safeAsserted => true
  | .safeReleased => true
  | .talkOn _ _ _ duck => fitsByte duck
  | .talkOff _ _ => true
  | .readTalk _ _ => true
  | .talkTimeout _ => true
  | .stageTalkPress _ => true
  | .stageTalkRelease _ => true
  | .readLink _ _ link => fitsByte link
  | .laneSwitch _ _ link => fitsByte link
  | .linkRestart _ _ link => fitsByte link
  | .readHealth _ _ link => fitsByte link
  | .clearHealth _ _ lane => fitsByte lane
  | .laneTest _ _ lane seconds => fitsByte lane && decide (seconds < 65536)
  | .laneTestStop _ _ link => fitsByte link
  | .requestArrival _ bytes => decide (8 ≤ bytes.length ∧ bytes.length ≤ 64)
  | .answerDelivery _ => true
  | .writeRequest _ => true
  | .readAnswer _ => true
  | .readNotice _ => true
  | .statusPoll _ => true
  | .readNotices _ _ flush => fitsByte flush
  | .hubRestart _ _ => true
  | .writeInstall _ _ settings => decide (settings.length = 44)
  | .readInstall _ _ => true
  | .lockInstall _ _ => true
  | .erasePrepare _ _ => true
  | .eraseInstall _ _ => true
  | .saveNow _ _ => true
  | .settleExpiry => true
  | .storeWriteComplete => true
  | .storeWriteFault => true
  | .transactionStart => true

end Sys2Proof
end

