-- ==== Sys2Proof/Machine/Encode.lean ====
section
/-!
DEFINITION. The message of a request, written from Tables 8-4, 8-5 and 8-7 as the desk or the panel builds it. The part
reads requests and never writes them, so this is the counterpart that its reading is held against.
-/

namespace Sys2Proof.Machine

/-- An optional source: mark, link, slot. -/
def encSourceField : Option (Nat × Nat) → List Byte := encOpt fun p : Nat × Nat => enc8 p.1 ++ enc8 p.2

/-- The body of a request, its fields in the order its rule lists them. -/
def Call.body : Call → List Byte
  | .setInput ch gain pad hpf phantom =>
      enc8 ch ++ encOpt enc8 gain ++ encOpt enc8 pad ++ encOpt enc8 hpf ++ encOpt enc8 phantom
  | .readInput ch => enc8 ch
  | .setGang group members => enc8 group ++ encList enc8 members
  | .readGang group => encOpt enc8 group
  | .setTracking desk channels value => enc8 desk ++ encSet channels ++ enc8 value
  | .setTrim desk ch trim => enc8 desk ++ enc8 ch ++ encInt8 trim
  | .claim resources level => encList enc8 resources ++ enc8 level
  | .release resources => encList enc8 resources
  | .override resources => encList enc8 resources
  | .freeze => []
  | .readClaims resources => encList enc8 resources
  | .setPatch out primary fallback failAction gap =>
      enc8 out ++ encSourceField primary ++ encSourceField fallback ++ enc8 failAction ++ enc8 gap
  | .outputEnable outputs value => encSet outputs ++ enc8 value
  | .readOutput out => enc8 out
  | .talkOn destinations duck => encSet destinations ++ enc8 duck
  | .talkOff => []
  | .readTalk => []
  | .readLink link => enc8 link
  | .readHealth link => enc8 link
  | .clearHealth lane => enc8 lane
  | .laneSwitch link => enc8 link
  | .laneTest lane seconds => enc8 lane ++ enc16 seconds
  | .laneTestStop link => enc8 link
  | .writeInstall settings => settings
  | .readInstall => []
  | .lockInstall => []
  | .erasePrepare => []
  | .eraseInstall => []
  | .saveNow => []
  | .hubRestart => []
  | .linkRestart link => enc8 link
  | .readNotices flush => enc8 flush
  | .unknown _ => []
  | .malformed _ => []

/-- The message of a request with a tag, its flags 0. -/
def requestMessage (tag : Byte) (c : Call) : List Byte := messageBytes c.kind tag 0#8 c.body

/-- A request whose fields fit the bytes of Table 8-5, of one of the 32 kinds. -/
def Call.wf : Call → Bool
  | .setInput ch gain pad hpf phantom => fitsByte ch && optFits gain && optFits pad && optFits hpf && optFits phantom
  | .readInput ch => fitsByte ch
  | .setGang group members => fitsByte group && listFits members
  | .readGang group => optFits group
  | .setTracking desk _ value => fitsByte desk && fitsByte value
  | .setTrim desk ch trim => fitsByte desk && fitsByte ch && decide (-128 ≤ trim ∧ trim ≤ 127)
  | .claim resources level => listFits resources && fitsByte level
  | .release resources => listFits resources
  | .override resources => listFits resources
  | .freeze => true
  | .readClaims resources => listFits resources
  | .setPatch out primary fallback failAction gap =>
      fitsByte out && sourceFits primary && sourceFits fallback && fitsByte failAction && fitsByte gap
  | .outputEnable _ value => fitsByte value
  | .readOutput out => fitsByte out
  | .talkOn _ duck => fitsByte duck
  | .talkOff => true
  | .readTalk => true
  | .readLink link => fitsByte link
  | .readHealth link => fitsByte link
  | .clearHealth lane => fitsByte lane
  | .laneSwitch link => fitsByte link
  | .laneTest lane seconds => fitsByte lane && decide (seconds < 65536)
  | .laneTestStop link => fitsByte link
  | .writeInstall settings => decide (settings.length = 44)
  | .readInstall => true
  | .lockInstall => true
  | .erasePrepare => true
  | .eraseInstall => true
  | .saveNow => true
  | .hubRestart => true
  | .linkRestart link => fitsByte link
  | .readNotices flush => fitsByte flush
  | .unknown _ => false
  | .malformed _ => false

/-- The message of a request fits 64 bytes. -/
def Call.fits (c : Call) : Bool := c.wf && decide (c.body.length ≤ 58)

end Sys2Proof.Machine
end

