-- ==== Sys2Proof/Safety.lean ====
section
/-!
DEFINITION. What the statements speak of: the conditions under which a request is carried out at once, the part with a
request taken and with an answer placed, and the invariants of the records.
-/

namespace Sys2Proof.Machine

/-! ## A request carried out at once (R157, R159) -/

/-- A requester with an empty queue and no undelivered answer, on an UP link if it is a desk. -/
abbrev Free (who : Requester) (h : Hub) : Prop :=
  (h.req.queues.get who).items = [] ∧ (h.req.queues.get who).executing = false ∧ h.slotEmpty who = true ∧
    (∀ d, who.desk = some d → h.linkUp d = true)

/-- The part with the requester's request alone in its queue and in execution; a PANEL request other than ERASE_PREPARE
has cleared the erase-prepare mark (R158, R184). -/
def Hub.taken (h : Hub) (who : Requester) (tag : Byte) (c : Call) : Hub :=
  { h with
    req := { h.req with queues := h.req.queues.set who ⟨[⟨tag, c⟩], true, (h.req.queues.get who).discarded⟩ }
    sto := if who = .panel ∧ c ≠ .erasePrepare then { h.sto with erasePrepared := false } else h.sto }

/-- The machine with another part, its queue of commands as it stands. -/
abbrev State.withHub (s : State) (h : Hub) : State := { s with hub := h }

/-- The part after a request that was taken and answered, and did nothing else. -/
def Hub.answered (h : Hub) (who : Requester) (tag : Byte) (c : Call) (code : Code) (body : List Byte) : Hub :=
  answerTo who code body (h.taken who tag c)

/-- The requester's answer, where it waits: a desk's in its answer slot, PANEL's in PNL (R163, R173). -/
def Hub.answerOf (h : Hub) (who : Requester) : Option Answer :=
  match who.desk with
  | none => h.pnl.answer
  | some d => (h.req.desks.get d).answer.map SlotAnswer.answer

/-- The notices that wait, and the marks of those that were lost, are those of another part. -/
abbrev Hub.NoticesOf (h k : Hub) : Prop :=
  (∀ d : Desk, (h.req.desks.get d).notices = (k.req.desks.get d).notices ∧
    (h.req.desks.get d).gapOwed = (k.req.desks.get d).gapOwed) ∧
  h.pnl.notices = k.pnl.notices ∧ h.pnl.gapOwed = k.pnl.gapOwed ∧ h.pnl.discardCount = k.pnl.discardCount

/-- A requester's pending claim after an event that leaves it as `pc`, the part having been `h` before: it waits on
while an outcome is open; with every outcome decided it is removed and the CLAIM in execution is answered DONE with the
outcomes in the order named, behind the notices that a desk holds in `told` (R46). -/
def Hub.ClaimAnswered (t h told : Hub) (who : Requester) (pc : PendingClaim) : Prop :=
  let q := h.req.queues.get who
  ((∃ e ∈ pc, e.2 = none) → t.arb.pendingClaims.get who = some pc ∧ t.answerOf who = h.answerOf who ∧
    t.req.queues.get who = q) ∧
  ((∀ e ∈ pc, e.2 ≠ none) → t.arb.pendingClaims.get who = none ∧
    ∀ e es, q.items = e :: es → q.executing = true →
      t.answerOf who =
        some ⟨e.call.kind, e.tag, q.discarded, .done, outcomeBody (pc.map fun x => x.2.getD .done)⟩ ∧
      t.req.queues.get who = { q with discarded := false } ∧
      ∀ d : Desk, who = d.req → (t.req.desks.get d).answer.map SlotAnswer.ahead =
        some (told.req.desks.get d).notices.length)

/-! ## A transfer (R9, R19, R30) -/

/-- A channel's record with nothing staged and these gain and pad applied. -/
def Channel.settled (x : Channel) (gain : Nat) (pad : Bool) : Channel :=
  { x with gain := gain, pad := pad, stagedGain := none, stagedPad := none, stagedBy := none, transferDeadline := none }

/-- The transfer of channels in one event that leaves the channels as `y`: the three tracking entries of each follow,
crediting its requester; the notices named first go out, then TRACK_LIMIT to each desk whose mark changed, then
INPUT_CHANGED, in list order; SHOW data is reported. -/
def Hub.transferred (h : Hub) (ms : List Chan) (credited : Chan → Requester) (y : Chan → Channel)
    (first : List Notice) : Hub :=
  let entry : Desk → Chan → Track := fun d m => (h.pcu.track d m).transfer (y m).effectiveGain
    ((y m).effectiveGain - (h.pcu.channel m).effectiveGain) (decide (credited m = d.req))
  let limits := ms.flatMap fun m =>
    (Desk.all.filter fun d => !decide ((h.pcu.track d m).limitMark = (entry d m).limitMark)).map fun d =>
      (d, Notice.trackLimit m (entry d m).limitMark (entry d m).trim (entry d m).reference (y m).effectiveGain)
  let changed := ms.map fun m =>
    Notice.inputChanged m (y m).gain (y m).pad (y m).hpf (y m).phantomTarget (credited m)
  showReport (notifyEach changed (notifyLimits limits (notifyEach first { h with pcu := { h.pcu with
    channels := Tbl.of y
    tracking := PerDesk.of fun d => Tbl.of fun m => if m ∈ ms then entry d m else h.pcu.track d m } })))

/-- The channels that transfer with a channel: itself where it is in no gang, else the list of its gang (R19). -/
abbrev Pcu.MovesWith (p : Pcu) (c : Chan) (ms : List Chan) : Prop :=
  ((p.channel c).gang = none ∧ ms = [c]) ∨
    ∃ g, (p.channel c).gang = some g ∧ Tbl.get p.gangs g = some ms ∧ c ∈ ms ∧ ms.Nodup

/-- Everything but REQ and PNL, and the time. -/
structure Core where
  now : Frame
  pcu : Pcu
  arb : Arb
  links : PerDesk Link
  hlm : Hlm
  mon : Mon
  tbk : Tbk
  sto : Sto
  down : PerDesk DownFrame
  deriving DecidableEq, Repr

/-- The part without what REQ and PNL hold. -/
def Hub.core (h : Hub) : Core := ⟨h.now, h.pcu, h.arb, h.links, h.hlm, h.mon, h.tbk, h.sto, h.down⟩

/-! ## Capacities (R39, R43, R69, R75, R77, R94, R101, R156, R158, R164, R174, R181; Tables 3-2, 4-1, 4-4, 5-3) -/

/-- The counters of a lane's health do not pass 65535. -/
abbrev Health.Bounded (x : Health) : Prop :=
  x.counters.crcErrors ≤ 65535 ∧ x.counters.frameLosses ≤ 65535 ∧ x.counters.lightLosses ≤ 65535 ∧
    x.counters.slips ≤ 65535 ∧ x.counters.testErrors ≤ 65535

/-- A message assembler holds fewer bytes than its length of at most 64 (R156). -/
abbrev Asm.Bounded (a : Asm) : Prop := a.bytes.length < a.length ∧ a.length ≤ 64

/-- The number of a buffered frame stands this far behind the number due on its lane. -/
def LaneRec.age (now latency : Frame) (f : UpFrame) : Nat := (now - latency - f.number).toNat

/-- A lane's run counts are within Table 4-1, and its alignment buffer holds at most one frame for each of the 32 most
recent numbers due, none out of sync (R69); the number due in this period is among them once its result is recorded. -/
def LaneRec.Bounded (now : Frame) (l : LaneRec) : Prop :=
  l.acquireRun ≤ 4 ∧ l.badRun ≤ 8 ∧ l.buffer.length ≤ 32 ∧ (l.buffer.map UpFrame.number).Nodup ∧
  (l.rx.isSome = true → l.arrived = true) ∧
  (l.latency = none → l.buffer = []) ∧
  (∀ lat, l.latency = some lat → ∀ f ∈ l.buffer,
    if l.arrived then LaneRec.age now lat f < 32 else 1 ≤ LaneRec.age now lat f ∧ LaneRec.age now lat f ≤ 32)

/-- A return buffer of at most 16 entries (R75); rescue and repeat counts of 32 bits (R77). -/
abbrev Link.Bounded (k : Link) : Prop :=
  k.returnBuffer.length ≤ 16 ∧ k.rescuedFrames ≤ 4294967295 ∧ k.repeatedFrames ≤ 4294967295

/-- A claim record has at most one contender entry a requester (R44), a pending claim at most 16 resources (R43). -/
abbrev Arb.Bounded (x : Arb) : Prop :=
  (∀ r : Res, ((x.claim r).contenders.map Prod.fst).Nodup) ∧
  (∀ who : Requester, ∀ pc, x.pendingClaims.get who = some pc → pc.length ≤ 16)

/-- Every queue, buffer and list within its capacity, every count within its range; `qualify_count` alone is not held
here, since a shorter qualify length may come into force while it stands. -/
abbrev Hub.Bounded (h : Hub) : Prop :=
  (∀ r : Requester, (h.req.queues.get r).items.length ≤ 8) ∧
  (∀ d : Desk, (h.req.desks.get d).notices.length ≤ 8) ∧
  (∀ d : Desk, ∀ a, (h.req.desks.get d).asm = some a → a.Bounded) ∧
  h.pnl.notices.length ≤ 16 ∧ h.pnl.discardCount ≤ 255 ∧
  (∀ l : LaneId, (laneGet h.hlm.health l).Bounded) ∧
  (∀ d : Desk, ∀ t, h.hlm.tests.get d = some t → t.patternErrors ≤ 4294967295) ∧
  (∀ d : Desk, (h.links.get d).Bounded) ∧
  (∀ l : LaneId, (h.lane l).Bounded h.now) ∧
  h.arb.Bounded ∧
  (h.sto.writeList.map WriteEntry.region).Nodup

/-! ## Lanes and links (R66, R77) -/

/-- A lane record's fields agree with its state (R66, Table 4-1). -/
abbrev LaneRec.Ok (l : LaneRec) : Prop :=
  (l.latency.isSome = true ↔
      l.state = .qualifying ∨ l.state = .ready ∨ l.state = .active ∨ l.state = .testing) ∧
  ((l.state = .ready ∨ l.state = .testing) → l.qualified = true) ∧
  ((l.state = .dark ∨ l.state = .acquiring ∨ l.state = .qualifying) → l.qualified = false)

/-- A link record's fields agree with its state and its lanes (R77, Table 4-4). -/
abbrev Link.Ok (k : Link) : Prop :=
  (k.state = .up ↔ k.activeLane.isSome = true) ∧
  (∀ side : Side, k.activeLane = some side ↔ (k.lane side).state = .active) ∧
  (k.provisional = true ↔ ∃ side : Side, k.activeLane = some side ∧ (k.lane side).qualified = false) ∧
  (k.holdoverDeadline.isSome = true ↔ k.state = .holdover) ∧
  (k.nextTake.isSome = true ↔ k.state = .up) ∧
  (∀ side : Side, (k.lane side).Ok)

/-! ## Claims (R39, Table 3-2; R53, R55, R57) -/

/-- A claim record's fields agree with its state and with the show freeze and the link of an orphan's holder. -/
def Claim.Ok (h : Hub) : Claim → Prop
  | .opened => True
  | .contended _ cs => cs ≠ [] ∧ h.arb.frozen = false
  | .held _ _ => True
  | .orphaned d _ t => h.linkUp d = false ∧ (t.isSome = true ↔ h.arb.frozen = false)

/-- Every claim record agrees. -/
abbrev Hub.ClaimsOk (h : Hub) : Prop := ∀ r : Res, (h.arb.claim r).Ok h

/-! ## Phantom (R10, R12) -/

/-- At most 8 channels are CHARGING, and the Phantom Queue lists the QUEUED channels once each. -/
abbrev Hub.PhantomOk (h : Hub) : Prop :=
  h.pcu.charging ≤ 8 ∧ h.pcu.phantomQueue.Nodup ∧
    ∀ c : Chan, c ∈ h.pcu.phantomQueue ↔ (h.pcu.channel c).phantomState = .queued

/-! ## Gangs and staged values (R1, R16, R18, R19) -/

/-- Lists of 2 to 8 distinct channels, no channel in two of them (R16). -/
def gangsOk (gangs : Vector (Option (List Chan)) 12) : Prop :=
  (∀ g : Grp, ∀ ms, Tbl.get gangs g = some ms → 2 ≤ ms.length ∧ ms.length ≤ 8 ∧ ms.Nodup) ∧
  (∀ g k : Grp, ∀ ms ns, Tbl.get gangs g = some ms → Tbl.get gangs k = some ns → ∀ c ∈ ms, c ∈ ns → g = k)

/-- The Gang Table is well formed and the gang fields follow it; a requester and a deadline stand with staged values
exactly, and the members of a gang are staged together, by one requester, to one deadline. -/
def Hub.GangsOk (h : Hub) : Prop :=
  gangsOk h.pcu.gangs ∧
  (∀ c : Chan, ∀ g : Grp, (h.pcu.channel c).gang = some g ↔ ∃ ms, Tbl.get h.pcu.gangs g = some ms ∧ c ∈ ms) ∧
  (∀ c : Chan, (h.pcu.channel c).stagedBy.isSome = (h.pcu.channel c).isStaged ∧
    (h.pcu.channel c).transferDeadline.isSome = (h.pcu.channel c).isStaged) ∧
  (∀ g : Grp, ∀ ms, Tbl.get h.pcu.gangs g = some ms → ∀ c ∈ ms, ∀ e ∈ ms,
    (h.pcu.channel c).stagedBy = (h.pcu.channel e).stagedBy ∧
    (h.pcu.channel c).transferDeadline = (h.pcu.channel e).transferDeadline)

/-! ## Tracking entries (R26, R27) -/

/-- A tracking entry beside its channel's effective gain: a reference exactly while tracking is ON; the trim derived
from it, within its range, and the mark set exactly where the derivation was limited. -/
def Track.Ok (eff : Int) (t : Track) : Prop :=
  (t.reference.isSome = true ↔ t.tracking = true) ∧ -48 ≤ t.trim ∧ t.trim ≤ 48 ∧
  (t.tracking = false → t.limitMark = false) ∧
  (∀ r, t.reference = some r → t.trim = max (-48) (min 48 (r - eff)) ∧
    (t.limitMark = true ↔ r - eff < -48 ∨ 48 < r - eff))

/-- Every tracking entry agrees with its channel. -/
def Hub.TracksOk (h : Hub) : Prop :=
  ∀ d : Desk, ∀ c : Chan, (h.pcu.track d c).Ok (h.pcu.channel c).effectiveGain

/-- SHOW settings that a power-on can restore: a well-formed Gang Table, a stored reference exactly with tracking ON, a
trim within its range. -/
def ShowData.Ok (x : ShowData) : Prop :=
  gangsOk x.gangs ∧
  ∀ d : Desk, ∀ c : Chan,
    let t := Tbl.get (x.tracking.get d) c
    (t.reference.isSome = true ↔ t.tracking = true) ∧ -48 ≤ t.trim ∧ t.trim ≤ 48

/-- The SHOW region and the snapshot of a running SHOW write can be restored. -/
def Sto.ShowOk (x : Sto) : Prop :=
  x.showRegion.contents.Ok ∧ ∀ w data, x.running = some w → w.snapshot = .showData data → data.Ok

/-! ## Outputs (R111, Table 6-2) -/

/-- The fields present in an output's path state. -/
def Output.Ok (h : Hub) (o : Output) : Prop :=
  match o.pathState with
  | .unpatched => o.primary = none ∧ o.carried = none ∧ o.gapTarget = none ∧ o.fade = 0
  | .silent => o.primary ≠ none ∧ o.carried = none ∧ o.gapTarget = none ∧ o.fade = 0
  | .onPrimary =>
      o.primary ≠ none ∧ o.carried = o.primary ∧ sourceUp h.linkUp o.carried = true ∧ o.gapTarget = none ∧
        o.fade = Config.fadeFull
  | .onFallback =>
      o.primary ≠ none ∧ o.fallback ≠ none ∧ o.carried = o.fallback ∧ sourceUp h.linkUp o.carried = true ∧
        o.gapTarget = none ∧ o.fade = Config.fadeFull
  | .gapOut =>
      sourceUp h.linkUp o.carried = true ∧ o.fade ≤ Config.fadeFull ∧
        (o.gapTarget = some .none ∨ (o.primary ≠ none ∧ sourceUp h.linkUp o.targetSource = true))
  | .gapIn =>
      o.primary ≠ none ∧ o.carried = o.targetSource ∧ sourceUp h.linkUp o.carried = true ∧
        (o.gapTarget = some .primary ∨ o.gapTarget = some .fallback) ∧ o.fade ≤ Config.fadeFull

/-- Every output's fields agree with its path state; a revert timer runs only while the output takes from its fallback
and the link of its primary is UP (R118). -/
abbrev Hub.OutputsOk (h : Hub) : Prop :=
  ∀ i : Out, (h.mon.output i).Ok h ∧
    ((h.mon.output i).revertDeadline ≠ none →
      (h.mon.output i).takesFallback = true ∧ sourceUp h.linkUp (h.mon.output i).primary = true)

/-! ## Talk (R134, R135) -/

/-- The Talk Grant map and the records agree: destinations are granted or pending, never both; an output's entry names
the desk that has it granted; pending outputs have a talker; a record exists only while its desk's link is UP. -/
abbrev Hub.TalkOk (h : Hub) : Prop :=
  (∀ d : Desk, ∀ r : TalkRec, h.tbk.records.get d = some r →
    h.linkUp d = true ∧
    ∀ o : Out, (Tbl.get r.granted o = true ↔ Tbl.get h.tbk.grants o = some d) ∧
      (Tbl.get r.destinations o = true ↔ Tbl.get r.granted o = true ∨ Tbl.get r.pending o = true) ∧
      ¬(Tbl.get r.granted o = true ∧ Tbl.get r.pending o = true) ∧
      (Tbl.get r.pending o = true → Tbl.get h.tbk.grants o ≠ none)) ∧
  (∀ o : Out, ∀ d : Desk, Tbl.get h.tbk.grants o = some d →
    h.tbk.records.get d ≠ none ∧ (h.mon.output o).talker = some d) ∧
  (∀ o : Out, Tbl.get h.tbk.grants o = none → (h.mon.output o).talker = none) ∧
  h.tbk.order.Nodup ∧ (∀ d : Desk, d ∈ h.tbk.order ↔ h.tbk.records.get d ≠ none)

end Sys2Proof.Machine
end

