-- ==== Sys2Proof/Certificates/Slice0/Obligations.lean ====
section
/-!
DEFINITION. The statements for the provers. A request of a requester that is `Free` is queued, taken into execution and
carried out in one event: `Hub.taken` is the part with it in execution, `Hub.answered` the same with an answer placed.
-/

open Sys2Proof Sys2Proof.Machine

/-! ## The step and reset -/

/-- A step takes the command at the front of the queue and carries it out on the rest.
Model choice: log entry 1. -/
def Obligations.StepRunsTheFrontCommand : Prop :=
  ∀ (c : Instr) (rest : List Instr) (s : State), s.pending = c :: rest → step s = exec c { s with pending := rest }

/-- The machine right after reset: the values the spec states, the SHOW and install defaults in force (that the store
has never been written is the model's choice, log entry 13).
Model choice: log entry 14. -/
def Obligations.ResetHoldsTheDefaults : Prop :=
  let h := State.reset.hub
  h.now = 0#32 ∧ h.sto.install = Install.defaults ∧ h.sto.lock = false ∧
  (∀ c : Chan, h.pcu.channel c = ⟨40, false, none, none, none, none, .off, false, .off, none, none⟩) ∧
  (∀ g : Grp, Tbl.get h.pcu.gangs g = none) ∧ h.pcu.phantomQueue = [] ∧
  (∀ (d : Desk) (c : Chan), h.pcu.track d c = ⟨true, 0, some 40, false⟩) ∧
  (∀ r : Res, h.arb.claim r = .opened) ∧ h.arb.frozen = false ∧
  (∀ d : Desk, (h.links.get d).state = .down ∧ (h.links.get d).activeLane = none ∧ (h.links.get d).returnBuffer = []) ∧
  (∀ l : LaneId, (h.lane l).state = .dark ∧ (h.lane l).latency = none ∧
    laneGet h.hlm.health l = ⟨⟨0, 0, 0, 0, 0⟩, .good, none⟩) ∧
  (∀ i : Out, (h.mon.output i).pathState = .unpatched ∧ (h.mon.output i).enable = false ∧
    (h.mon.output i).primary = none ∧ (h.mon.output i).duck = 0) ∧
  (∀ d : Desk, h.tbk.records.get d = none) ∧ (∀ i : Out, Tbl.get h.tbk.grants i = none) ∧ h.tbk.arrival = 0#32 ∧
  (∀ r : Requester, h.req.queues.get r = ⟨[], false, false⟩) ∧
  (∀ d : Desk, h.req.desks.get d = ⟨false, none, [], true, none, none⟩) ∧ h.pnl.answer = none ∧ h.pnl.rejected = false

/-- Power-on reset from any state, with any light, pins and samples: claims, links, talk and requests are as the spec
states, and the store's regions give their values where the CRC-16 stored is that of their settings, and the defaults
otherwise: channels with their gang fields, gangs, whole patches and tracking entries are restored, phantom targets
that are ON queue and the eight lowest start to charge; with phantom restore off the settle timer starts.
Model choice: log entries 13, 19, 32. -/
def Obligations.PowerOnResetRestoresThePart : Prop :=
  (∀ (pins : Pins) (ports : PortSamples) (s : State), ∃ t, exec (.powerOnReset pins ports) s = .next t ∧
      t.hub.now = 0#32 ∧
      (∀ r : Res, t.hub.arb.claim r = .opened) ∧ (∀ r : Requester, t.hub.arb.pendingClaims.get r = none) ∧
      t.hub.arb.frozen = false ∧
      (∀ d : Desk, (t.hub.links.get d).state = .down ∧ (t.hub.links.get d).activeLane = none ∧
        (t.hub.links.get d).provisional = false ∧ (t.hub.links.get d).holdoverDeadline = none ∧
        (t.hub.links.get d).nextTake = none ∧ (t.hub.links.get d).rescuedFrames = 0 ∧
        (t.hub.links.get d).repeatedFrames = 0 ∧ (t.hub.links.get d).returnBuffer = []) ∧
      (∀ l : LaneId, (t.hub.lane l).state = (if laneGet pins.light l then .acquiring else .dark) ∧
        (t.hub.lane l).latency = none ∧ (t.hub.lane l).acquireRun = 0 ∧ (t.hub.lane l).badRun = 0 ∧
        (t.hub.lane l).qualifyCount = 0 ∧ (t.hub.lane l).buffer = []) ∧
      (∀ d : Desk, t.hub.tbk.records.get d = none) ∧ (∀ i : Out, Tbl.get t.hub.tbk.grants i = none) ∧
      t.hub.tbk.queue = [] ∧ t.hub.tbk.arrival = 0#32 ∧ t.hub.tbk.st1 = pins.tb1 ∧ t.hub.tbk.st2 = pins.tb2 ∧
      (∀ r : Requester, t.hub.req.queues.get r = ⟨[], false, false⟩) ∧
      (∀ d : Desk, (t.hub.req.desks.get d).hold = false ∧ (t.hub.req.desks.get d).answer = none ∧
        (t.hub.req.desks.get d).notices = [] ∧ (t.hub.req.desks.get d).gapOwed = true ∧
        (t.hub.req.desks.get d).asm = none)) ∧
  (∀ (pins : Pins) (ports : PortSamples) (s : State), ∃ t, exec (.powerOnReset pins ports) s = .next t ∧
      let installGood := s.hub.sto.installRegion.crc = crc16 s.hub.sto.installRegion.contents.settings.bytes
      let showGood := s.hub.sto.showRegion.crc = crc16 s.hub.sto.showRegion.contents.bytes
      let image : InstallImage := if installGood then s.hub.sto.installRegion.contents else ⟨Install.defaults, false⟩
      let shown : ShowData := if showGood then s.hub.sto.showRegion.contents else ShowData.defaults
      let supply : Chan → Bool := fun c => (Tbl.get shown.channels c).phantomTarget && image.settings.phantomRestore
      let waiting := (List.finRange 72).filter supply
      let eff : Chan → Int := fun c =>
        ((Tbl.get shown.channels c).gain : Int) - (if (Tbl.get shown.channels c).pad then 40 else 0)
      t.hub.sto.install = image.settings ∧ t.hub.sto.lock = image.lock ∧
      t.hub.sto.installStatus = (if installGood then .good else .defaultsUsed) ∧
      t.hub.sto.showStatus = (if showGood then .good else .defaultsUsed) ∧
      t.hub.sto.erasePrepared = false ∧ t.hub.sto.writeList = [] ∧ t.hub.sto.running = none ∧
      (image.settings.phantomRestore = false → t.hub.sto.settle = some 480000#32) ∧
      t.hub.pcu.gangs = shown.gangs ∧
      t.hub.pcu.phantomQueue = waiting.drop 8 ∧
      (∀ c : Chan,
        (supply c = false → (t.hub.pcu.channel c).phantomState = .off ∧ (t.hub.pcu.channel c).phantomTimer = none) ∧
        (c ∈ waiting.take 8 → (t.hub.pcu.channel c).phantomState = .charging ∧
          (t.hub.pcu.channel c).phantomTimer = some 19200#32) ∧
        (c ∈ waiting.drop 8 → (t.hub.pcu.channel c).phantomState = .queued ∧
          (t.hub.pcu.channel c).phantomTimer = none)) ∧
      (∀ (d : Desk) (c : Chan),
        let x := Tbl.get (shown.tracking.get d) c
        (x.tracking = false → t.hub.pcu.track d c = ⟨false, x.trim, none, false⟩) ∧
        (∀ r, x.tracking = true → x.reference = some r → t.hub.pcu.track d c =
          ⟨true, max (-48) (min 48 (r - eff c)), some r, decide (r - eff c < -48 ∨ 48 < r - eff c)⟩)) ∧
      (∀ c : Chan, (t.hub.pcu.channel c).gain = (Tbl.get shown.channels c).gain ∧
        (t.hub.pcu.channel c).gang = (List.finRange 12).find? (fun g => ((Tbl.get shown.gangs g).getD []).contains c) ∧
        (t.hub.pcu.channel c).pad = (Tbl.get shown.channels c).pad ∧
        (t.hub.pcu.channel c).hpf = (Tbl.get shown.channels c).hpf ∧
        (t.hub.pcu.channel c).stagedGain = none ∧ (t.hub.pcu.channel c).stagedPad = none ∧
        (t.hub.pcu.channel c).phantomTarget = ((Tbl.get shown.channels c).phantomTarget && image.settings.phantomRestore)) ∧
      (∀ i : Out, (t.hub.mon.output i).primary = (Tbl.get shown.patches i).primary ∧
        (t.hub.mon.output i).fallback = (Tbl.get shown.patches i).fallback ∧
        (t.hub.mon.output i).failAction = (Tbl.get shown.patches i).failAction ∧
        (t.hub.mon.output i).gap = (Tbl.get shown.patches i).gap ∧ (t.hub.mon.output i).carried = none ∧
        (t.hub.mon.output i).gapTarget = none ∧ (t.hub.mon.output i).revertDeadline = none ∧
        (t.hub.mon.output i).duckTarget = 0 ∧
        (t.hub.mon.output i).pathState =
          (if ((Tbl.get shown.patches i).primary).isNone then .unpatched else .silent) ∧
        (t.hub.mon.output i).fade = 0 ∧ (t.hub.mon.output i).talker = none ∧ (t.hub.mon.output i).duck = 0 ∧
        (t.hub.mon.output i).enable =
          (image.settings.startEnabled && !(pins.safe && Tbl.get image.settings.safeMember i))))

/-- Power-on reset sets every health record, removes every test record, takes the thresholds from the store and sends
no HEALTH_VERDICT. -/
def Obligations.PowerOnResetClearsHealth : Prop :=
  ∀ (pins : Pins) (ports : PortSamples) (s : State), ∃ t, exec (.powerOnReset pins ports) s = .next t ∧
    (∀ l : LaneId, laneGet t.hub.hlm.health l = ⟨⟨0, 0, 0, 0, 0⟩, .good, none⟩) ∧
    (∀ d : Desk, t.hub.hlm.tests.get d = none) ∧
    t.hub.sto.install.thresholds =
      (if s.hub.sto.installRegion.crc = crc16 s.hub.sto.installRegion.contents.settings.bytes
        then s.hub.sto.installRegion.contents.settings.thresholds
        else ⟨⟨100, 1000⟩, ⟨4, 16⟩, ⟨2, 8⟩, ⟨4, 32⟩, ⟨1, 100⟩⟩) ∧
    (∀ n ∈ t.hub.pnl.notices, ∀ l new old c, n.notice ≠ .healthVerdict l new old c) ∧
    (∀ d : Desk, (t.hub.req.desks.get d).notices = [])

/-! ## Requests, answers and notices (chapter 8) -/

/-- A notice joins the tail of a desk's Notice Buffer, or of the Panel Notice Queue, with the GAP flag the mark owes,
and the mark clears; one that finds 8 notices, or 16, is discarded and sets the mark, PANEL's discard count adding 1
up to 255. An all-desk notice is placed for every desk whose link is UP and for PANEL, and nothing else changes; a
notice for one desk only while its link is UP, one for a desk and PANEL for PANEL also. OUTPUT_STATE lists the outputs
whose notified fields differ, in number order, at most 3 a notice, with the values the event leaves; CLAIM_CHANGED the
records whose state, holder or level differ, grouped by the new ones, in resource order, at most 16 a notice, the
groups in the order of their first resource. The answer to a request in execution carries its kind and tag and the
discarded mark, which clears, and waits in the requester's slot.
Model choice: log entry 22. -/
def Obligations.NoticesAndAnswersArePlaced : Prop :=
  (∀ (p : DeskPort) (n : Notice),
      (p.notices.length < 8 → p.place n = { p with notices := p.notices ++ [⟨n, p.gapOwed⟩], gapOwed := false }) ∧
      (8 ≤ p.notices.length → p.place n = { p with gapOwed := true })) ∧
  (∀ (p : Pnl) (n : Notice),
      (p.notices.length < 16 → p.place n = { p with notices := p.notices ++ [⟨n, p.gapOwed⟩], gapOwed := false }) ∧
      (16 ≤ p.notices.length → p.discardCount ≤ 255 →
        p.place n = { p with gapOwed := true, discardCount := min 255 (p.discardCount + 1) })) ∧
  (∀ (n : Notice) (h : Hub),
      notifyAll n h = { h with
        req := { h.req with desks := PerDesk.of fun d =>
          if (h.links.get d).state = .up then (h.req.desks.get d).place n else h.req.desks.get d }
        pnl := h.pnl.place n }) ∧
  (∀ (d : Desk) (n : Notice) (h : Hub),
      notifyDesk d n h = { h with req := { h.req with desks :=
        if (h.links.get d).state = .up then h.req.desks.set d ((h.req.desks.get d).place n) else h.req.desks } } ∧
      notifyDeskPanel d n h = { notifyDesk d n h with pnl := h.pnl.place n } ∧
      notifyRequester d.req n h = notifyDesk d n h ∧ notifyRequester .panel n h = { h with pnl := h.pnl.place n }) ∧
  (∀ (h : Hub) (n : Notice) (ns : List Notice),
      notifyEach [] h = h ∧ notifyEach (n :: ns) h = notifyEach ns (notifyAll n h)) ∧
  (∀ (byEnable : Bool) (x y : Vector Output 32),
      let differs : Output → Output → Prop := fun a b =>
        a.primary ≠ b.primary ∨ a.fallback ≠ b.fallback ∨ a.failAction ≠ b.failAction ∨ a.gap ≠ b.gap ∨
        a.pathState ≠ b.pathState ∨ a.carried ≠ b.carried ∨ a.gapTarget ≠ b.gapTarget ∨
        (byEnable = true ∧ a.enable ≠ b.enable)
      ∃ (changed : List Out) (groups : List (List Out)),
        (∀ i, i ∈ changed ↔ differs (Tbl.get x i) (Tbl.get y i)) ∧ changed.Pairwise (· < ·) ∧
        groups.flatten = changed ∧ (∀ g ∈ groups, 1 ≤ g.length ∧ g.length ≤ 3) ∧
        (∀ g ∈ groups.dropLast, g.length = 3) ∧
        outputChanges byEnable x y = groups.map fun g => .outputState (g.map fun i =>
          let o := Tbl.get y i
          ⟨i, o.primary, o.fallback, o.failAction, o.gap, o.pathState, o.carried, o.gapTarget, o.enable,
            o.revertDeadline.isSome⟩)) ∧
  (∀ (x y : Arb),
      let key : Arb → Res → ClaimState × Option Requester × Option Level := fun z r =>
        ((z.claim r).state, (z.claim r).holder, (z.claim r).level)
      ∃ pieces : List ((ClaimState × Option Requester × Option Level) × List Res),
        (∀ r, (∃ g ∈ pieces, r ∈ g.2) ↔ key x r ≠ key y r) ∧
        (∀ g ∈ pieces, 1 ≤ g.2.length ∧ g.2.length ≤ 16 ∧ g.2.Pairwise (· < ·) ∧ ∀ r ∈ g.2, key y r = g.1) ∧
        pieces.Pairwise (fun f g =>
          (f.1 = g.1 → f.2.length = 16 ∧ ∀ r ∈ f.2, ∀ q ∈ g.2, r < q) ∧
          (f.1 ≠ g.1 → ∃ first, key x first ≠ key y first ∧ key y first = f.1 ∧
            ∀ q, key x q ≠ key y q → key y q = g.1 → first < q)) ∧
        claimChanges x y = pieces.map fun g => .claimChanged g.1.1 g.1.2.1 g.1.2.2 g.2) ∧
  (∀ (who : Requester) (code : Code) (body : List Byte) (e : QEntry) (es : List QEntry) (h : Hub),
      (h.req.queues.get who).items = e :: es → (h.req.queues.get who).executing = true →
      let t := answerTo who code body h
      t.answerOf who = some ⟨e.call.kind, e.tag, (h.req.queues.get who).discarded, code, body⟩ ∧
      t.req.queues.get who = ⟨e :: es, true, false⟩ ∧ t.core = h.core ∧
      (∀ r, r ≠ who → t.answerOf r = h.answerOf r ∧ t.req.queues.get r = h.req.queues.get r) ∧
      (∀ d, (t.req.desks.get d).notices = (h.req.desks.get d).notices) ∧ t.pnl.notices = h.pnl.notices)

/-- REQUEST_ARRIVAL with the message of a request is the request's own row (log entry 2). Behind a request in
execution the message joins the tail of the queue; HOLD is set by an arrival that brings the count to 6 or more; an
arrival that finds 8 is discarded and sets the discarded mark; a message whose CRC fails changes nothing. The
assembler begins at a START cell with a length of 8 to 64, adds the bytes of each MORE cell, and is idle after the
cell that completes the message and after any other cell or a lost one; the cells of a message, one after another,
hand it on whole. -/
def Obligations.RequestArrivalQueuesTheMessage : Prop :=
  (∀ (d : Desk) (tag : Byte) (c : Call) (s : State), c.fits = true →
      exec (.requestArrival d (requestMessage tag c)) s = .next (s.withHub (submit d.req tag c s.hub))) ∧
  (∀ (d : Desk) (tag : Byte) (c : Call) (s : State), c.fits = true → (s.hub.links.get d).state = .up →
      (s.hub.req.queues.get d.req).executing = true → (s.hub.req.queues.get d.req).items ≠ [] →
      let q := s.hub.req.queues.get d.req
      let p := s.hub.req.desks.get d
      (q.items.length < 8 → exec (.requestArrival d (requestMessage tag c)) s = .next (s.withHub
        ((s.hub.setQueue d.req { q with items := q.items ++ [⟨tag, c⟩] }).setDesk d
          { p with hold := p.hold || decide (6 ≤ q.items.length + 1) }))) ∧
      (8 ≤ q.items.length → exec (.requestArrival d (requestMessage tag c)) s = .next (s.withHub
        (s.hub.setQueue d.req { q with discarded := true }))) ∧
      (∀ bytes, parseMessage bytes = none → exec (.requestArrival d bytes) s = .next s)) ∧
  (∀ (a : Option Asm) (c : Cell),
      asmStep a none = (none, none) ∧
      (c.kind = 0x01#8 → 8 ≤ c.b1.toNat → c.b1.toNat ≤ 64 →
        asmStep a (some c) = (some ⟨c.b1.toNat, [c.b1, c.b2, c.b3]⟩, none)) ∧
      (c.kind = 0x01#8 → c.b1.toNat < 8 ∨ 64 < c.b1.toNat → asmStep a (some c) = (none, none)) ∧
      (c.kind = 0x02#8 → asmStep none (some c) = (none, none)) ∧
      (∀ x, c.kind = 0x02#8 → a = some x →
        let bytes := x.bytes ++ [c.b1, c.b2, c.b3]
        (bytes.length < x.length → asmStep a (some c) = (some ⟨x.length, bytes⟩, none)) ∧
        (x.length ≤ bytes.length → asmStep a (some c) = (none, some (bytes.take x.length)))) ∧
      (c.kind ≠ 0x01#8 → c.kind ≠ 0x02#8 → asmStep a (some c) = (none, none))) ∧
  (∀ (d : Desk) (bytes : List Byte) (h : Hub), lengthOk bytes = true →
      (messageCells bytes).foldl (fun h c => takeCell d (some c) h) h =
        messageArrives d bytes (h.setDesk d { h.req.desks.get d with asm := none }))

/-- The delivery of a desk's answer, the last cell of which has been sent, empties the slot and takes the request from
the queue; HOLD clears where 3 or fewer are left and stands otherwise. The next request of the queue is taken into
execution and carried out in the same event; with none behind it nothing else changes. An answer not yet sent is not
delivered.
Model choice: log entry 3. -/
def Obligations.DeliveryEmptiesTheSlot : Prop :=
  ∀ (d : Desk) (s : State),
    let q := s.hub.req.queues.get d.req
    let p := s.hub.req.desks.get d
    let delivered : List QEntry → Bool → Hub := fun es executing =>
      (s.hub.setQueue d.req ⟨es, executing, q.discarded⟩).setDesk d
        { p with answer := none, tx := none, hold := p.hold && !decide (es.length ≤ 3) }
    (∀ e es, p.answerSent = true → q.items = e :: es →
      exec (.answerDelivery d) s = .next (s.withHub (takeHead d.req (delivered es false)))) ∧
    (∀ e, p.answerSent = true → q.items = [e] →
      exec (.answerDelivery d) s = .next (s.withHub (delivered [] false))) ∧
    (∀ e e' es, p.answerSent = true → q.items = e :: e' :: es →
      exec (.answerDelivery d) s = .next (s.withHub
        (carryOut d.req s.hub.sto.erasePrepared e'.call (delivered (e' :: es) true)))) ∧
    (p.answerSent = false → exec (.answerDelivery d) s = .next s)

/-- The requests that Table 8-7 marks PANEL are answered DENIED when they come from a desk, and change nothing. -/
def Obligations.PanelRequestsFromADeskAreDenied : Prop :=
  ∀ (d : Desk) (tag : Byte) (settings : List Byte) (link flush : Nat) (s : State), Free d.req s.hub →
    settings.length = 44 →
    let denied := fun c : Call => (Host.Outcome.next (s.withHub (s.hub.answered d.req tag c .denied [])) :
      Host.Outcome State Fault Refusal)
    exec (.writeInstall d.req tag settings) s = denied (.writeInstall settings) ∧
    exec (.readInstall d.req tag) s = denied .readInstall ∧
    exec (.lockInstall d.req tag) s = denied .lockInstall ∧
    exec (.erasePrepare d.req tag) s = denied .erasePrepare ∧
    exec (.eraseInstall d.req tag) s = denied .eraseInstall ∧
    exec (.saveNow d.req tag) s = denied .saveNow ∧
    exec (.hubRestart d.req tag) s = denied .hubRestart ∧
    exec (.linkRestart d.req tag link) s = denied (.linkRestart link) ∧
    exec (.readNotices d.req tag flush) s = denied (.readNotices flush)

/-- A request message spelled by Tables 8-4, 8-5 and 8-7 is read back as the request and tag it was written from, for
every request whose message fits 64 bytes, with every field at every value its bytes admit.
Model choice: log entry 16. -/
def Obligations.RequestMessageRoundTrip : Prop :=
  ∀ (tag : Byte) (c : Call), c.fits = true →
    lengthOk (requestMessage tag c) = true ∧ parseMessage (requestMessage tag c) = some ⟨tag, c⟩

/-! ## Channels and preamp settings (chapter 1) -/

/-- SET_INPUT with gain, pad or both outside phantom transition, by a requester the verdicts allow. On a channel in no
gang the carried values are staged, a field not carried stays, the requester is credited and the deadline is set where
nothing was staged before. On a gang member every member's commanded gain moves by the named channel's delta, and
every member takes the pad, the requester and one deadline. The answer is DONE and nothing else changes. -/
def Obligations.SetInputStagesGainAndPad : Prop :=
  (∀ (who : Requester) (tag : Byte) (c : Chan) (gain : Option Nat) (pad : Option Bool) (s : State), Free who s.hub →
      (∀ g, gain = some g → g ≤ 127) → (gain ≠ none ∨ pad ≠ none) →
      (s.hub.pcu.channel c).gang = none → (s.hub.pcu.channel c).inTransition = false →
      s.hub.arb.permission who (Chan.res c) = .permitted →
      let x := s.hub.pcu.channel c
      let padField := pad.map fun b => if b then 1 else 0
      exec (.setInput who tag (c.1 + 1) gain padField none none) s = .next (s.withHub
        (answerTo who .done []
          { s.hub.taken who tag (.setInput (c.1 + 1) gain padField none none) with
            pcu := s.hub.pcu.setChannel c { x with
              stagedGain := gain.or x.stagedGain
              stagedPad := pad.or x.stagedPad
              stagedBy := some who
              transferDeadline := if x.isStaged then x.transferDeadline else some (later s.hub.now 2400) } }))) ∧
  (∀ (who : Requester) (tag : Byte) (c : Chan) (g : Grp) (ms : List Chan) (gain : Option Nat) (pad : Option Bool)
      (s : State), Free who s.hub → (∀ x, gain = some x → x ≤ 127) → (gain ≠ none ∨ pad ≠ none) →
      (s.hub.pcu.channel c).gang = some g → Tbl.get s.hub.pcu.gangs g = some ms →
      (∀ m ∈ ms, (s.hub.pcu.channel m).inTransition = false ∧ s.hub.arb.permission who (Chan.res m) = .permitted) →
      let delta : Int := (gain.getD (s.hub.pcu.channel c).commandedGain : Int) - (s.hub.pcu.channel c).commandedGain
      (∀ m ∈ ms, gain ≠ none → 0 ≤ (s.hub.pcu.channel m).commandedGain + delta ∧
        (s.hub.pcu.channel m).commandedGain + delta ≤ 127) →
      let padField := pad.map fun b => if b then 1 else 0
      let staged := ms.any fun m => (s.hub.pcu.channel m).isStaged
      exec (.setInput who tag (c.1 + 1) gain padField none none) s = .next (s.withHub
        (answerTo who .done []
          { s.hub.taken who tag (.setInput (c.1 + 1) gain padField none none) with
            pcu := { s.hub.pcu with
              channels := Tbl.of fun m =>
                let x := s.hub.pcu.channel m
                if m ∈ ms then { x with
                  stagedGain := if gain = none then x.stagedGain else some (x.commandedGain + delta).toNat
                  stagedPad := pad.or x.stagedPad
                  stagedBy := some who
                  transferDeadline := if staged then x.transferDeadline else some (later s.hub.now 2400) }
                else x } })))

/-- SET_INPUT with an hpf field applies a new value at once with one INPUT_CHANGED and one report of SHOW data, and
the present value changes nothing. SET_INPUT with a phantom field acts by the present phantom state as Table 1-2
states, on a channel whose group has nothing staged.
Model choice: log entry 12. -/
def Obligations.SetInputAppliesFilterAndPhantom : Prop :=
  (∀ (who : Requester) (tag : Byte) (c : Chan) (v : Hpf) (s : State), Free who s.hub →
      s.hub.arb.permission who (Chan.res c) = .permitted →
      let x := s.hub.pcu.channel c
      let call := Call.setInput (c.1 + 1) none none (some v.pos) none
      exec (.setInput who tag (c.1 + 1) none none (some v.pos) none) s = .next (s.withHub
        (if x.hpf = v then s.hub.answered who tag call .done []
          else answerTo who .done [] (showReport (notifyAll (.inputChanged c x.gain x.pad v x.phantomTarget who)
            { s.hub.taken who tag call with pcu := s.hub.pcu.setChannel c { x with hpf := v } }))))) ∧
  (∀ (who : Requester) (tag : Byte) (c : Chan) (s : State), Free who s.hub →
      s.hub.arb.permission who (Chan.res c) = .permitted → s.hub.pcu.groupStaged c = false →
      let h := s.hub
      let x := h.pcu.channel c
      let phantomCall : Bool → Call := fun b => .setInput (c.1 + 1) none none none (some (if b then 1 else 0))
      let result : Bool → Host.Outcome State Fault Refusal := fun b =>
        exec (.setInput who tag (c.1 + 1) none none none (some (if b then 1 else 0))) s
      let changed : Bool → Pcu → PhantomState → Host.Outcome State Fault Refusal := fun b p st =>
        .next (s.withHub (answerTo who .done [] (showReport (notifyAll (.phantomState c st b)
          { h.taken who tag (phantomCall b) with pcu := p }))))
      (x.phantomState = .off → h.pcu.phantomQueue = [] → h.pcu.charging < 8 →
        result true = changed true (h.pcu.setChannel c { x with
          phantomTarget := true, phantomState := .charging, phantomTimer := some (later h.now 19200) }) .charging) ∧
      (x.phantomState = .off → 8 ≤ h.pcu.charging →
        result true = changed true
          { h.pcu.setChannel c { x with phantomTarget := true, phantomState := .queued } with
            phantomQueue := h.pcu.phantomQueue ++ [c] } .queued) ∧
      (x.phantomState = .queued →
        result false = changed false
          { h.pcu.setChannel c { x with phantomTarget := false, phantomState := .off } with
            phantomQueue := h.pcu.phantomQueue.filter fun q => !decide (q = c) } .off) ∧
      (x.phantomState = .on →
        result false = changed false (h.pcu.setChannel c { x with
          phantomTarget := false, phantomState := .discharging, phantomTimer := some (later h.now 38400) })
          .discharging) ∧
      ((x.phantomState = .queued ∨ x.phantomState = .charging ∨ x.phantomState = .on) →
        result true = .next (s.withHub (h.answered who tag (phantomCall true) .done []))) ∧
      ((x.phantomState = .off ∨ x.phantomState = .discharging) →
        result false = .next (s.withHub (h.answered who tag (phantomCall false) .done []))) ∧
      (x.phantomState = .charging →
        result false = .next (s.withHub (h.answered who tag (phantomCall false) .busy []))) ∧
      (x.phantomState = .discharging →
        result true = .next (s.withHub (h.answered who tag (phantomCall true) .busy []))))

/-- Requests turned away, each with its code and with nothing changed. SET_INPUT: RANGE for a channel or field out of
range, HELD or ORPHANED by the verdict where it carries a field; one that carries none of the four fields is DONE and
changes nothing, whatever the record of its channel (that its channel number is still checked: log entry 39). A gang
change: RANGE where the delta takes a member out of 0.0 to 63.5 dB, HELD where the verdict on a member refuses.
SET_GANG: RANGE for a bad group or list or a member of another group, HELD where the verdict on a channel involved
refuses. SET_TRACKING and SET_TRIM: RANGE, then DENIED for another desk. The claim requests: RANGE for a bad list or
level, NOT_SUPERVISOR without the flag, FROZEN under the show freeze, where FREEZE itself is DONE. SET_PATCH: RANGE
for a bad output, source, action or gap, a fallback without a primary or equal to it. SET_PATCH and OUTPUT_ENABLE:
HELD or ORPHANED, the first refused output of a set deciding. TALK_ON: RANGE for an empty set or a duck above 30 dB,
DENIED for PANEL, and NOT_UP for a desk whose link is no longer UP when its queued request is taken. -/
def Obligations.RequestsTurnedAway : Prop :=
  (∀ (who : Requester) (tag : Byte) (ch : Nat) (gain pad hpf phantom : Option Nat) (s : State), Free who s.hub →
      let call := Call.setInput ch gain pad hpf phantom
      let result := exec (.setInput who tag ch gain pad hpf phantom) s
      ((ch < 1 ∨ 72 < ch ∨ (∃ g, gain = some g ∧ 127 < g) ∨ (∃ p, pad = some p ∧ 1 < p) ∨ (∃ f, hpf = some f ∧ 3 < f) ∨
          (∃ p, phantom = some p ∧ 1 < p)) →
        result = .next (s.withHub (s.hub.answered who tag call .range []))) ∧
      (∀ c : Chan, ch = c.1 + 1 → (∀ g, gain = some g → g ≤ 127) → (∀ p, pad = some p → p ≤ 1) →
        (∀ f, hpf = some f → f ≤ 3) → (∀ p, phantom = some p → p ≤ 1) → (s.hub.pcu.channel c).gang = none →
        (gain ≠ none ∨ pad ≠ none ∨ hpf ≠ none ∨ phantom ≠ none) →
        (∀ holder level, s.hub.arb.claim (Chan.res c) = .held holder level → holder ≠ who →
          result = .next (s.withHub (s.hub.answered who tag call .held []))) ∧
        (∀ d level t, s.hub.arb.claim (Chan.res c) = .orphaned d level t →
          result = .next (s.withHub (s.hub.answered who tag call .orphaned [])))) ∧
      (∀ c : Chan, ch = c.1 + 1 → gain = none → pad = none → hpf = none → phantom = none →
        result = .next (s.withHub (s.hub.answered who tag call .done []))) ∧
      (∀ (c : Chan) (g : Grp) (ms : List Chan), ch = c.1 + 1 → (s.hub.pcu.channel c).gang = some g →
        Tbl.get s.hub.pcu.gangs g = some ms → (∀ g, gain = some g → g ≤ 127) → (∀ p, pad = some p → p ≤ 1) →
        (∀ f, hpf = some f → f ≤ 3) → (∀ p, phantom = some p → p ≤ 1) → (gain ≠ none ∨ pad ≠ none) →
        let outside := ∃ x, gain = some x ∧ ∃ m ∈ ms,
          let y : Int := (s.hub.pcu.channel m).commandedGain + ((x : Int) - (s.hub.pcu.channel c).commandedGain)
          y < 0 ∨ 127 < y
        (outside → result = .next (s.withHub (s.hub.answered who tag call .range []))) ∧
        (¬outside → (∃ m ∈ ms, s.hub.arb.permission who (Chan.res m) ≠ .permitted) →
          result = .next (s.withHub (s.hub.answered who tag call .held []))))) ∧
  (∀ (who : Requester) (tag : Byte) (n : Nat) (ns : List Nat) (s : State), Free who s.hub →
      let turned : Code → Prop := fun code =>
        exec (.setGang who tag n ns) s = .next (s.withHub (s.hub.answered who tag (.setGang n ns) code []))
      (n < 1 ∨ 12 < n ∨ ns.length = 1 ∨ 8 < ns.length ∨ (∃ x ∈ ns, x < 1 ∨ 72 < x) ∨ ¬ns.Nodup → turned .range) ∧
      (∀ (g : Grp) (ms : List Chan), n = g.1 + 1 → members? ns = some ms →
        let other := ∃ m ∈ ms, ∃ k, (s.hub.pcu.channel m).gang = some k ∧ k ≠ g
        (other → turned .range) ∧
        (¬other → (∃ m ∈ (Tbl.get s.hub.pcu.gangs g).getD [] ++ ms,
          s.hub.arb.permission who (Chan.res m) ≠ .permitted) → turned .held))) ∧
  (∀ (who : Requester) (tag : Byte) (d ch value : Nat) (set : BitSet 72) (trim : Int) (s : State), Free who s.hub →
      let tracked : Code → Prop := fun code => exec (.setTracking who tag d set value) s =
        .next (s.withHub (s.hub.answered who tag (.setTracking d set value) code []))
      let trimmed : Code → Prop := fun code => exec (.setTrim who tag d ch trim) s =
        .next (s.withHub (s.hub.answered who tag (.setTrim d ch trim) code []))
      let badDesk := d < 1 ∨ 3 < d
      let another := who ≠ .panel ∧ ∀ x : Desk, who = x.req → d ≠ Desk.num x
      let badSet := badDesk ∨ (∀ c, Tbl.get set c = false) ∨ 1 < value
      let badTrim := badDesk ∨ ch < 1 ∨ 72 < ch ∨ trim < -48 ∨ 48 < trim
      (badSet → tracked .range) ∧ (¬badSet → another → tracked .denied) ∧
      (badTrim → trimmed .range) ∧ (¬badTrim → another → trimmed .denied)) ∧
  (∀ (who : Requester) (tag : Byte) (n : Nat) (p f : Option (Nat × Nat)) (fa gap : Nat) (s : State), Free who s.hub →
      let bad : Option (Nat × Nat) → Prop := fun x =>
        ∃ d k, x = some (d, k) ∧ (d < 1 ∨ 3 < d ∨ k < 1 ∨ 32 < k)
      (n < 1 ∨ 32 < n ∨ bad p ∨ bad f ∨ 1 < fa ∨ 15 < gap ∨ (f ≠ none ∧ (p = none ∨ p = f)) →
        exec (.setPatch who tag n p f fa gap) s =
          .next (s.withHub (s.hub.answered who tag (.setPatch n p f fa gap) .range [])))) ∧
  (∀ (who : Requester) (tag : Byte) (ns : List Nat) (n : Nat) (s : State), Free who s.hub →
      let h := s.hub
      ((resources? ns = none ∨ level? n = none) →
        exec (.claim who tag ns n) s = .next (s.withHub (h.answered who tag (.claim ns n) .range []))) ∧
      (resources? ns = none →
        exec (.release who tag ns) s = .next (s.withHub (h.answered who tag (.release ns) .range [])) ∧
        exec (.override who tag ns) s = .next (s.withHub (h.answered who tag (.override ns) .range [])) ∧
        exec (.readClaims who tag ns) s = .next (s.withHub (h.answered who tag (.readClaims ns) .range []))) ∧
      (h.sto.install.supervisor.get who = false →
        (resources? ns ≠ none → exec (.override who tag ns) s =
          .next (s.withHub (h.answered who tag (.override ns) .notSupervisor []))) ∧
        exec (.freeze who tag) s = .next (s.withHub (h.answered who tag .freeze .notSupervisor []))) ∧
      (h.arb.frozen = true → resources? ns ≠ none →
        (level? n ≠ none → exec (.claim who tag ns n) s =
          .next (s.withHub (h.answered who tag (.claim ns n) .frozen []))) ∧
        exec (.release who tag ns) s = .next (s.withHub (h.answered who tag (.release ns) .frozen [])) ∧
        (h.sto.install.supervisor.get who = true → exec (.override who tag ns) s =
          .next (s.withHub (h.answered who tag (.override ns) .frozen [])))) ∧
      (h.arb.frozen = true → h.sto.install.supervisor.get who = true →
        exec (.freeze who tag) s = .next (s.withHub (h.answered who tag .freeze .done [])))) ∧
  (∀ (who : Requester) (tag : Byte) (i : Out) (p f : Option (Nat × Nat)) (fa gap : Nat) (x : PatchFields)
      (set : BitSet 32) (on : Bool) (code : Code) (s : State), Free who s.hub →
      patchFields? p f fa gap = some x → Tbl.get set i = true →
      (∀ j, j < i → Tbl.get set j = true → s.hub.arb.permission who (Out.res j) = .permitted) →
      ((code = .held ∧ ∃ holder l, s.hub.arb.claim (Out.res i) = .held holder l ∧ holder ≠ who) ∨
        (code = .orphaned ∧ ∃ d l t, s.hub.arb.claim (Out.res i) = .orphaned d l t)) →
      let value := if on then 0 else 1
      exec (.setPatch who tag (i.1 + 1) p f fa gap) s =
        .next (s.withHub (s.hub.answered who tag (.setPatch (i.1 + 1) p f fa gap) code [])) ∧
      exec (.outputEnable who tag set value) s =
        .next (s.withHub (s.hub.answered who tag (.outputEnable set value) code []))) ∧
  (∀ (who : Requester) (tag : Byte) (set : BitSet 32) (duck : Nat) (s : State), Free who s.hub →
      let bad := (∀ o, Tbl.get set o = false) ∨ 30 < duck
      (bad → exec (.talkOn who tag set duck) s =
        .next (s.withHub (s.hub.answered who tag (.talkOn set duck) .range []))) ∧
      (¬bad → who = .panel → exec (.talkOn who tag set duck) s =
        .next (s.withHub (s.hub.answered who tag (.talkOn set duck) .denied [])))) ∧
  (∀ (d : Desk) (tag : Byte) (set : BitSet 32) (duck : Nat) (e : QEntry) (es : List QEntry) (s : State),
      let q := s.hub.req.queues.get d.req
      let p := s.hub.req.desks.get d
      (s.hub.links.get d).state ≠ .up → p.answerSent = true → q.items = e :: ⟨tag, .talkOn set duck⟩ :: es →
      (∃ o, Tbl.get set o = true) → duck ≤ 30 →
      exec (.answerDelivery d) s = .next (s.withHub (answerTo d.req .notUp []
        ((s.hub.setQueue d.req ⟨⟨tag, .talkOn set duck⟩ :: es, true, q.discarded⟩).setDesk d
          { p with answer := none, tx := none, hold := p.hold && !decide (es.length + 1 ≤ 3) }))))

/-- A tracking entry of a channel at its transfer (Table 2-2): unchanged while tracking is OFF; otherwise the credited
desk's reference moves by the delta and is limited, and the trim is derived. -/
def Obligations.TransferOfATrackingEntry : Prop :=
  ∀ (eff delta : Int) (credited : Bool) (t : Track),
    (t.tracking = false → t.transfer eff delta credited = t) ∧
    (∀ r, t.tracking = true → t.reference = some r →
      let r' := if credited then max (-88) (min 175 (r + delta)) else r
      t.transfer eff delta credited =
        ⟨true, max (-48) (min 48 (r' - eff)), some r', decide (r' - eff < -48 ∨ 48 < r' - eff)⟩)

/-- A zero crossing, or the timeout, of a channel in no gang with staged values: the commanded values become the
applied ones, the staged fields go, the three tracking entries follow, TRACK_LIMIT goes to each desk whose mark
changed, then INPUT_CHANGED, and SHOW data is reported; nothing else changes. A crossing or the timeout of a gang's
lead transfers every member in list order in one event, and one of another member transfers nothing. A SET_INPUT on a
channel in phantom transition, or on a gang of which a member is, transfers its values at once. A SET_INPUT that
starts a phantom transition of a channel with values staged on it or on its gang transfers them in the same event,
PHANTOM_STATE first.
Model choice: log entries 9, 12. -/
def Obligations.TransferOfAChannel : Prop :=
  (∀ (c : Chan) (credited : Requester) (s : State), (s.hub.pcu.channel c).gang = none →
    (s.hub.pcu.channel c).isStaged = true → (s.hub.pcu.channel c).stagedBy = some credited →
    let x := s.hub.pcu.channel c
    let after := s.hub.transferred [c] (fun _ => credited)
      (fun m => if m = c then x.settled x.commandedGain x.commandedPad else s.hub.pcu.channel m) []
    (crosses (Tbl.get s.hub.pcu.before c) (Tbl.get s.hub.pcu.samples c) = true →
      x.transferDeadline ≠ some (later s.hub.now 2400) → exec (.zeroCrossing c) s = .next (s.withHub after)) ∧
    (∀ t, x.transferDeadline = some t → reached s.hub.now t = true →
      exec (.transferTimeout c) s = .next (s.withHub after))) ∧
  (∀ (g : Grp) (lead : Chan) (ms : List Chan) (credited : Requester) (s : State),
    Tbl.get s.hub.pcu.gangs g = some (lead :: ms) → (lead :: ms).Nodup →
    (∀ m ∈ lead :: ms, (s.hub.pcu.channel m).gang = some g ∧ (s.hub.pcu.channel m).isStaged = true ∧
      (s.hub.pcu.channel m).stagedBy = some credited) →
    let x := s.hub.pcu.channel lead
    let after := s.hub.transferred (lead :: ms) (fun _ => credited)
      (fun m =>
        let y := s.hub.pcu.channel m
        if m ∈ lead :: ms then y.settled y.commandedGain y.commandedPad else y) []
    (crosses (Tbl.get s.hub.pcu.before lead) (Tbl.get s.hub.pcu.samples lead) = true →
      x.transferDeadline ≠ some (later s.hub.now 2400) → exec (.zeroCrossing lead) s = .next (s.withHub after)) ∧
    (∀ t, x.transferDeadline = some t → reached s.hub.now t = true →
      exec (.transferTimeout lead) s = .next (s.withHub after)) ∧
    (∀ m ∈ ms, exec (.zeroCrossing m) s = .next s ∧ exec (.transferTimeout m) s = .next s)) ∧
  (∀ (who : Requester) (tag : Byte) (c : Chan) (ms : List Chan) (gain : Option Nat) (pad : Option Bool) (s : State),
    Free who s.hub → (∀ g, gain = some g → g ≤ 127) → (gain ≠ none ∨ pad ≠ none) → s.hub.pcu.MovesWith c ms →
    (∃ m ∈ ms, (s.hub.pcu.channel m).inTransition = true) →
    (∀ m ∈ ms, s.hub.arb.permission who (Chan.res m) = .permitted) →
    let delta : Int := (gain.getD (s.hub.pcu.channel c).commandedGain : Int) - (s.hub.pcu.channel c).commandedGain
    (∀ m ∈ ms, gain ≠ none → 0 ≤ (s.hub.pcu.channel m).commandedGain + delta ∧
      (s.hub.pcu.channel m).commandedGain + delta ≤ 127) →
    let padField := pad.map fun b => if b then 1 else 0
    exec (.setInput who tag (c.1 + 1) gain padField none none) s = .next (s.withHub (answerTo who .done []
      ((s.hub.taken who tag (.setInput (c.1 + 1) gain padField none none)).transferred ms (fun _ => who)
        (fun m =>
          let y := s.hub.pcu.channel m
          if m ∈ ms then y.settled (y.commandedGain + delta).toNat (pad.getD y.commandedPad) else y) [])))) ∧
  (∀ (who : Requester) (tag : Byte) (c : Chan) (ms : List Chan) (credited : Requester) (on : Bool) (s : State),
    Free who s.hub → s.hub.arb.permission who (Chan.res c) = .permitted → s.hub.pcu.MovesWith c ms →
    (∀ m ∈ ms, (s.hub.pcu.channel m).isStaged = true ∧ (s.hub.pcu.channel m).stagedBy = some credited) →
    let call := Call.setInput (c.1 + 1) none none none (some (if on then 1 else 0))
    let starts : PhantomState → Nat → Prop := fun st frames =>
      exec (.setInput who tag (c.1 + 1) none none none (some (if on then 1 else 0))) s = .next (s.withHub
        (answerTo who .done [] ((s.hub.taken who tag call).transferred ms (fun _ => credited)
          (fun m =>
            let x := s.hub.pcu.channel m
            let y := if m = c then { x with
              phantomTarget := on, phantomState := st, phantomTimer := some (later s.hub.now frames) } else x
            if m ∈ ms then y.settled y.commandedGain y.commandedPad else y)
          [.phantomState c st on])))
    (on = false → (s.hub.pcu.channel c).phantomState = .on → starts .discharging 38400) ∧
    (on = true → (s.hub.pcu.channel c).phantomState = .off → s.hub.pcu.phantomQueue = [] → s.hub.pcu.charging < 8 →
      starts .charging 19200))

/-- Expiry of a charge timer: the channel is ON with no timer and PHANTOM_STATE is sent; with a queue behind 8
charging channels its head then starts charging, with its own PHANTOM_STATE, and what is staged on it or its gang
transfers in the same event, behind the two. Expiry of a discharge timer: the channel is OFF with no timer, its target
untouched, PHANTOM_STATE is sent and the queue is not served. -/
def Obligations.PhantomTimersExpire : Prop :=
  (∀ (c : Chan) (t : Frame) (s : State), (s.hub.pcu.channel c).phantomState = .charging →
      (s.hub.pcu.channel c).phantomTimer = some t → reached s.hub.now t = true →
      let h := s.hub
      let x := h.pcu.channel c
      let p := h.pcu.setChannel c { x with phantomState := .on, phantomTimer := none }
      (h.pcu.phantomQueue = [] → exec (.chargeExpiry c) s = .next (s.withHub
        (notifyAll (.phantomState c .on x.phantomTarget) { h with pcu := p }))) ∧
      (∀ q qs, h.pcu.phantomQueue = q :: qs → h.pcu.charging = 8 → (h.pcu.channel q).phantomState = .queued →
        h.pcu.groupStaged q = false →
        exec (.chargeExpiry c) s = .next (s.withHub
          (notifyAll (.phantomState q .charging (h.pcu.channel q).phantomTarget)
            (notifyAll (.phantomState c .on x.phantomTarget) { h with
              pcu := { p.setChannel q { h.pcu.channel q with
                phantomState := .charging, phantomTimer := some (later h.now 19200) } with phantomQueue := qs } })))) ∧
      (∀ q qs ms credited, h.pcu.phantomQueue = q :: qs → h.pcu.charging = 8 →
        (h.pcu.channel q).phantomState = .queued → h.pcu.MovesWith q ms →
        (∀ m ∈ ms, (h.pcu.channel m).isStaged = true ∧ (h.pcu.channel m).stagedBy = some credited) →
        exec (.chargeExpiry c) s = .next (s.withHub
          (Hub.transferred { h with pcu := { h.pcu with phantomQueue := qs } } ms (fun _ => credited)
            (fun m =>
              let y := h.pcu.channel m
              let z := if m = q then { y with phantomState := .charging, phantomTimer := some (later h.now 19200) }
                else if m = c then { y with phantomState := .on, phantomTimer := none } else y
              if m ∈ ms then z.settled z.commandedGain z.commandedPad else z)
            [.phantomState c .on x.phantomTarget, .phantomState q .charging (h.pcu.channel q).phantomTarget])))) ∧
  (∀ (c : Chan) (t : Frame) (s : State), (s.hub.pcu.channel c).phantomState = .discharging →
      (s.hub.pcu.channel c).phantomTimer = some t → reached s.hub.now t = true →
      let x := s.hub.pcu.channel c
      exec (.dischargeExpiry c) s = .next (s.withHub (notifyAll (.phantomState c .off x.phantomTarget)
        { s.hub with pcu := s.hub.pcu.setChannel c { x with phantomState := .off, phantomTimer := none } })))

/-- SET_GANG of channels with nothing staged that the requester may change: the group takes the list, the gang fields
follow, no other field of a channel changes, SHOW data is reported where the list changed, and the answer is DONE.
Where values are staged they transfer first: the present members, then each listed channel that belongs to no group,
in list order.
Model choice: log entries 12, 42. -/
def Obligations.SetGangTakesTheList : Prop :=
  (∀ (who : Requester) (tag : Byte) (g : Grp) (ns : List Nat) (ms : List Chan) (s : State), Free who s.hub →
    members? ns = some ms → (∀ m ∈ ms, (s.hub.pcu.channel m).gang = none ∨ (s.hub.pcu.channel m).gang = some g) →
    let old := (Tbl.get s.hub.pcu.gangs g).getD []
    (∀ m ∈ old ++ ms, (s.hub.pcu.channel m).isStaged = false ∧
      s.hub.arb.permission who (Chan.res m) = .permitted) →
    let new := if ms = [] then none else some ms
    let after := { s.hub.taken who tag (.setGang (g.1 + 1) ns) with
      pcu := { s.hub.pcu with
        gangs := Tbl.set s.hub.pcu.gangs g new
        channels := Tbl.of fun m =>
          let x := s.hub.pcu.channel m
          if m ∈ ms then { x with gang := some g } else if m ∈ old then { x with gang := none } else x } }
    exec (.setGang who tag (g.1 + 1) ns) s = .next (s.withHub
      (answerTo who .done [] (if Tbl.get s.hub.pcu.gangs g = new then after else showReport after)))) ∧
  (∀ (who : Requester) (tag : Byte) (g : Grp) (ns : List Nat) (ms : List Chan) (credited : Chan → Requester)
    (s : State),
    Free who s.hub → members? ns = some ms →
    (∀ m ∈ ms, (s.hub.pcu.channel m).gang = none ∨ (s.hub.pcu.channel m).gang = some g) →
    let old := (Tbl.get s.hub.pcu.gangs g).getD []
    old.Nodup → (∀ m ∈ old, (s.hub.pcu.channel m).gang = some g) →
    (∀ m ∈ old ++ ms, s.hub.arb.permission who (Chan.res m) = .permitted) →
    let moving := (old ++ ms.filter fun m => (s.hub.pcu.channel m).gang.isNone).filter fun m =>
      (s.hub.pcu.channel m).isStaged
    moving ≠ [] → (∀ m ∈ moving, (s.hub.pcu.channel m).stagedBy = some (credited m)) →
    exec (.setGang who tag (g.1 + 1) ns) s = .next (s.withHub (answerTo who .done []
      (Hub.transferred { s.hub.taken who tag (.setGang (g.1 + 1) ns) with
        pcu := { s.hub.pcu with gangs := Tbl.set s.hub.pcu.gangs g (if ms = [] then none else some ms) } }
        moving credited
        (fun m =>
          let x := s.hub.pcu.channel m
          let y := if m ∈ ms then { x with gang := some g } else if m ∈ old then { x with gang := none } else x
          if m ∈ moving then y.settled y.commandedGain y.commandedPad else y) []))))

/-! ## Gain tracking (chapter 2) -/

/-- SET_TRIM by PANEL or the desk itself: the entry takes the trim, and with tracking ON the reference becomes the
effective gain plus the trim; a mark that was set clears with TRACK_LIMIT to the desk; SHOW data is reported where a
stored field changed; another desk is DENIED. SET_TRACKING on a set that is not empty: each entry of it whose tracking
differs is turned ON, its reference the level it has, or OFF, its reference gone and its trim kept; the others stand. -/
def Obligations.TrackingRequestsChangeEntries : Prop :=
  (∀ (who : Requester) (tag : Byte) (d : Desk) (c : Chan) (trim : Int) (s : State), Free who s.hub →
      -48 ≤ trim → trim ≤ 48 →
      let call := Call.setTrim (Desk.num d) (c.1 + 1) trim
      let old := s.hub.pcu.track d c
      let eff := (s.hub.pcu.channel c).effectiveGain
      let new : Track := ⟨old.tracking, trim, if old.tracking then some (eff + trim) else old.reference, false⟩
      let h1 := { s.hub.taken who tag call with pcu := s.hub.pcu.setTrack d c new }
      let h2 := if old.limitMark then notifyDesk d (.trackLimit c false trim new.reference eff) h1 else h1
      (who = .panel ∨ who = d.req → exec (.setTrim who tag (Desk.num d) (c.1 + 1) trim) s = .next (s.withHub
        (answerTo who .done [] (if old.trim = trim ∧ old.reference = new.reference then h2 else showReport h2)))) ∧
      (who ≠ .panel → who ≠ d.req → exec (.setTrim who tag (Desk.num d) (c.1 + 1) trim) s = .next (s.withHub
        (s.hub.answered who tag call .denied [])))) ∧
  (∀ (who : Requester) (tag : Byte) (d : Desk) (set : BitSet 72) (on : Bool) (s : State), Free who s.hub →
      (∃ c, Tbl.get set c = true) → (who = .panel ∨ who = d.req) →
      (∀ c, -48 ≤ (s.hub.pcu.track d c).trim ∧ (s.hub.pcu.track d c).trim ≤ 48) →
      ∃ t, exec (.setTracking who tag (Desk.num d) set (if on then 0 else 1)) s = .next t ∧
        (∀ c, t.hub.pcu.track d c =
          let x := s.hub.pcu.track d c
          if Tbl.get set c = true ∧ x.tracking ≠ on then
            if on then ⟨true, x.trim, some ((s.hub.pcu.channel c).effectiveGain + x.trim), false⟩
            else ⟨false, x.trim, none, false⟩
          else x) ∧
        (∀ e c, e ≠ d → t.hub.pcu.track e c = s.hub.pcu.track e c) ∧ t.hub.pcu.channels = s.hub.pcu.channels ∧
        t.hub.answerOf who = some ⟨0x05#8, tag, (s.hub.req.queues.get who).discarded, .done, []⟩ ∧
        t.hub.arb = s.hub.arb ∧ t.hub.links = s.hub.links ∧ t.hub.mon = s.hub.mon ∧ t.hub.tbk = s.hub.tbk)

/-- A slot of a downstream frame is the zero word while the channel is muted, the sample unchanged at a trim of 0.0
dB, and twice the sample within the 24-bit range at +6.0 dB; at any other trim of t half decibels it is the number
nearest to the sample times 10^(t/40), within the range (log entry 10). The sample of an output is the zero word while
its enable is off, its source's sample at full fade without duck and talker, the talk sample alone where nothing is
carried, the sum within the 24-bit range, and at a duck of k whole dB the number nearest to the sample times
10^(-k/20) (log entry 10). The samples of a period are formed from the Output Table as it stands, enable and talker
from the period's start.
Model choice: log entries 8, 10. -/
def Obligations.SamplesOfAPeriod : Prop :=
  (∀ (p : Pcu) (d : Desk) (c : Chan),
      ((p.channel c).inTransition = true → inputSlot p d c = 0#24) ∧
      ((p.channel c).inTransition = false → (p.track d c).trim = 0 → inputSlot p d c = Tbl.get p.samples c) ∧
      ((p.channel c).inTransition = false → (p.track d c).trim = 12 →
        (inputSlot p d c).toInt = max (-8388608) (min 8388607 (2 * (Tbl.get p.samples c).toInt))) ∧
      (∀ t : Int, (p.channel c).inTransition = false → (p.track d c).trim = t → -48 ≤ t → t ≤ 48 → t ≠ 12 →
        let x := (Tbl.get p.samples c).toInt
        let y := (inputSlot p d c).toInt
        let n := y.natAbs
        (0 ≤ x → 0 ≤ y) ∧ (x ≤ 0 → y ≤ 0) ∧
        (2 * n - 1) ^ 40 * 10 ^ (-t).toNat ≤ (2 * x.natAbs) ^ 40 * 10 ^ t.toNat ∧
        (n < 8388607 → (2 * x.natAbs) ^ 40 * 10 ^ t.toNat ≤ (2 * n + 1) ^ 40 * 10 ^ (-t).toNat))) ∧
  (∀ (delivered : Desk → Option Entry) (o : Output),
      (o.enable = false → o.sample delivered = 0#24) ∧
      (∀ src e, o.enable = true → o.carried = some src → delivered src.link = some e → o.fade = Config.fadeFull →
        o.duck = 0 → o.talker = none → o.sample delivered = Tbl.get e.slots src.slot) ∧
      (∀ d e, o.enable = true → o.carried = none → o.talker = some d → delivered d = some e →
        o.sample delivered = e.talk) ∧
      (∀ src e d f, o.enable = true → o.carried = some src → delivered src.link = some e → o.fade = Config.fadeFull →
        o.duck = 0 → o.talker = some d → delivered d = some f → (o.sample delivered).toInt =
          max (-8388608) (min 8388607 ((Tbl.get e.slots src.slot).toInt + f.talk.toInt))) ∧
      (∀ src e k, o.enable = true → o.carried = some src → delivered src.link = some e → o.fade = Config.fadeFull →
        o.duck = k * Config.duckPerDb → k ≤ 30 → o.talker = none →
        let x := (Tbl.get e.slots src.slot).toInt
        let y := (o.sample delivered).toInt
        let n := y.natAbs
        (0 ≤ x → 0 ≤ y) ∧ (x ≤ 0 → y ≤ 0) ∧
        (2 * n - 1) ^ 20 * 10 ^ k ≤ (2 * x.natAbs) ^ 20 ∧ (2 * x.natAbs) ^ 20 ≤ (2 * n + 1) ^ 20 * 10 ^ k)) ∧
  (∀ (h : Hub) (i : Out),
      let v := Tbl.get h.mon.view i
      Tbl.get (outputSamples h).mon.port i =
        ({ h.mon.output i with enable := v.enable, talker := v.talker } : Output).sample
          fun d => (h.links.get d).delivered)

/-! ## Claims (chapter 3) -/

/-- The permission verdict is the one its table gives for the record's state and holder; it is read from the record
alone. -/
def Obligations.PermissionVerdictTable : Prop :=
  ∀ (x : Arb) (who : Requester) (r : Res),
    (x.claim r = .opened → x.permission who r = .permitted) ∧
    (∀ t cs, x.claim r = .contended t cs → x.permission who r = .permitted) ∧
    (∀ l, x.claim r = .held who l → x.permission who r = .permitted) ∧
    (∀ holder l, x.claim r = .held holder l → holder ≠ who → x.permission who r = .refusedHeld holder l) ∧
    (∀ d l t, x.claim r = .orphaned d l t → x.permission who r = .refusedOrphaned)

/-- What CLAIM, RELEASE and OVERRIDE do to one record, by the record as found (Tables 3-4 and 3-5); and the winner of
a resolve window: the contender of the highest priority, among equals the one nearest the head. -/
def Obligations.ClaimRecordTables : Prop :=
  (∀ (now : Frame) (window : Nat) (who h : Requester) (l hl : Level) (d : Desk) (t : Frame) (o : Option Frame)
      (cs : List (Requester × Level)),
      claimRecord now 0 who l .opened = (.held who l, some .done) ∧
      (0 < window → claimRecord now window who l .opened = (.contended (later now window) [(who, l)], none)) ∧
      ((∀ e ∈ cs, e.1 ≠ who) →
        claimRecord now window who l (.contended t cs) = (.contended t (cs ++ [(who, l)]), none)) ∧
      ((∃ e ∈ cs, e.1 = who) → claimRecord now window who l (.contended t cs) =
        (.contended t (cs.map fun e => if e.1 = who then (who, l) else e), none)) ∧
      claimRecord now window who l (.held who hl) = (.held who l, some .done) ∧
      (h ≠ who → claimRecord now window who l (.held h hl) =
        (.held h hl, some (match hl with | .shared => .held | .exclusive => .exclusive))) ∧
      claimRecord now window who l (.orphaned d hl o) = (.orphaned d hl o, some .orphaned) ∧
      releaseRecord who (.held who hl) = (.opened, .done) ∧
      (h ≠ who → releaseRecord who (.held h hl) = (.held h hl, .notHolder)) ∧
      releaseRecord who .opened = (.opened, .notHolder) ∧
      releaseRecord who (.contended t cs) = (.contended t cs, .notHolder) ∧
      releaseRecord who (.orphaned d hl o) = (.orphaned d hl o, .notHolder) ∧
      overrideRecord who .opened = (.held who .shared, .done, none) ∧
      overrideRecord who (.contended t cs) = (.held who .shared, .done, none) ∧
      overrideRecord who (.held who hl) = (.held who hl, .done, none) ∧
      (h ≠ who → overrideRecord who (.held h .shared) = (.held who .shared, .done, some h)) ∧
      (h ≠ who → overrideRecord who (.held h .exclusive) = (.held h .exclusive, .exclusive, none)) ∧
      overrideRecord who (.orphaned d .shared o) = (.held who .shared, .done, some d.req) ∧
      overrideRecord who (.orphaned d .exclusive o) = (.orphaned d .exclusive o, .exclusive, none)) ∧
  (∀ (priority : PerReq Nat) (cs : List (Requester × Level)), cs ≠ [] →
      ∃ before w behind, cs = before ++ w :: behind ∧ winnerOf priority cs = some w ∧
        (∀ e ∈ before, priority.get e.1 < priority.get w.1) ∧ (∀ e ∈ behind, priority.get e.1 ≤ priority.get w.1))

/-- CLAIM in range under a clear freeze: each named record moves as Table 3-4 states and no other record does,
CLAIM_CHANGED being sent; with every outcome decided the answer is DONE with the outcomes in list order, otherwise the
claim is pending and no answer is sent yet. -/
def Obligations.ClaimDecidesEachResource : Prop :=
  ∀ (who : Requester) (tag : Byte) (ns : List Nat) (rs : List Res) (n : Nat) (l : Level) (s : State), Free who s.hub →
    resources? ns = some rs → level? n = some l → s.hub.arb.frozen = false →
    ∃ t, exec (.claim who tag ns n) s = .next t ∧
      let record := fun r => claimRecord s.hub.now s.hub.sto.install.windowFrames who l (s.hub.arb.claim r)
      (∀ r, t.hub.arb.claim r = if r ∈ rs then (record r).1 else s.hub.arb.claim r) ∧
      t.hub.arb.frozen = false ∧
      ((∀ r ∈ rs, (record r).2 ≠ none) → t.hub.arb.pendingClaims.get who = none ∧
        t.hub.answerOf who = some ⟨0x07#8, tag, (s.hub.req.queues.get who).discarded, .done,
          outcomeBody (rs.map fun r => ((record r).2).getD .done)⟩) ∧
      ((∃ r ∈ rs, (record r).2 = none) → t.hub.answerOf who = none ∧
        t.hub.arb.pendingClaims.get who = some (rs.map fun r => (r, (record r).2))) ∧
      t.hub.NoticesOf (notifyEach (claimChanges s.hub.arb t.hub.arb) s.hub) ∧
      t.hub.pcu = s.hub.pcu ∧ t.hub.links = s.hub.links ∧ t.hub.hlm = s.hub.hlm ∧ t.hub.mon = s.hub.mon ∧
      t.hub.tbk = s.hub.tbk

/-- RELEASE in range under a clear freeze: each named resource moves by its table, CLAIM_CHANGED is sent for the
records changed and nothing else changes. OVERRIDE in range by a supervisor: each named record moves by its table and
no other record does; CLAIM_CHANGED is sent, then to each former holder one CLAIM_LOST with what it lost in resource
order, to a desk only while its link is UP, and then a pending claim that has lost its last open outcome is answered,
DONE with its outcomes. Both are DONE with one outcome per resource in list order.
Model choice: log entry 22. -/
def Obligations.ReleaseAndOverride : Prop :=
  (∀ (who : Requester) (tag : Byte) (ns : List Nat) (rs : List Res) (s : State), Free who s.hub →
      resources? ns = some rs → s.hub.arb.frozen = false →
      let arb := { s.hub.arb with claims := Tbl.of fun r =>
        if r ∈ rs then (releaseRecord who (s.hub.arb.claim r)).1 else s.hub.arb.claim r }
      exec (.release who tag ns) s = .next (s.withHub
        (answerTo who .done (outcomeBody (rs.map fun r => (releaseRecord who (s.hub.arb.claim r)).2))
          (notifyEach (claimChanges s.hub.arb arb) { s.hub.taken who tag (.release ns) with arb := arb })))) ∧
  (∀ (who : Requester) (tag : Byte) (ns : List Nat) (rs : List Res) (s : State), Free who s.hub →
      resources? ns = some rs → s.hub.arb.frozen = false → s.hub.sto.install.supervisor.get who = true →
      s.hub.arb.pendingClaims.get who = none →
      let lost : Requester → List Res := fun f => (List.finRange 104).filter fun r =>
        decide (r ∈ rs ∧ (overrideRecord who (s.hub.arb.claim r)).2.2 = some f)
      ∃ t, exec (.override who tag ns) s = .next t ∧
        (∀ r, t.hub.arb.claim r =
          if r ∈ rs then (overrideRecord who (s.hub.arb.claim r)).1 else s.hub.arb.claim r) ∧
        t.hub.answerOf who = some ⟨0x09#8, tag, (s.hub.req.queues.get who).discarded, .done,
          outcomeBody (rs.map fun r => (overrideRecord who (s.hub.arb.claim r)).2.1)⟩ ∧
        let told := [.a, .b, .c, .panel].foldl
          (fun h f => if lost f = [] then h else notifyRequester f (.claimLost (lost f) who) h)
          (notifyEach (claimChanges s.hub.arb t.hub.arb) s.hub)
        t.hub.NoticesOf told ∧
        (∀ y pc, y ≠ who → s.hub.arb.pendingClaims.get y = some pc →
          t.hub.ClaimAnswered s.hub told y (pc.map fun e =>
            if e.1 ∈ rs ∧ e.2 = none ∧ ∃ x ∈ (s.hub.arb.claim e.1).contenders, x.1 = y then
              (e.1, some .lostArbitration)
            else e)) ∧
        t.hub.arb.frozen = false ∧ t.hub.pcu = s.hub.pcu ∧ t.hub.links = s.hub.links ∧ t.hub.hlm = s.hub.hlm ∧
        t.hub.mon = s.hub.mon ∧ t.hub.tbk = s.hub.tbk)

/-- WINDOW_EXPIRY: every contended resource whose deadline is reached is held by its winner at the winner's level, no
other record changes, CLAIM_CHANGED is sent, and a pending claim takes DONE or LOST_ARBITRATION for each resource
decided; one that is complete is then answered DONE with its outcomes, and removed. GRACE_EXPIRY of a desk: its
orphans whose deadline is reached open, with CLAIM_CHANGED, and nothing else changes.
Model choice: log entry 15. -/
def Obligations.ClaimTimersExpire : Prop :=
  (∀ (s : State), ∃ t, exec .windowExpiry s = .next t ∧
      let winner : Res → Option (Requester × Level) := fun r =>
        match s.hub.arb.claim r with
        | .contended dl cs => if reached s.hub.now dl then winnerOf s.hub.sto.install.priority cs else none
        | _ => none
      (∀ r, t.hub.arb.claim r = match winner r with | some (w, l) => .held w l | none => s.hub.arb.claim r) ∧
      let told := notifyEach (claimChanges s.hub.arb t.hub.arb) s.hub
      t.hub.NoticesOf told ∧
      (∀ who pc, s.hub.arb.pendingClaims.get who = some pc →
        t.hub.ClaimAnswered s.hub told who (pc.map fun e =>
          match winner e.1 with
          | none => e
          | some (w, _) =>
            if e.2 = none ∧ ∃ x ∈ (s.hub.arb.claim e.1).contenders, x.1 = who then
              (e.1, some (if who = w then .done else .lostArbitration))
            else e)) ∧
      t.hub.arb.frozen = s.hub.arb.frozen ∧ t.hub.pcu = s.hub.pcu ∧ t.hub.links = s.hub.links ∧
      t.hub.hlm = s.hub.hlm ∧ t.hub.mon = s.hub.mon ∧ t.hub.tbk = s.hub.tbk ∧ t.hub.sto = s.hub.sto) ∧
  (∀ (d : Desk) (s : State),
      let graceOver : Claim → Claim := fun c =>
        match c with
        | .orphaned o l (some t) => if o = d ∧ reached s.hub.now t = true then .opened else .orphaned o l (some t)
        | c => c
      let arb := { s.hub.arb with claims := Tbl.of fun r => graceOver (s.hub.arb.claim r) }
      exec (.graceExpiry d) s = .next (s.withHub
        (notifyEach (claimChanges s.hub.arb arb) { s.hub with arb := arb })))

/-- FREEZE by a supervisor while the freeze is clear: every contended resource goes to its winner, every orphan
deadline is removed, every other record stands, the flag is set, CLAIM_CHANGED and then FREEZE_SET with the requester
are sent, the pending claims being answered between the two as at window expiry, and the answer is DONE. -/
def Obligations.FreezeFixesTheTable : Prop :=
  ∀ (who : Requester) (tag : Byte) (s : State), Free who s.hub → s.hub.sto.install.supervisor.get who = true →
    s.hub.arb.frozen = false → s.hub.arb.pendingClaims.get who = none →
    ∃ t, exec (.freeze who tag) s = .next t ∧ t.hub.arb.frozen = true ∧
      let winner : Res → Option (Requester × Level) := fun r =>
        match s.hub.arb.claim r with
        | .contended _ cs => winnerOf s.hub.sto.install.priority cs
        | _ => none
      (∀ r, t.hub.arb.claim r = match winner r, s.hub.arb.claim r with
        | some (w, l), _ => .held w l
        | none, .orphaned d l _ => .orphaned d l none
        | none, c => c) ∧
      let told := notifyEach (claimChanges s.hub.arb t.hub.arb) s.hub
      t.hub.NoticesOf (notifyAll (.freezeSet who) told) ∧
      (∀ y pc, y ≠ who → s.hub.arb.pendingClaims.get y = some pc →
        t.hub.ClaimAnswered s.hub told y (pc.map fun e =>
          match winner e.1 with
          | none => e
          | some (w, _) =>
            if e.2 = none ∧ ∃ x ∈ (s.hub.arb.claim e.1).contenders, x.1 = y then
              (e.1, some (if y = w then .done else .lostArbitration))
            else e)) ∧
      t.hub.answerOf who = some ⟨0x0A#8, tag, (s.hub.req.queues.get who).discarded, .done, []⟩ ∧
      t.hub.pcu = s.hub.pcu ∧ t.hub.links = s.hub.links ∧ t.hub.hlm = s.hub.hlm ∧ t.hub.mon = s.hub.mon ∧
      t.hub.tbk = s.hub.tbk

/-! ## Lanes and links (chapter 4) -/

/-- UPSTREAM_FRAME on a lane in sync whose link has no test. The AUDIO frame of the number due with its CRC right
clears bad_run, enters the alignment buffer and counts towards qualification while the lane counts and the skew
allows. Any other frame adds 1 to bad_run up to 8, starts a qualification again and adds 1 to CRC_ERRORS. With the
verdict as it was, nothing else changes. On an ACQUIRING lane an AUDIO frame with its CRC right extends the run by the
next number, or begins it anew at 1; any other frame sets it to 0. A frame that is missing is recorded as one whose
CRC fails, once in a period. That the lane stands with bad_run 8, with qualifyDue or with a run of 4 until the row of
FRAME_LOSS, of qualification or of acquisition is the model's choice.
Model choice: log entries 5, 6, 27, 37. -/
def Obligations.FrameResultsOfALaneInSync : Prop :=
  (∀ (l : LaneId) (bytes : List Byte) (f : UpFrame) (lat : Frame) (s : State), (s.hub.lane l).arrived = false →
      (s.hub.lane l).latency = some lat → (s.hub.lane l).state ≠ .testing → s.hub.hlm.tests.get l.link = none →
      parseUp bytes = some f → f.number = s.hub.now - lat → f.pattern = false →
      let r := s.hub.lane l
      let stay := (s.hub.lane (otherLane l)).trusted && decide (32 < (s.hub.links.get l.link).skew)
      let count := if stay then 0 else r.qualifyCount + 1
      exec (.upstreamFrame l bytes) s = .next (s.withHub (s.hub.setLane l { r with
        arrived := true
        rx := some f
        badRun := 0
        buffer := (r.buffer.filter fun g => decide ((f.number - g.number).toNat < 32)) ++ [f]
        qualifyCount := if r.counting then count else r.qualifyCount
        qualifyDue := r.counting && decide (qualifyLength s.hub l ≤ count) }))) ∧
  (∀ (l : LaneId) (bytes : List Byte) (lat : Frame) (s : State), (s.hub.lane l).arrived = false →
      (s.hub.lane l).latency = some lat → (s.hub.lane l).state ≠ .testing → s.hub.hlm.tests.get l.link = none →
      (∀ f, parseUp bytes = some f → f.number ≠ s.hub.now - lat ∨ f.pattern = true) →
      let r := s.hub.lane l
      let x := laneGet s.hub.hlm.health l
      let counters := { x.counters with crcErrors := min 65535 (x.counters.crcErrors + 1) }
      x.counters.frameLosses ≤ 65535 → x.counters.lightLosses ≤ 65535 → x.counters.slips ≤ 65535 →
      x.counters.testErrors ≤ 65535 → verdictOf s.hub.sto.install.thresholds counters = x.verdict →
      exec (.upstreamFrame l bytes) s = .next (s.withHub ((s.hub.setLane l { r with
        arrived := true
        rx := parseUp bytes
        badRun := min 8 (r.badRun + 1)
        buffer := r.buffer.filter fun g => decide ((s.hub.now - lat - g.number).toNat < 32)
        qualifyCount := if r.counting then 0 else r.qualifyCount
        qualifyDue := false }).setHealth l { x with counters := counters }))) ∧
  (∀ (l : LaneId) (bytes : List Byte) (s : State), (s.hub.lane l).arrived = false → (s.hub.lane l).latency = none →
      (s.hub.lane l).state = .acquiring →
      let r := s.hub.lane l
      let run : Nat → Frame → Prop := fun n number => exec (.upstreamFrame l bytes) s = .next (s.withHub (s.hub.setLane l
        { r with arrived := true, rx := parseUp bytes, acquireRun := n, runNumber := number }))
      (∀ f, parseUp bytes = some f → f.pattern = false → 0 < r.acquireRun → f.number = r.runNumber + 1#32 →
        run (min 4 (r.acquireRun + 1)) f.number) ∧
      (∀ f, parseUp bytes = some f → f.pattern = false → r.acquireRun = 0 ∨ f.number ≠ r.runNumber + 1#32 →
        run 1 f.number) ∧
      (parseUp bytes = none ∨ (∃ f, parseUp bytes = some f ∧ f.pattern = true) → run 0 r.runNumber)) ∧
  (∀ (l : LaneId) (bytes : List Byte) (s : State),
      ((s.hub.lane l).arrived = true → exec (.upstreamFrame l bytes) s = .next s ∧ missingFrame l s.hub = s.hub) ∧
      (parseUp bytes = none → exec (.upstreamFrame l bytes) s = .next (s.withHub (missingFrame l s.hub))) ∧
      ((missingFrame l s.hub).lane l).arrived = true)

/-- ACQUISITION_COMPLETE at a run of 4. On a DOWN or UP link, with a skew the partner allows, the lane enters
QUALIFYING with the latency of the frame, counts 0 and the frame in its buffer, reported by LANE_STATE; a skew of more
than 32 frames against a trusted partner starts the run again at 1. On a link in HOLDOVER the link returns to UP on
the lane, provisional, with 8 zero entries buffered and the rescue and repeat counts kept; a desk's orphans are held
by it again, and the outputs take the link's entry to UP; LANE_STATE, LINK_STATE, CLAIM_RESTORED and OUTPUT_STATE are
sent.
Model choice: log entries 6, 23. -/
def Obligations.AcquisitionCompletes : Prop :=
  (∀ (l : LaneId) (f : UpFrame) (s : State), (s.hub.lane l).state = .acquiring → 4 ≤ (s.hub.lane l).acquireRun →
      (s.hub.lane l).rx = some f → (s.hub.links.get l.link).state ≠ .holdover →
      let r := s.hub.lane l
      let lat := s.hub.now - f.number
      let tooFar := ∃ x, (s.hub.lane (otherLane l)).latency = some x ∧ (s.hub.lane (otherLane l)).trusted = true ∧
        32 < latencyDistance lat x
      (tooFar → exec (.acquisitionComplete l) s =
        .next (s.withHub (s.hub.setLane l { r with acquireRun := 1, runNumber := f.number }))) ∧
      (¬tooFar →
        let h1 := s.hub.setLane l { r with
          state := .qualifying, latency := some lat, qualifyCount := 0, badRun := 0, qualified := false, buffer := [f]
          qualifyDue := false }
        exec (.acquisitionComplete l) s = .next (s.withHub
          (notifyDeskPanel l.link (.laneState l .qualifying false (h1.links.get l.link).skew) h1)))) ∧
  (∀ (l : LaneId) (f : UpFrame) (s : State), (s.hub.lane l).state = .acquiring → 4 ≤ (s.hub.lane l).acquireRun →
      (s.hub.lane l).rx = some f → (s.hub.links.get l.link).state = .holdover →
      (s.hub.lane (otherLane l)).trusted = false →
      let k := s.hub.links.get l.link
      let restored : Level → List Notice := fun level =>
        (cut 16 7 ((List.finRange 104).filter fun r =>
          decide ((s.hub.arb.claim r).state = .orphaned ∧ (s.hub.arb.claim r).holder = some l.link.req ∧
            (s.hub.arb.claim r).level = some level))).map (Notice.claimRestored l.link level)
      ∃ t, exec (.acquisitionComplete l) s = .next t ∧
        (t.hub.links.get l.link).state = .up ∧ (t.hub.links.get l.link).activeLane = some l.side ∧
        (t.hub.links.get l.link).provisional = true ∧ (t.hub.links.get l.link).holdoverDeadline = none ∧
        (t.hub.links.get l.link).nextTake = some (f.number + 1#32) ∧
        (t.hub.links.get l.link).returnBuffer = List.replicate 8 Entry.zero ∧
        (t.hub.links.get l.link).rescuedFrames = k.rescuedFrames ∧
        (t.hub.links.get l.link).repeatedFrames = k.repeatedFrames ∧
        (t.hub.lane l).state = .active ∧ (t.hub.lane l).qualified = false ∧ (t.hub.lane l).qualifyCount = 0 ∧
        (t.hub.lane l).latency = some (s.hub.now - f.number) ∧
        t.hub.lane (otherLane l) = s.hub.lane (otherLane l) ∧
        (∀ d, d ≠ l.link → t.hub.links.get d = s.hub.links.get d) ∧ t.hub.pcu = s.hub.pcu ∧ t.hub.hlm = s.hub.hlm ∧
        t.hub.tbk = s.hub.tbk ∧ t.hub.sto = s.hub.sto ∧
        (∀ r level o, s.hub.arb.claim r = .orphaned l.link level o → t.hub.arb.claim r = .held l.link.req level) ∧
        (∀ r, (∀ level o, s.hub.arb.claim r ≠ .orphaned l.link level o) → t.hub.arb.claim r = s.hub.arb.claim r) ∧
        (∀ i, t.hub.mon.output i =
          ((s.hub.mon.output i).linkEnters t.hub.linkUp).startRevert s.hub.now s.hub.sto.install.revertDelay
            t.hub.linkUp) ∧
        t.hub.NoticesOf (notifyEach
          (.linkState l.link .up (some l.side) true :: (restored .shared ++ restored .exclusive ++
            outputChanges false s.hub.mon.outputs t.hub.mon.outputs))
          (notifyDeskPanel l.link (.laneState l .active false (t.hub.links.get l.link).skew)
            { s.hub with links := t.hub.links })))

/-- QUALIFICATION_COMPLETE at the qualify length, on a link with no test: a QUALIFYING lane of an UP link becomes
READY, the ACTIVE lane qualified; a QUALIFYING lane of a DOWN link brings it UP, its counts at 0 and 8 zero entries
buffered, the desk's orphans held by it again and the outputs taking the link's entry to UP. LANE_STATE is sent,
LINK_STATE where the link's record changed, then CLAIM_RESTORED, SHARED before EXCLUSIVE, and OUTPUT_STATE.
Model choice: log entries 6, 23. -/
def Obligations.QualificationCompletes : Prop :=
  ∀ (l : LaneId) (s : State), (s.hub.lane l).qualifyDue = true → s.hub.hlm.tests.get l.link = none →
    let k := s.hub.links.get l.link
    let done := exec (.qualificationComplete l) s
    let restored : Level → List Notice := fun level =>
      (cut 16 7 ((List.finRange 104).filter fun r =>
        decide ((s.hub.arb.claim r).state = .orphaned ∧ (s.hub.arb.claim r).holder = some l.link.req ∧
          (s.hub.arb.claim r).level = some level))).map (Notice.claimRestored l.link level)
    (k.state = .up → (s.hub.lane l).state = .qualifying → ∃ t, done = .next t ∧
      t.hub.lane l = { s.hub.lane l with state := .ready, qualified := true, qualifyDue := false } ∧
      t.hub.lane (otherLane l) = s.hub.lane (otherLane l) ∧ (t.hub.links.get l.link).activeLane = k.activeLane ∧
      t.hub.NoticesOf (notifyDeskPanel l.link (.laneState l .ready true k.skew) s.hub) ∧
      t.hub.mon = s.hub.mon ∧ t.hub.arb = s.hub.arb) ∧
    (k.state = .up → (s.hub.lane l).state = .active → (s.hub.lane l).qualified = false → ∃ t, done = .next t ∧
      t.hub.lane l = { s.hub.lane l with qualified := true, qualifyDue := false } ∧
      (t.hub.links.get l.link).provisional = false ∧ (t.hub.links.get l.link).activeLane = k.activeLane ∧
      (k.provisional = true → t.hub.NoticesOf (notifyAll (.linkState l.link .up k.activeLane false)
        (notifyDeskPanel l.link (.laneState l .active true k.skew) s.hub))) ∧
      t.hub.mon = s.hub.mon ∧ t.hub.arb = s.hub.arb) ∧
    (∀ lat, k.state = .down → (s.hub.lane l).state = .qualifying → (s.hub.lane l).latency = some lat →
      ∃ t, done = .next t ∧ (t.hub.links.get l.link).state = .up ∧
        (t.hub.links.get l.link).activeLane = some l.side ∧ (t.hub.links.get l.link).provisional = false ∧
        (t.hub.links.get l.link).nextTake = some (s.hub.now + 1#32 - lat) ∧
        (t.hub.links.get l.link).rescuedFrames = 0 ∧ (t.hub.links.get l.link).repeatedFrames = 0 ∧
        (t.hub.links.get l.link).returnBuffer = List.replicate 8 Entry.zero ∧
        t.hub.lane l = { s.hub.lane l with state := .active, qualified := true, qualifyDue := false } ∧
        (∀ d, d ≠ l.link → t.hub.links.get d = s.hub.links.get d) ∧
        (∀ r level o, s.hub.arb.claim r = .orphaned l.link level o → t.hub.arb.claim r = .held l.link.req level) ∧
        (∀ r, (∀ level o, s.hub.arb.claim r ≠ .orphaned l.link level o) → t.hub.arb.claim r = s.hub.arb.claim r) ∧
        (∀ i, t.hub.mon.output i =
          ((s.hub.mon.output i).linkEnters t.hub.linkUp).startRevert s.hub.now s.hub.sto.install.revertDelay
            t.hub.linkUp) ∧
        t.hub.NoticesOf (notifyEach
          (.linkState l.link .up (some l.side) false :: (restored .shared ++ restored .exclusive ++
            outputChanges false s.hub.mon.outputs t.hub.mon.outputs))
          (notifyDeskPanel l.link (.laneState l .active true (t.hub.links.get l.link).skew)
            { s.hub with links := t.hub.links })))

/-- The fault of a lane that is not the active one, on a link with no test, by FRAME_LOSS at 8 bad frames or by
LIGHT_LOSS: the lane loses sync for ACQUIRING or DARK, the fault is counted and captured with the frame and the state
before it, and nothing else of any link record or lane changes. At LIGHT_LOSS, with the other lane's frame of the
period there, a lane in sync without its own has its bad result first, and a FRAME_LOSS that this makes due.
LIGHT_LOSS of any lane is that of the part with the results of its link's period recorded, lane P's and then lane S's,
missing frames included.
Model choice: log entries 4, 6. -/
def Obligations.FaultOfAnIdleLane : Prop :=
  (∀ (l : LaneId) (s : State), s.hub.hlm.tests.get l.link = none →
    (s.hub.links.get l.link).activeLane ≠ some l.side →
    let r := s.hub.lane l
    let x := laneGet s.hub.hlm.health l
    let lost : LaneState → LaneRec := fun st => { r with
      state := st, latency := none, acquireRun := 0, badRun := 0, qualifyCount := 0
      qualified := false, buffer := [], rx := none, qualifyDue := false }
    (r.latency ≠ none → 8 ≤ r.badRun → ∃ t, exec (.frameLoss l) s = .next t ∧
      t.hub.links = (s.hub.setLane l (lost .acquiring)).links ∧
      (laneGet t.hub.hlm.health l).counters.frameLosses = min 65535 (x.counters.frameLosses + 1) ∧
      (laneGet t.hub.hlm.health l).capture = some ⟨.frameLoss, s.hub.now, r.state⟩ ∧
      t.hub.mon = s.hub.mon ∧ t.hub.arb = s.hub.arb ∧ t.hub.tbk = s.hub.tbk ∧ t.hub.pcu = s.hub.pcu) ∧
    (r.light = true → r.state ≠ .dark → (s.hub.lane (otherLane l)).arrived = true →
      let missing := r.arrived = false ∧ r.latency ≠ none
      let unframed := r.latency ≠ none ∧ 8 ≤ (if r.arrived then r.badRun else r.badRun + 1)
      ∃ t, exec (.lightLoss l) s = .next t ∧
      t.hub.links = (s.hub.setLane l { lost .dark with light := false, arrived := true }).links ∧
      (laneGet t.hub.hlm.health l).counters.crcErrors =
        min 65535 (x.counters.crcErrors + if missing then 1 else 0) ∧
      (laneGet t.hub.hlm.health l).counters.frameLosses =
        min 65535 (x.counters.frameLosses + if unframed then 1 else 0) ∧
      (laneGet t.hub.hlm.health l).counters.lightLosses = min 65535 (x.counters.lightLosses + 1) ∧
      (laneGet t.hub.hlm.health l).capture =
        some ⟨.lightLoss, s.hub.now, if unframed then .acquiring else r.state⟩ ∧
      t.hub.mon = s.hub.mon ∧ t.hub.arb = s.hub.arb ∧ t.hub.tbk = s.hub.tbk ∧ t.hub.pcu = s.hub.pcu)) ∧
  (∀ (l : LaneId) (s : State), (s.hub.lane l).light = true →
    let recorded := missingFrame ⟨l.link, .s⟩ (missingFrame ⟨l.link, .p⟩ s.hub)
    exec (.lightLoss l) s = exec (.lightLoss l) (s.withHub recorded))

/-- The loss of the active lane of an UP link with no test by LIGHT_LOSS, the partner's frame of the period there, or
by FRAME_LOSS at 8 bad frames (Table 4-5): the lane is DARK or ACQUIRING and out of sync; a READY partner takes over
qualified, a QUALIFYING one provisionally with its count; otherwise the link enters HOLDOVER with its deadline,
nothing to take, the desk's talk ended and every output having taken the link's leaving UP, its enable as it was. The
loss is counted and captured; at LIGHT_LOSS the capture names ACTIVE where the lane's frame had arrived and made no
FRAME_LOSS due. A LIGHT_LOSS with a frame missing is that of the part with it recorded (FaultOfAnIdleLane): where the
lane's bad result makes its verdict FAILING, the link moves to the READY and GOOD partner before the light is lost.
Model choice: log entries 4, 6. -/
def Obligations.LossOfTheActiveLane : Prop :=
  ∀ (l : LaneId) (s : State), s.hub.hlm.tests.get l.link = none →
    (s.hub.lane l).state = .active → (s.hub.links.get l.link).state = .up →
    (s.hub.links.get l.link).activeLane = some l.side →
    let k := s.hub.links.get l.link
    let partner := s.hub.lane (otherLane l)
    let counts := (laneGet s.hub.hlm.health l).counters
    let lost : State → LaneState → Prop := fun t st =>
      (t.hub.lane l).state = st ∧ (t.hub.lane l).latency = none ∧ (t.hub.lane l).acquireRun = 0 ∧
      (t.hub.lane l).badRun = 0 ∧ (t.hub.lane l).qualifyCount = 0 ∧ (t.hub.lane l).buffer = [] ∧
      (partner.state = .ready ∨ partner.state = .qualifying →
        (t.hub.links.get l.link).state = .up ∧ (t.hub.links.get l.link).activeLane = some l.side.other ∧
        (t.hub.links.get l.link).provisional = decide (partner.state = .qualifying) ∧
        (t.hub.links.get l.link).nextTake = k.nextTake ∧
        (t.hub.links.get l.link).returnBuffer = k.returnBuffer ∧
        t.hub.lane (otherLane l) =
          { partner with state := .active, qualified := decide (partner.state = .ready) } ∧
        t.hub.tbk = s.hub.tbk ∧ t.hub.arb = s.hub.arb ∧ t.hub.mon = s.hub.mon) ∧
      (partner.state = .testing ∨ partner.state = .acquiring ∨ partner.state = .dark →
        (t.hub.links.get l.link).state = .holdover ∧ (t.hub.links.get l.link).activeLane = none ∧
        (t.hub.links.get l.link).provisional = false ∧ (t.hub.links.get l.link).nextTake = none ∧
        (t.hub.links.get l.link).returnBuffer = [] ∧
        (t.hub.links.get l.link).holdoverDeadline =
          some (later s.hub.now (s.hub.sto.install.holdover * 4800)) ∧
        t.hub.lane (otherLane l) = partner ∧ t.hub.tbk.records.get l.link = none ∧ t.hub.arb = s.hub.arb ∧
        (∀ i,
          let o := ((s.hub.mon.output i).linkLeaves t.hub.linkUp l.link).startRevert s.hub.now
            s.hub.sto.install.revertDelay t.hub.linkUp
          ({ t.hub.mon.output i with talker := none, duck := 0, duckTarget := 0 } : Output) =
            { o with talker := none, duck := 0, duckTarget := 0 }))
    ((s.hub.lane l).latency ≠ none → 8 ≤ (s.hub.lane l).badRun → ∃ t, exec (.frameLoss l) s = .next t ∧
      lost t .acquiring ∧
      (laneGet t.hub.hlm.health l).counters.frameLosses = min 65535 (counts.frameLosses + 1) ∧
      (laneGet t.hub.hlm.health l).capture = some ⟨.frameLoss, s.hub.now, .active⟩) ∧
    ((s.hub.lane l).light = true → partner.arrived = true → ∃ t, exec (.lightLoss l) s = .next t ∧
      lost t .dark ∧ (t.hub.lane l).light = false ∧
      (laneGet t.hub.hlm.health l).counters.lightLosses = min 65535 (counts.lightLosses + 1) ∧
      (∃ prior, (laneGet t.hub.hlm.health l).capture = some ⟨.lightLoss, s.hub.now, prior⟩ ∧
        ((s.hub.lane l).arrived = true → (s.hub.lane l).badRun < 8 → prior = .active)))

/-- LIGHT_APPEARS: a DARK lane enters ACQUIRING with an empty run; a lane in another state only holds the light.
Model choice: log entry 3. -/
def Obligations.LightAppears : Prop :=
  ∀ (l : LaneId) (s : State), (s.hub.lane l).light = false → s.hub.hlm.tests.get l.link = none →
    let r := s.hub.lane l
    (r.state ≠ .dark → exec (.lightAppears l) s = .next (s.withHub (s.hub.setLane l { r with light := true }))) ∧
    (r.state = .dark →
      let h1 := s.hub.setLane l { r with light := true, state := .acquiring, acquireRun := 0 }
      exec (.lightAppears l) s = .next (s.withHub
        (notifyDeskPanel l.link (.laneState l .acquiring r.qualified (h1.links.get l.link).skew) h1)))

/-- HOLDOVER_EXPIRY of a link whose deadline is reached tears the desk down: the link is DOWN with its lanes as they
were, the desk's holds are orphaned with a grace deadline under a clear freeze, its contender entries are withdrawn,
its requests, answer and notices are dropped, its test, SUSPENDED ones too, is aborted; what the other desks hold
stands. The link's record agrees with its lanes (an invariant of every step).
Model choice: log entry 23. -/
def Obligations.HoldoverExpiryTearsTheDeskDown : Prop :=
  ∀ (d : Desk) (dl : Frame) (s : State), (s.hub.links.get d).state = .holdover →
    (s.hub.links.get d).holdoverDeadline = some dl → reached s.hub.now dl = true →
    (s.hub.links.get d).Ok →
    ∃ t, exec (.holdoverExpiry d) s = .next t ∧
      (t.hub.links.get d).state = .down ∧ (t.hub.links.get d).holdoverDeadline = none ∧
      (t.hub.links.get d).lanes = (s.hub.links.get d).lanes ∧
      (∀ e, e ≠ d → t.hub.links.get e = s.hub.links.get e) ∧
      (∀ r level, s.hub.arb.claim r = .held d.req level → t.hub.arb.claim r = .orphaned d level
        (if s.hub.arb.frozen then none else some (later s.hub.now (s.hub.sto.install.grace * 48000)))) ∧
      (∀ r w level, s.hub.arb.claim r = .held w level → w ≠ d.req → t.hub.arb.claim r = .held w level) ∧
      (∀ r w cs, s.hub.arb.claim r = .contended w cs →
        let left := cs.filter fun e => !decide (e.1 = d.req)
        t.hub.arb.claim r = if left = [] then .opened else .contended w left) ∧
      t.hub.arb.pendingClaims.get d.req = none ∧
      t.hub.req.queues.get d.req = ⟨[], false, false⟩ ∧
      (t.hub.req.desks.get d).answer = none ∧ (t.hub.req.desks.get d).notices = [] ∧
      (t.hub.req.desks.get d).hold = false ∧ (t.hub.req.desks.get d).asm = none ∧
      (∀ x, s.hub.hlm.tests.get d = some x → t.hub.hlm.tests.get d = some { x with status := .aborted }) ∧
      t.hub.pcu = s.hub.pcu ∧ t.hub.tbk = s.hub.tbk

/-- LANE_SWITCH: by PANEL or the link's desk, on an UP link whose other lane is READY, the other lane becomes the
active one, the old lane READY or QUALIFYING by its qualification; the next number to take and the return buffer
stand. Otherwise the answer is RANGE, DENIED, NOT_UP or NOT_READY, and nothing changes. -/
def Obligations.LaneSwitchMovesTheLink : Prop :=
  ∀ (who : Requester) (tag : Byte) (d : Desk) (s : State), Free who s.hub →
    let k := s.hub.links.get d
    let call := Call.laneSwitch (Desk.num d)
    let result := exec (.laneSwitch who tag (Desk.num d)) s
    (∀ side, (who = .panel ∨ who = d.req) → k.state = .up → k.activeLane = some side →
      (k.lane side).state = .active → (k.lane side.other).state = .ready → s.hub.hlm.tests.get d = none →
      ∃ t, result = .next t ∧ (t.hub.links.get d).state = .up ∧
        (t.hub.links.get d).activeLane = some side.other ∧ (t.hub.links.get d).provisional = false ∧
        (t.hub.links.get d).nextTake = k.nextTake ∧ (t.hub.links.get d).returnBuffer = k.returnBuffer ∧
        (t.hub.links.get d).lane side.other = { k.lane side.other with state := .active, qualified := true } ∧
        (t.hub.links.get d).lane side =
          { k.lane side with state := if (k.lane side).qualified then .ready else .qualifying } ∧
        t.hub.answerOf who = some ⟨0x15#8, tag, (s.hub.req.queues.get who).discarded, .done, []⟩ ∧
        t.hub.mon = s.hub.mon ∧ t.hub.arb = s.hub.arb ∧ t.hub.pcu = s.hub.pcu ∧ t.hub.tbk = s.hub.tbk) ∧
    (who ≠ .panel → who ≠ d.req → result = .next (s.withHub (s.hub.answered who tag call .denied []))) ∧
    ((who = .panel ∨ who = d.req) → k.state ≠ .up →
      result = .next (s.withHub (s.hub.answered who tag call .notUp []))) ∧
    (∀ side, (who = .panel ∨ who = d.req) → k.state = .up → k.activeLane = some side →
      (k.lane side.other).state ≠ .ready →
      result = .next (s.withHub (s.hub.answered who tag call .notReady []))) ∧
    (∀ n, desk? n = none → exec (.laneSwitch who tag n) s =
      .next (s.withHub (s.hub.answered who tag (.laneSwitch n) .range [])))

/-- LINK_RESTART by PANEL: the link is DOWN, each lane ACQUIRING or DARK by its light and out of sync. A link that was
not DOWN is torn down as at holdover expiry: the desk's holds are orphaned, its contender entries and pending claim
withdrawn, its requests, answer, notices, HOLD and assembler dropped, its test aborted, its holdover deadline gone;
from UP its talk ends and the outputs take the link's leaving UP, the safe members cleared where no link is left. The
answer is DONE; a link out of range is answered RANGE. -/
def Obligations.LinkRestartBringsTheLinkDown : Prop :=
  (∀ (tag : Byte) (d : Desk) (s : State), Free .panel s.hub →
    ∃ t, exec (.linkRestart .panel tag (Desk.num d)) s = .next t ∧
      (t.hub.links.get d).state = .down ∧
      (∀ side : Side, ((t.hub.links.get d).lane side).state =
          (if ((s.hub.links.get d).lane side).light then .acquiring else .dark) ∧
        ((t.hub.links.get d).lane side).latency = none ∧ ((t.hub.links.get d).lane side).acquireRun = 0 ∧
        ((t.hub.links.get d).lane side).buffer = []) ∧
      (∀ e, e ≠ d → t.hub.links.get e = s.hub.links.get e) ∧
      ((s.hub.links.get d).state ≠ .down →
        (t.hub.links.get d).activeLane = none ∧ (t.hub.links.get d).nextTake = none ∧
        (t.hub.links.get d).returnBuffer = [] ∧ t.hub.req.queues.get d.req = ⟨[], false, false⟩ ∧
        (t.hub.links.get d).provisional = false ∧ (t.hub.links.get d).holdoverDeadline = none ∧
        (∀ r level, s.hub.arb.claim r = .held d.req level → t.hub.arb.claim r = .orphaned d level
          (if s.hub.arb.frozen then none else some (later s.hub.now (s.hub.sto.install.grace * 48000)))) ∧
        (∀ r w level, s.hub.arb.claim r = .held w level → w ≠ d.req → t.hub.arb.claim r = .held w level) ∧
        (∀ r w cs, s.hub.arb.claim r = .contended w cs →
          let left := cs.filter fun e => !decide (e.1 = d.req)
          t.hub.arb.claim r = if left = [] then .opened else .contended w left) ∧
        t.hub.arb.pendingClaims.get d.req = none ∧
        (t.hub.req.desks.get d).answer = none ∧ (t.hub.req.desks.get d).notices = [] ∧
        (t.hub.req.desks.get d).hold = false ∧ (t.hub.req.desks.get d).asm = none ∧
        (t.hub.req.desks.get d).tx = none ∧
        (∀ x, s.hub.hlm.tests.get d = some x → t.hub.hlm.tests.get d = some { x with status := .aborted })) ∧
      ((s.hub.links.get d).state = .up → t.hub.tbk.records.get d = none ∧
        (t.hub.req.desks.get d).gapOwed = true ∧
        (∀ i,
          let last := (Desk.all.all fun e => decide (e = d ∨ (s.hub.links.get e).state = .down)) &&
            s.hub.sto.install.allLinksLost
          let o := ((s.hub.mon.output i).linkLeaves t.hub.linkUp d).startRevert s.hub.now
            s.hub.sto.install.revertDelay t.hub.linkUp
          ({ t.hub.mon.output i with talker := none, duck := 0, duckTarget := 0 } : Output) =
            { o with
              talker := none, duck := 0, duckTarget := 0
              enable := o.enable && !(last && Tbl.get s.hub.sto.install.safeMember i) })) ∧
      ((s.hub.links.get d).state = .down → t.hub.arb = s.hub.arb ∧ t.hub.mon = s.hub.mon ∧ t.hub.tbk = s.hub.tbk) ∧
      t.hub.answerOf .panel = some ⟨0x1F#8, tag, (s.hub.req.queues.get .panel).discarded, .done, []⟩ ∧
      t.hub.pcu = s.hub.pcu) ∧
  (∀ (tag : Byte) (n : Nat) (s : State), Free .panel s.hub → (n < 1 ∨ 3 < n) →
    exec (.linkRestart .panel tag n) s = .next (s.withHub (s.hub.answered .panel tag (.linkRestart n) .range [])))

/-- A link's takes and deliveries: an entry joins the tail of the return buffer, and one that brings it to 16 drops
the 8 oldest and slips; the oldest entry is delivered, and a delivery that empties the buffer leaves 8 copies and
slips. A take of a number is the active lane's AUDIO frame of it, else the other lane's while that is READY or
QUALIFYING, counted as a rescue, else a copy of the last entry, counted as a repeat, with a lost cell; step 2 of an UP
link takes the numbers up to the one due, which is one where the link stands one behind and none where it stands
ahead. A slip at a take is handed to HLM before the cell to REQ. Step 3 of an UP link delivers, but not in the period
of its entry to UP.
Model choice: log entries 7, 18, 21, 45. -/
def Obligations.ReturnBufferSlips : Prop :=
  (∀ (b : List Entry) (e : Entry) (k : Link),
    (b.length < 15 → appendEntry b e = (b ++ [e], false)) ∧
    (b.length = 15 → appendEntry b e = (b.drop 8 ++ [e], true) ∧ (appendEntry b e).1.length = 8) ∧
    (∀ x y rest, k.returnBuffer = x :: y :: rest →
      k.deliver = ({ k with delivered := some x, returnBuffer := y :: rest }, false)) ∧
    (∀ x, k.returnBuffer = [x] →
      k.deliver = ({ k with delivered := some x, returnBuffer := List.replicate 8 x }, true))) ∧
  (∀ (l : LaneRec) (n : Frame),
      (∀ f, l.held n = some f → f ∈ l.buffer ∧ f.number = n ∧ f.pattern = false) ∧
      (l.held n = none → ∀ f ∈ l.buffer, f.number = n → f.pattern = true)) ∧
  (∀ (k : Link) (side : Side) (may : Bool) (n : Frame),
      let mine := (k.lane side).held n
      let theirs := (k.lane side.other).held n
      let last := k.lastEntry.getD Entry.zero
      let taken := k.take n (k.source side may n)
      (∀ f, mine = some f → k.source side may n = .own f ∧
        taken.1 = { k with
          returnBuffer := (appendEntry k.returnBuffer ⟨f.slots, f.talk⟩).1, lastEntry := some ⟨f.slots, f.talk⟩
          nextTake := some (n + 1#32) }) ∧
      (∀ f, mine = none → may = true → theirs = some f → k.source side may n = .rescued f ∧
        taken.1 = { k with
          returnBuffer := (appendEntry k.returnBuffer ⟨f.slots, f.talk⟩).1, lastEntry := some ⟨f.slots, f.talk⟩
          nextTake := some (n + 1#32), rescuedFrames := min 4294967295 (k.rescuedFrames + 1) }) ∧
      (mine = none → may = false ∨ theirs = none → k.source side may n = .repeated ∧
        taken.1 = { k with
          returnBuffer := (appendEntry k.returnBuffer last).1, lastEntry := some last
          nextTake := some (n + 1#32), repeatedFrames := min 4294967295 (k.repeatedFrames + 1) })) ∧
  (∀ (h : Hub) (d : Desk),
      let k := h.links.get d
      (k.state ≠ .up → takeStep h d = h) ∧ (k.state ≠ .up ∨ k.fresh = true → deliverStep h d = h) ∧
      (∀ x y rest, k.state = .up → k.fresh = false → k.returnBuffer = x :: y :: rest →
        deliverStep h d = h.setLink d k.deliver.1) ∧
      (∀ x, k.state = .up → k.fresh = false → k.returnBuffer = [x] →
        deliverStep h d = countSlip d (h.setLink d k.deliver.1)) ∧
      (∀ side may n, k.nextTake = some n → k.returnBuffer.length = 15 →
        let source := k.source side may n
        takeOne d side may h = takeCell d (source.frame.map UpFrame.cell)
          (countSlip d (h.setLink d (k.take n source).1))) ∧
      (∀ side lat, k.state = .up → k.activeLane = some side → (k.lane side).latency = some lat →
        let may := decide ((k.lane side.other).state = .ready ∨ (k.lane side.other).state = .qualifying)
        let number := h.now - lat
        (∀ next, k.nextTake = some next → takeStep h d = takeMany d side may (takeCount next number) h) ∧
        (k.nextTake = some (number + 1#32) → takeStep h d = h) ∧
        (k.nextTake = some number → k.returnBuffer.length < 15 →
          let source := k.source side may number
          let cell := match source with
            | .own f => some f.cell
            | .rescued f => some f.cell
            | .repeated => none
          takeStep h d = takeCell d cell (h.setLink d (k.take number source).1)))) ∧
  (∀ (number : Frame) (behind : Nat), behind < 2147483648 →
      takeCount (number - BitVec.ofNat 32 behind) number = behind + 1)

/-! ## Health and lane tests (chapter 5) -/

/-- A lane's verdict is the worst result of its five counters. CLEAR_HEALTH by PANEL or the link's desk sets the
lane's counters to 0 and its verdict to GOOD, leaves its capture and every other lane's record, and is DONE; another
desk is DENIED, a lane out of range RANGE. A verdict computed as it was changes nothing; a changed one is held and
sent by HEALTH_VERDICT with the first counter whose result it is, none for GOOD. The active lane's verdict becoming
FAILING at a bad frame, its partner READY and GOOD, switches the link to the partner.
Model choice: log entry 5. -/
def Obligations.HealthVerdictAndClearHealth : Prop :=
  (∀ (th : PerCounter Threshold) (n : PerCounter Nat),
      ((∃ c : CounterName, (th.get c).fail ≤ n.get c) → verdictOf th n = .failing) ∧
      ((∀ c : CounterName, n.get c < (th.get c).fail) → (∃ c : CounterName, (th.get c).warn ≤ n.get c) →
        verdictOf th n = .worn) ∧
      ((∀ c : CounterName, n.get c < (th.get c).fail ∧ n.get c < (th.get c).warn) → verdictOf th n = .good)) ∧
  (∀ (who : Requester) (tag : Byte) (l : LaneId) (s : State), Free who s.hub →
      let call := Call.clearHealth (LaneId.num l)
      ((who = .panel ∨ who = l.link.req) → ∃ t, exec (.clearHealth who tag (LaneId.num l)) s = .next t ∧
        laneGet t.hub.hlm.health l = ⟨⟨0, 0, 0, 0, 0⟩, .good, (laneGet s.hub.hlm.health l).capture⟩ ∧
        (∀ m, m ≠ l → laneGet t.hub.hlm.health m = laneGet s.hub.hlm.health m) ∧
        t.hub.hlm.tests = s.hub.hlm.tests ∧ t.hub.links = s.hub.links ∧ t.hub.arb = s.hub.arb ∧
        t.hub.mon = s.hub.mon ∧ t.hub.pcu = s.hub.pcu ∧ t.hub.tbk = s.hub.tbk ∧
        t.hub.answerOf who = some ⟨0x14#8, tag, (s.hub.req.queues.get who).discarded, .done, []⟩) ∧
      (who ≠ .panel → who ≠ l.link.req → exec (.clearHealth who tag (LaneId.num l)) s =
        .next (s.withHub (s.hub.answered who tag call .denied [])))) ∧
  (∀ (who : Requester) (tag : Byte) (n : Nat) (s : State), Free who s.hub → (n < 1 ∨ 6 < n) →
      exec (.clearHealth who tag n) s = .next (s.withHub (s.hub.answered who tag (.clearHealth n) .range []))) ∧
  (∀ (l : LaneId) (new : Verdict) (h : Hub),
      let x := laneGet h.hlm.health l
      let named := if new = .good then none else CounterName.all.find? fun c =>
        let n := x.counters.get c
        let th := h.sto.install.thresholds.get c
        decide ((if th.fail ≤ n then Verdict.failing else if th.warn ≤ n then .worn else .good) = new)
      (x.verdict = new → setVerdict l new h = h) ∧
      (x.verdict ≠ new → (new ≠ .failing ∨ (h.links.get l.link).activeLane ≠ some l.side ∨
          (h.lane (otherLane l)).state ≠ .ready ∨ (laneGet h.hlm.health (otherLane l)).verdict ≠ .good) →
        setVerdict l new h = notifyDeskPanel l.link (.healthVerdict l new x.verdict named)
          (h.setHealth l { x with verdict := new }))) ∧
  (∀ (l : LaneId) (bytes : List Byte) (lat : Frame) (s : State), (s.hub.lane l).arrived = false →
      (s.hub.lane l).latency = some lat → (s.hub.lane l).state = .active → (s.hub.links.get l.link).state = .up →
      (s.hub.links.get l.link).activeLane = some l.side → s.hub.hlm.tests.get l.link = none →
      parseUp bytes = none → (s.hub.lane (otherLane l)).state = .ready →
      let x := laneGet s.hub.hlm.health l
      let k := s.hub.links.get l.link
      (laneGet s.hub.hlm.health (otherLane l)).verdict = .good → x.verdict ≠ .failing →
      (∃ c : CounterName, (s.hub.sto.install.thresholds.get c).fail ≤
        ((x.counters.add ⟨1, 0, 0, 0, 0⟩).get c)) →
      ∃ t, exec (.upstreamFrame l bytes) s = .next t ∧ (laneGet t.hub.hlm.health l).verdict = .failing ∧
        (t.hub.links.get l.link).state = .up ∧ (t.hub.links.get l.link).activeLane = some l.side.other ∧
        (t.hub.links.get l.link).provisional = false ∧ (t.hub.links.get l.link).nextTake = k.nextTake ∧
        (t.hub.links.get l.link).returnBuffer = k.returnBuffer ∧
        t.hub.lane (otherLane l) = { s.hub.lane (otherLane l) with state := .active, qualified := true } ∧
        (t.hub.lane l).state = (if (s.hub.lane l).qualified then .ready else .qualifying) ∧
        t.hub.arb = s.hub.arb ∧ t.hub.mon = s.hub.mon ∧ t.hub.tbk = s.hub.tbk ∧ t.hub.pcu = s.hub.pcu)

/-- LANE_TEST: BUSY while a test of the link is in progress; on an UP link that is not provisional and a READY lane, a
new record RUNNING in its lead-in and the lane TESTING; otherwise NOT_READY. A lane or length out of range is RANGE,
another desk DENIED. LANE_TEST_STOP aborts a test in progress that has not counted its length, with TEST_STATUS, and
is NOT_READY without one. TEST_COMPLETE ends a test that has counted its length: PASSED with at least one PATTERN
frame and no error, else FAILED. A result of the tested lane counts one frame, a PATTERN frame ends the lead-in, and
errors are the words that differ, or 33 for another result behind the lead-in. A fault of the tested lane, by
LIGHT_LOSS or FRAME_LOSS, ends the test FAILED, one of the active lane suspends it, and a suspended test whose lane is
READY again beside a qualified active lane goes on with a new lead-in. A TESTING lane whose test is not RUNNING enters
QUALIFYING at its first good AUDIO frame, or brings its link back from HOLDOVER on it, provisional.
Model choice: log entries 4, 6, 25. -/
def Obligations.LaneTestsStartAndEnd : Prop :=
  (∀ (who : Requester) (tag : Byte) (l : LaneId) (seconds : Nat) (s : State), Free who s.hub →
      1 ≤ seconds → seconds ≤ 600 → (who = .panel ∨ who = l.link.req) →
      let call := Call.laneTest (LaneId.num l) seconds
      let k := s.hub.links.get l.link
      let ready := k.state = .up ∧ k.provisional = false ∧ (s.hub.lane l).state = .ready
      let result := exec (.laneTest who tag (LaneId.num l) seconds) s
      ((∃ t, s.hub.hlm.tests.get l.link = some t ∧ (t.status = .running ∨ t.status = .suspended)) →
        result = .next (s.withHub (s.hub.answered who tag call .busy []))) ∧
      ((∀ t, s.hub.hlm.tests.get l.link = some t → t.status ≠ .running ∧ t.status ≠ .suspended) →
        (¬ready → result = .next (s.withHub (s.hub.answered who tag call .notReady []))) ∧
        (ready → ∃ t, result = .next t ∧
          t.hub.hlm.tests.get l.link = some ⟨l.side, seconds * 48000, 0, 0, 0, true, .running⟩ ∧
          t.hub.lane l = { s.hub.lane l with state := .testing, qualifyDue := false } ∧
          t.hub.lane (otherLane l) = s.hub.lane (otherLane l) ∧
          (t.hub.links.get l.link).activeLane = k.activeLane ∧ t.hub.hlm.health = s.hub.hlm.health ∧
          t.hub.mon = s.hub.mon ∧ t.hub.arb = s.hub.arb ∧
          t.hub.answerOf who = some ⟨0x16#8, tag, (s.hub.req.queues.get who).discarded, .done, []⟩))) ∧
  (∀ (who : Requester) (tag : Byte) (n seconds : Nat) (s : State), Free who s.hub →
      let tested : Code → Prop := fun code => exec (.laneTest who tag n seconds) s =
        .next (s.withHub (s.hub.answered who tag (.laneTest n seconds) code []))
      let stopped : Code → Prop := fun code => exec (.laneTestStop who tag n) s =
        .next (s.withHub (s.hub.answered who tag (.laneTestStop n) code []))
      (n < 1 ∨ 6 < n ∨ seconds < 1 ∨ 600 < seconds → tested .range) ∧
      (∀ l : LaneId, n = LaneId.num l → 1 ≤ seconds → seconds ≤ 600 → who ≠ .panel → who ≠ l.link.req →
        tested .denied) ∧
      (n < 1 ∨ 3 < n → stopped .range) ∧
      (∀ d : Desk, n = Desk.num d → who ≠ .panel → who ≠ d.req → stopped .denied)) ∧
  (∀ (who : Requester) (tag : Byte) (d : Desk) (s : State), Free who s.hub → (who = .panel ∨ who = d.req) →
      let tell : TestRec → Hub → Hub := fun t h => notifyDeskPanel d
        (.testStatus d t.lane t.status t.framesDone t.length t.patternFrames t.patternErrors) (h.setTest d (some t))
      let call := Call.laneTestStop (Desk.num d)
      let result := exec (.laneTestStop who tag (Desk.num d)) s
      (∀ t, s.hub.hlm.tests.get d = some t → (t.status = .suspended ∨ (t.status = .running ∧ t.framesDone < t.length)) →
        result = .next (s.withHub
          (answerTo who .done [] (tell { t with status := .aborted } (s.hub.taken who tag call))))) ∧
      ((∀ t, s.hub.hlm.tests.get d = some t → t.status ≠ .running ∧ t.status ≠ .suspended) →
        result = .next (s.withHub (s.hub.answered who tag call .notReady []))) ∧
      (∀ t, s.hub.hlm.tests.get d = some t → t.status = .running → t.length ≤ t.framesDone →
        exec (.testComplete d) s = .next (s.withHub (tell { t with
          status := if t.patternErrors = 0 ∧ 1 ≤ t.patternFrames then .passed else .failed } s.hub)))) ∧
  (∀ (l : LaneId) (bytes : List Byte) (lat : Frame) (x : TestRec) (s : State), (s.hub.lane l).arrived = false →
      (s.hub.lane l).latency = some lat → (s.hub.lane l).state = .testing →
      (s.hub.links.get l.link).activeLane ≠ some l.side → s.hub.hlm.tests.get l.link = some x → x.lane = l.side →
      x.status = .running → x.framesDone < x.length →
      let counts := (laneGet s.hub.hlm.health l).counters
      let counted : TestRec → Nat → Nat → Prop := fun y errors bad =>
        ∃ t, exec (.upstreamFrame l bytes) s = .next t ∧ t.hub.hlm.tests.get l.link = some y ∧
          (laneGet t.hub.hlm.health l).counters.testErrors = min 65535 (counts.testErrors + errors) ∧
          (laneGet t.hub.hlm.health l).counters.crcErrors = min 65535 (counts.crcErrors + bad) ∧
          (t.hub.lane l).state = .testing ∧
          (t.hub.links.get l.link).activeLane = (s.hub.links.get l.link).activeLane ∧ t.hub.arb = s.hub.arb ∧
          t.hub.mon = s.hub.mon ∧ t.hub.pcu = s.hub.pcu ∧ t.hub.tbk = s.hub.tbk
      let behind := if x.leadIn then 0 else 33
      (∀ f, parseUp bytes = some f → f.number = s.hub.now - lat → f.pattern = true →
        counted { x with
          framesDone := x.framesDone + 1, patternFrames := x.patternFrames + 1
          patternErrors := min 4294967295 (x.patternErrors + patternErrorsOf f), leadIn := false }
          (patternErrorsOf f) 0) ∧
      (∀ f, parseUp bytes = some f → f.number = s.hub.now - lat → f.pattern = false →
        counted { x with
          framesDone := x.framesDone + 1, patternErrors := min 4294967295 (x.patternErrors + behind) } behind 0) ∧
      ((∀ f, parseUp bytes = some f → f.number ≠ s.hub.now - lat) →
        counted { x with
          framesDone := x.framesDone + 1, patternErrors := min 4294967295 (x.patternErrors + behind) } behind 1)) ∧
  (∀ (l : LaneId) (x : TestRec) (s : State), s.hub.hlm.tests.get l.link = some x → x.status = .running →
      x.framesDone < x.length →
      let darkened := (s.hub.lane l).light = true ∧ (s.hub.lane l).arrived = true ∧
        (s.hub.lane (otherLane l)).arrived = true ∧ (s.hub.lane l).badRun < 8
      let unframed := (s.hub.lane l).latency ≠ none ∧ 8 ≤ (s.hub.lane l).badRun
      let failed : State → FaultCause → LaneState → Prop := fun t cause st =>
        t.hub.hlm.tests.get l.link = some { x with status := .failed } ∧
        (laneGet t.hub.hlm.health l).capture = some ⟨cause, s.hub.now, .testing⟩ ∧
        (t.hub.lane l).state = st ∧ (t.hub.lane l).latency = none ∧
        (t.hub.links.get l.link).state = (s.hub.links.get l.link).state ∧
        (t.hub.links.get l.link).activeLane = (s.hub.links.get l.link).activeLane ∧ t.hub.arb = s.hub.arb ∧
        t.hub.mon = s.hub.mon ∧ t.hub.pcu = s.hub.pcu
      let suspended : State → FaultCause → LaneState → Prop := fun t cause st =>
        t.hub.hlm.tests.get l.link = some { x with status := .suspended } ∧
        (laneGet t.hub.hlm.health l).capture = some ⟨cause, s.hub.now, .active⟩ ∧
        (laneGet t.hub.hlm.health (otherLane l)).capture = some ⟨.testSuspend, s.hub.now, .testing⟩ ∧
        (t.hub.lane l).state = st ∧ (t.hub.lane l).latency = none ∧
        t.hub.lane (otherLane l) = s.hub.lane (otherLane l) ∧ (t.hub.links.get l.link).state = .holdover ∧
        t.hub.hlm.testRunningOn (otherLane l) = false ∧ t.hub.arb = s.hub.arb ∧ t.hub.pcu = s.hub.pcu
      ((s.hub.lane l).state = .testing → (s.hub.links.get l.link).activeLane ≠ some l.side → x.lane = l.side →
        (darkened → ∃ t, exec (.lightLoss l) s = .next t ∧ failed t .lightLoss .dark) ∧
        (unframed → ∃ t, exec (.frameLoss l) s = .next t ∧ failed t .frameLoss .acquiring)) ∧
      ((s.hub.lane l).state = .active → (s.hub.links.get l.link).state = .up →
        (s.hub.links.get l.link).activeLane = some l.side → x.lane = l.side.other →
        (s.hub.lane (otherLane l)).state = .testing →
        (darkened → ∃ t, exec (.lightLoss l) s = .next t ∧ suspended t .lightLoss .dark) ∧
        (unframed → (s.hub.lane (otherLane l)).arrived = true →
          ∃ t, exec (.frameLoss l) s = .next t ∧ suspended t .frameLoss .acquiring))) ∧
  (∀ (l : LaneId) (x : TestRec) (s : State), s.hub.hlm.tests.get l.link = some x → x.status = .suspended →
      x.lane = l.side → (s.hub.links.get l.link).state = .up → (s.hub.lane l).state = .qualifying →
      (s.hub.lane l).qualifyDue = true → (s.hub.lane (otherLane l)).state = .active →
      (s.hub.lane (otherLane l)).qualified = true →
      ∃ t, exec (.qualificationComplete l) s = .next t ∧
        t.hub.hlm.tests.get l.link = some { x with status := .running, leadIn := true } ∧
        t.hub.lane l = { s.hub.lane l with state := .testing, qualified := true, qualifyDue := false } ∧
        t.hub.lane (otherLane l) = s.hub.lane (otherLane l) ∧ t.hub.hlm.testRunningOn l = true ∧
        t.hub.arb = s.hub.arb ∧ t.hub.mon = s.hub.mon ∧ t.hub.pcu = s.hub.pcu) ∧
  (∀ (l : LaneId) (bytes : List Byte) (f : UpFrame) (lat : Frame) (s : State), (s.hub.lane l).arrived = false →
      (s.hub.lane l).latency = some lat → (s.hub.lane l).state = .testing → s.hub.hlm.testRunningOn l = false →
      parseUp bytes = some f → f.number = s.hub.now - lat → f.pattern = false →
      let k := s.hub.links.get l.link
      let back : LaneRec := { s.hub.lane l with
        arrived := true, rx := some f, badRun := 0
        buffer := ((s.hub.lane l).buffer.filter fun g => decide ((f.number - g.number).toNat < 32)) ++ [f]
        state := .qualifying, qualified := false, qualifyCount := 0, qualifyDue := false }
      (k.state ≠ .holdover → exec (.upstreamFrame l bytes) s = .next (s.withHub
        (notifyDeskPanel l.link (.laneState l .qualifying false k.skew) (s.hub.setLane l back)))) ∧
      (k.state = .holdover → ∃ t, exec (.upstreamFrame l bytes) s = .next t ∧
        t.hub.lane l = { back with state := .active } ∧ t.hub.lane (otherLane l) = s.hub.lane (otherLane l) ∧
        (t.hub.links.get l.link).state = .up ∧ (t.hub.links.get l.link).activeLane = some l.side ∧
        (t.hub.links.get l.link).provisional = true ∧ (t.hub.links.get l.link).holdoverDeadline = none ∧
        (t.hub.links.get l.link).nextTake = some (f.number + 1#32) ∧
        (t.hub.links.get l.link).returnBuffer = List.replicate 8 Entry.zero ∧
        (t.hub.links.get l.link).rescuedFrames = k.rescuedFrames ∧
        (t.hub.links.get l.link).repeatedFrames = k.repeatedFrames ∧
        (∀ d, d ≠ l.link → t.hub.links.get d = s.hub.links.get d) ∧ t.hub.hlm = s.hub.hlm ∧
        t.hub.pcu = s.hub.pcu ∧ t.hub.tbk = s.hub.tbk))

/-! ## Monitor outputs (chapter 6) -/

/-- The source choice of an output, from its patch fields and the link states: NONE without a primary, PRIMARY while
the primary's link is UP, else FALLBACK where the fail action, the fallback and its link allow, else NONE; the chosen
source is the patch field the choice names, absent for NONE. NONE on a patched output without a gap leads to SILENT,
whose program is zero. -/
def Obligations.SourceChoice : Prop :=
  ∀ (h : Hub) (o : Output),
    let usable : Option Source → Prop := fun x => ∃ y, x = some y ∧ (h.links.get y.link).state = .up
    (o.primary = none → o.choice h.linkUp = .none) ∧
    (usable o.primary → o.choice h.linkUp = .primary) ∧
    (o.primary ≠ none → ¬usable o.primary → o.failAction = .fallback → usable o.fallback →
      o.choice h.linkUp = .fallback) ∧
    (o.primary ≠ none → ¬usable o.primary → (o.failAction = .mute ∨ ¬usable o.fallback) →
      o.choice h.linkUp = .none) ∧
    o.named .primary = o.primary ∧ o.named .fallback = o.fallback ∧ o.named .none = none ∧
    (o.primary ≠ none → o.gap = 0 → (o.retarget false .none).pathState = .silent ∧
      (o.retarget false .none).carried = none) ∧
    (∀ delivered, o.carried = none → (o.program delivered).1 = 0)

/-- A retarget by an output's gap and path state (Table 6-3), and what it does to the revert timer. That a fade which
turns around before its first step keeps its 0 or 1 is the model's choice.
Model choice: log entry 46. -/
def Obligations.RetargetTable : Prop :=
  ∀ (o : Output) (t : Target) (bySetPatch : Bool),
    let o' := o.retarget bySetPatch t
    let idle : PathState := if o.primary = none then .unpatched else .silent
    let playing := o.pathState = .onPrimary ∨ o.pathState = .onFallback
    o'.revertDeadline = (if bySetPatch = false ∧ o'.takesFallback = true then o.revertDeadline else none) ∧
    (o.gap = 0 → o.named t = none →
      o'.pathState = idle ∧ o'.carried = none ∧ o'.gapTarget = none ∧ o'.fade = 0) ∧
    (∀ src, o.gap = 0 → o.named t = some src →
      o'.pathState = (if t = .primary then .onPrimary else .onFallback) ∧ o'.carried = some src ∧
      o'.gapTarget = none ∧ o'.fade = Config.fadeFull) ∧
    (o.gap ≠ 0 → o.named t = none → o.pathState = .unpatched ∨ o.pathState = .silent → o'.pathState = idle) ∧
    (o.gap ≠ 0 → o.named t = none → playing →
      o'.pathState = .gapOut ∧ o'.gapTarget = some .none ∧ o'.fade = Config.fadeFull ∧ o'.carried = o.carried) ∧
    (o.gap ≠ 0 → o.named t = none → o.pathState = .gapOut ∨ o.pathState = .gapIn →
      o'.pathState = .gapOut ∧ o'.gapTarget = some .none ∧ o'.fade = o.fade ∧ o'.carried = o.carried) ∧
    (∀ src, o.gap ≠ 0 → o.named t = some src → o.pathState = .unpatched ∨ o.pathState = .silent →
      o'.pathState = .gapIn ∧ o'.carried = some src ∧ o'.gapTarget = some t ∧ o'.fade = 0) ∧
    (∀ src, o.gap ≠ 0 → o.named t = some src → playing → o.carried = some src →
      o'.pathState = (if t = .primary then .onPrimary else .onFallback) ∧ o'.carried = o.carried ∧
      o'.gapTarget = o.gapTarget ∧ o'.fade = o.fade) ∧
    (∀ src, o.gap ≠ 0 → o.named t = some src → playing → o.carried ≠ some src →
      o'.pathState = .gapOut ∧ o'.gapTarget = some t ∧ o'.fade = Config.fadeFull ∧ o'.carried = o.carried) ∧
    (∀ src, o.gap ≠ 0 → o.named t = some src → o.pathState = .gapOut ∨ o.pathState = .gapIn →
      o'.pathState = (if o.carried = some src then .gapIn else .gapOut) ∧ o'.gapTarget = some t ∧ o'.fade = o.fade ∧
      o'.carried = o.carried)

/-- SET_PATCH in range by a requester that the verdict allows: the four fields are taken, SHOW data is reported where
one changed, the output is retargeted to its choice with no revert timer but the one R118 starts, OUTPUT_STATE is sent
and the answer is DONE; a gap of 0 gives the duck its target. No other output changes but by a revert timer that R118
starts. -/
def Obligations.SetPatchTakesThePatch : Prop :=
  ∀ (who : Requester) (tag : Byte) (i : Out) (p f : Option (Nat × Nat)) (fa gap : Nat) (x : PatchFields) (s : State),
    Free who s.hub → patchFields? p f fa gap = some x →
    s.hub.arb.permission who (Out.res i) = .permitted →
    let h := s.hub
    let o := h.mon.output i
    let call := Call.setPatch (i.1 + 1) p f fa gap
    let patched := { o with
      primary := x.primary, fallback := x.fallback, failAction := x.failAction, gap := x.gap
      duck := if x.gap = 0 then o.duckTarget else o.duck }
    let outs := Tbl.of fun j =>
      Output.startRevert h.now h.sto.install.revertDelay h.linkUp
        (if j = i then patched.retarget true (patched.choice h.linkUp) else h.mon.output j)
    let changed := o.primary ≠ x.primary ∨ o.fallback ≠ x.fallback ∨ o.failAction ≠ x.failAction ∨ o.gap ≠ x.gap
    let h1 := if changed then showReport (h.taken who tag call) else h.taken who tag call
    exec (.setPatch who tag (i.1 + 1) p f fa gap) s = .next (s.withHub
      (answerTo who .done [] (notifyEach (outputChanges false h.mon.outputs outs)
        { h1 with mon := { h.mon with outputs := outs } })))

/-- OUTPUT_ENABLE of a set by a requester every verdict allows: the enables take the value, no other field and no
other output changes but by a revert timer that R118 starts, OUTPUT_STATE is sent for the enables that changed, and
the answer is DONE; setting a safe member on while SAFE is asserted is answered SAFE_HELD, and an empty set RANGE. -/
def Obligations.OutputEnableSetsTheEnables : Prop :=
  ∀ (who : Requester) (tag : Byte) (set : BitSet 32) (on : Bool) (s : State), Free who s.hub →
    (∀ i, Tbl.get set i = true → s.hub.arb.permission who (Out.res i) = .permitted) →
    let h := s.hub
    let value := if on then 0 else 1
    let call := Call.outputEnable set value
    let held := on = true ∧ h.mon.safe = true ∧ ∃ i, Tbl.get set i = true ∧ Tbl.get h.sto.install.safeMember i = true
    let outs := Tbl.of fun i =>
      Output.startRevert h.now h.sto.install.revertDelay h.linkUp
        (if Tbl.get set i then { h.mon.output i with enable := on } else h.mon.output i)
    let result := exec (.outputEnable who tag set value) s
    ((∀ i, Tbl.get set i = false) → result = .next (s.withHub (h.answered who tag call .range []))) ∧
    (held → result = .next (s.withHub (h.answered who tag call .safeHeld []))) ∧
    ((∃ i, Tbl.get set i = true) → ¬held → result = .next (s.withHub
      (answerTo who .done [] (notifyEach (outputChanges true h.mon.outputs outs)
        { h.taken who tag call with mon := { h.mon with outputs := outs } }))))

/-- The SAFE line: its assertion clears the enable of every safe member that was on, sends SAFE_MUTE with that set and
changes no other field; its release sends SAFE_MUTE with an empty set and changes no enable. With every link DOWN and
the install trigger on, a link's entry to DOWN does the same with the cause ALL_LINKS_LOST: from HOLDOVER no output
path changes, from UP the outputs leave the link in the same event, OUTPUT_STATE giving their enables as cleared and
going before SAFE_MUTE. With a link left, or the trigger off, no enable changes. A line already so changes nothing.
Model choice: log entries 3, 40. -/
def Obligations.SafeLineMutes : Prop :=
  (∀ (s : State),
    let h := s.hub
    let cleared : BitSet 32 := Tbl.of fun i => Tbl.get h.sto.install.safeMember i && (h.mon.output i).enable
    (h.mon.safe = false → exec .safeAsserted s = .next (s.withHub
      (notifyAll (.safeMute .safeAsserted cleared) { h with mon := { h.mon with
        safe := true
        outputs := Tbl.of fun i =>
          if Tbl.get cleared i then { h.mon.output i with enable := false } else h.mon.output i } }))) ∧
    (h.mon.safe = true → exec .safeReleased s = .next (s.withHub
      (notifyAll (.safeMute .safeReleased (BitSet.empty 32)) { h with mon := { h.mon with safe := false } }))) ∧
    (h.mon.safe = true → exec .safeAsserted s = .next s) ∧ (h.mon.safe = false → exec .safeReleased s = .next s)) ∧
  (∀ (d : Desk) (h : Hub),
      let cleared : BitSet 32 := Tbl.of fun i => Tbl.get h.sto.install.safeMember i && (h.mon.output i).enable
      let mute := (∀ e, (h.links.get e).state = .down) ∧ h.sto.install.allLinksLost = true
      let left : Out → Output := fun i => ((h.mon.output i).linkLeaves h.linkUp d).startRevert h.now
        h.sto.install.revertDelay h.linkUp
      let tell : (Out → Output) → Hub := fun outs => notifyEach (outputChanges false h.mon.outputs (Tbl.of outs))
        { h with mon := { h.mon with outputs := Tbl.of outs } }
      (mute → monDown h = notifyAll (.safeMute .allLinksLost cleared) { h with mon := { h.mon with
        outputs := Tbl.of fun i =>
          if Tbl.get cleared i then { h.mon.output i with enable := false } else h.mon.output i } }) ∧
      (¬mute → monDown h = h) ∧
      (mute → monLeavesUp d h = notifyAll (.safeMute .allLinksLost cleared)
        (tell fun i => if Tbl.get cleared i then { left i with enable := false } else left i)) ∧
      (¬mute → monLeavesUp d h = tell left)) ∧
  (∀ (d : Desk) (dl : Frame) (s : State), (s.hub.links.get d).state = .holdover →
      (s.hub.links.get d).holdoverDeadline = some dl → reached s.hub.now dl = true →
      let last := Desk.all.all fun e => decide (e = d ∨ (s.hub.links.get e).state = .down)
      ∃ t, exec (.holdoverExpiry d) s = .next t ∧
        ∀ i, (t.hub.mon.output i).enable = ((s.hub.mon.output i).enable &&
          !(last && s.hub.sto.install.allLinksLost && Tbl.get s.hub.sto.install.safeMember i)))

/-- FADE_COMPLETE: a fade out whose step reached 0 leaves the output without a source, or fading in its target from 0;
a fade in whose step reached 1 leaves it on its source at full level. A step marks the fade complete when it reaches
that end. REVERT_EXPIRY, of an output on its fallback or fading it in: the deadline goes and the output is retargeted
to its primary. A revert timer starts, after any of these, where the output takes from its fallback, the link of its
primary is UP, the delay is not 0 and no deadline stands, and the deadline is the delay ahead. The steps of a period:
a fade moves by 1 over the gap in frames and a duck by 30 dB over it towards its target, each stopping at its end.
When a link leaves UP an output that carries from it turns to the target of its fade out or to its choice, one fading
out towards it is retargeted, one on its fallback whose primary is on it loses its revert timer; when a link enters UP
an output without a source, or fading to none, takes its choice.
Model choice: log entry 28. -/
def Obligations.FadesAndRevertsComplete : Prop :=
  (∀ (i : Out) (s : State), (s.hub.mon.output i).fadeDone = true →
      let h := s.hub
      let o := h.mon.output i
      let others : State → Prop := fun t =>
        (∀ j, j ≠ i → t.hub.mon.output j = (h.mon.output j).startRevert h.now h.sto.install.revertDelay h.linkUp) ∧
        t.hub.core = { h.core with mon := t.hub.mon }
      ((o.pathState = .gapOut ∧ o.gapTarget = some .none) → ∃ t, exec (.fadeComplete i) s = .next t ∧
        (t.hub.mon.output i).pathState = (if o.primary = none then .unpatched else .silent) ∧
        (t.hub.mon.output i).carried = none ∧ (t.hub.mon.output i).gapTarget = none ∧
        (t.hub.mon.output i).fade = 0 ∧ others t) ∧
      (∀ target src, o.pathState = .gapOut → o.gapTarget = some target → o.named target = some src →
        ∃ t, exec (.fadeComplete i) s = .next t ∧ (t.hub.mon.output i).pathState = .gapIn ∧
          (t.hub.mon.output i).carried = some src ∧ (t.hub.mon.output i).gapTarget = some target ∧
          (t.hub.mon.output i).fade = 0 ∧ others t) ∧
      (∀ target, o.pathState = .gapIn → o.gapTarget = some target →
        ∃ t, exec (.fadeComplete i) s = .next t ∧
          (t.hub.mon.output i).pathState = (if target = .primary then .onPrimary else .onFallback) ∧
          (t.hub.mon.output i).carried = o.carried ∧ (t.hub.mon.output i).gapTarget = none ∧
          (t.hub.mon.output i).fade = Config.fadeFull ∧
          (o.revertDeadline ≠ none → (t.hub.mon.output i).revertDeadline = o.revertDeadline) ∧ others t)) ∧
  (∀ (i : Out) (dl : Frame) (src : Source) (s : State), (s.hub.mon.output i).revertDeadline = some dl →
      let h := s.hub
      let o := h.mon.output i
      let fadingIn := o.pathState = .gapIn ∧ o.gapTarget = some .fallback
      reached h.now dl = true → o.primary = some src → (o.pathState = .onFallback ∨ fadingIn) → o.carried ≠ some src →
      ∃ t, exec (.revertExpiry i) s = .next t ∧ (t.hub.mon.output i).revertDeadline = none ∧
        (o.gap = 0 → (t.hub.mon.output i).pathState = .onPrimary ∧ (t.hub.mon.output i).carried = some src ∧
          (t.hub.mon.output i).gapTarget = none ∧ (t.hub.mon.output i).fade = Config.fadeFull) ∧
        (o.gap ≠ 0 → (t.hub.mon.output i).pathState = .gapOut ∧ (t.hub.mon.output i).carried = o.carried ∧
          (t.hub.mon.output i).gapTarget = some .primary ∧
          (t.hub.mon.output i).fade = (if o.pathState = .onFallback then Config.fadeFull else o.fade)) ∧
        (∀ j, j ≠ i → t.hub.mon.output j = (h.mon.output j).startRevert h.now h.sto.install.revertDelay h.linkUp) ∧
        t.hub.core = { h.core with mon := t.hub.mon }) ∧
  (∀ (now : Frame) (delay : Nat) (up : Desk → Bool) (o : Output),
      let starts := (o.pathState = .onFallback ∨ (o.pathState = .gapIn ∧ o.gapTarget = some .fallback)) ∧
        (∃ y, o.primary = some y ∧ up y.link = true) ∧ delay ≠ 0 ∧ o.revertDeadline = none
      (starts → o.startRevert now delay up = { o with revertDeadline := some (later now (delay * 48000)) }) ∧
      (¬starts → o.startRevert now delay up = o)) ∧
  (∀ (o : Output),
      (o.pathState = .gapOut → o.fadeStep.fadeDone = decide (o.fadeStep.fade = 0)) ∧
      (o.pathState = .gapIn → o.fadeStep.fadeDone = decide (o.fadeStep.fade = Config.fadeFull)) ∧
      (o.pathState ≠ .gapOut → o.pathState ≠ .gapIn → o.fadeStep = o)) ∧
  (∀ (o : Output), 1 ≤ o.gap → o.gap ≤ 15 →
      48 * o.gap * (Config.fadeUnit / o.gap) = Config.fadeFull ∧
      48 * o.gap * (Config.duckUnit / o.gap) = 30 * Config.duckPerDb ∧
      (o.pathState = .gapOut → o.fadeStep.fade = o.fade - Config.fadeUnit / o.gap) ∧
      (o.pathState = .gapIn → o.fadeStep.fade = min Config.fadeFull (o.fade + Config.fadeUnit / o.gap)) ∧
      (o.duck ≤ o.duckTarget → o.duckStep.duck = min o.duckTarget (o.duck + Config.duckUnit / o.gap)) ∧
      (o.duckTarget ≤ o.duck → o.duckStep.duck = max o.duckTarget (o.duck - Config.duckUnit / o.gap))) ∧
  (∀ (up : Desk → Bool) (d : Desk) (o : Output),
      let on : Option Source → Bool := fun x => x.any fun y => decide (y.link = d)
      let usable : Option Source → Bool := fun x => x.any fun y => up y.link
      let target := match o.gapTarget with
        | none => none
        | some t => o.named t
      let lost := { o with
        pathState := if o.primary = none then .unpatched else .silent
        carried := none, gapTarget := none, fade := 0, revertDeadline := none, fadeDone := false }
      let turns := o.pathState = .gapOut ∧ usable target = true
      let free := o.pathState = .silent ∨ (o.pathState = .gapOut ∧ o.gapTarget = some .none)
      (on o.carried = true → turns → o.linkLeaves up d =
        { o with pathState := .gapIn, carried := target, fade := 0, revertDeadline := none, fadeDone := false }) ∧
      (on o.carried = true → ¬turns → o.linkLeaves up d = lost.retarget false (o.choice up)) ∧
      (on o.carried = false → o.pathState = .gapOut → on target = true → o.linkLeaves up d = o.retarget false (o.choice up)) ∧
      (on o.carried = false → o.pathState ≠ .gapOut ∨ on target = false → o.linkLeaves up d =
        { o with revertDeadline := if o.takesFallback && on o.primary then none else o.revertDeadline }) ∧
      (free → o.choice up ≠ .none → o.linkEnters up = o.retarget false (o.choice up)) ∧
      (¬free ∨ o.choice up = .none → o.linkEnters up = o))

/-! ## Talkback (chapter 7) -/

/-- TALK_ON of a desk in order: a destination with no talker, this desk or one of lower priority becomes the desk's,
the talker of lower priority waiting for it; one whose talker's priority is equal or higher is pending. An output that
the desk gives up goes to the waiting record of the highest priority, among equals the earliest, or falls empty. An
output whose talker or its depth changes takes them, its duck at once where the gap is 0, and no other output changes.
The record takes the next arrival number and the deadline, TALK_STATE is sent for each record that changed, in the
order A, B, C: TALK_ON for the desk's own, PREEMPTED for one that lost outputs, REASSIGNED for one that received freed
ones (which of the two for both is a free value, log entry 24), and the answer is DONE with the sets and the talk
time. -/
def Obligations.TalkOnTakesItsDestinations : Prop :=
  ∀ (d : Desk) (tag : Byte) (set : BitSet 32) (duck : Nat) (s : State), Free d.req s.hub → s.hub.TalkOk →
    (∃ o, Tbl.get set o = true) → duck ≤ 30 →
    let h := s.hub
    let wins : Out → Prop := fun o => ∀ x, Tbl.get h.tbk.grants o = some x → x ≠ d →
      h.sto.install.priority.get x.req < h.sto.install.priority.get d.req
    let tell : State → Desk → Option Notice := fun t x =>
      match h.tbk.records.get x, t.hub.tbk.records.get x with
      | old, some q =>
        let note := fun cause => some (Notice.talkState x cause true q.granted q.pending q.duck
          (q.deadline.map (timeLeft 48000 h.now)))
        let was : Out → Bool := fun o => old.any fun p => Tbl.get p.granted o
        let lost := (List.finRange 32).any fun o => was o && !Tbl.get q.granted o
        let received := (List.finRange 32).any fun o => !was o && Tbl.get q.granted o
        if x = d then note .talkOn
        else if lost && received then note (if Config.reportsPreempted then .preempted else .reassigned)
        else if lost then note .preempted else if received then note .reassigned else none
      | _, none => none
    let waits : Desk → Out → Prop := fun e o => e ≠ d ∧ ∃ q, h.tbk.records.get e = some q ∧ Tbl.get q.pending o = true
    let talk : Tbk → Out → Option (Desk × Nat) := fun k o =>
      (Tbl.get k.grants o).bind fun x => (k.records.get x).map fun q => (x, q.duck)
    let hand : Option (Desk × Nat) → Output → Output := fun v p =>
      let depth := v.elim 0 fun x => x.2 * Config.duckPerDb
      { p with talker := v.map (·.1), duckTarget := depth, duck := if p.gap = 0 then depth else p.duck }
    ∃ t r, exec (.talkOn d.req tag set duck) s = .next t ∧ t.hub.tbk.records.get d = some r ∧
      r.destinations = set ∧ r.duck = duck ∧ r.arrival = h.tbk.arrival ∧
      r.deadline = (if h.sto.install.talkTimeout = 0 then none
        else some (later h.now (h.sto.install.talkTimeout * 48000))) ∧
      t.hub.tbk.arrival = h.tbk.arrival + 1#32 ∧
      (∀ o, Tbl.get r.granted o = true ↔ Tbl.get set o = true ∧ wins o) ∧
      (∀ o, Tbl.get r.pending o = true ↔ Tbl.get set o = true ∧ ¬wins o) ∧
      (∀ o, Tbl.get set o = true → Tbl.get t.hub.tbk.grants o =
        if Tbl.get r.granted o = true then some d else Tbl.get h.tbk.grants o) ∧
      (∀ o x, Tbl.get set o = true → wins o → x ≠ d → Tbl.get h.tbk.grants o = some x →
        ∃ q, t.hub.tbk.records.get x = some q ∧ Tbl.get q.pending o = true ∧ Tbl.get q.granted o = false) ∧
      (∀ o, Tbl.get set o = false → Tbl.get h.tbk.grants o ≠ some d →
        Tbl.get t.hub.tbk.grants o = Tbl.get h.tbk.grants o) ∧
      (∀ o, Tbl.get set o = false → Tbl.get h.tbk.grants o = some d →
        ((∀ e, ¬waits e o) → Tbl.get t.hub.tbk.grants o = none) ∧
        ((∃ e, waits e o) → ∃ e q, waits e o ∧ Tbl.get t.hub.tbk.grants o = some e ∧
          t.hub.tbk.records.get e = some q ∧ Tbl.get q.granted o = true ∧ Tbl.get q.pending o = false ∧
          ∀ e', waits e' o → h.sto.install.priority.get e'.req < h.sto.install.priority.get e.req ∨
            (h.sto.install.priority.get e'.req = h.sto.install.priority.get e.req ∧
              h.tbk.order.idxOf e ≤ h.tbk.order.idxOf e'))) ∧
      (∀ x q, x ≠ d → h.tbk.records.get x = some q → ∃ q', t.hub.tbk.records.get x = some q' ∧
        q' = { q with granted := q'.granted, pending := q'.pending }) ∧
      (∀ x, x ≠ d → h.tbk.records.get x = none → t.hub.tbk.records.get x = none) ∧
      (∀ o, t.hub.mon.output o = if talk h.tbk o = talk t.hub.tbk o then h.mon.output o
        else hand (talk t.hub.tbk o) (h.mon.output o)) ∧
      (∀ o, Tbl.get r.granted o = true → (t.hub.mon.output o).talker = some d) ∧
      t.hub.NoticesOf (notifyEach (Desk.all.filterMap (tell t)) s.hub) ∧
      t.hub.answerOf d.req = some ⟨0x0F#8, tag, (h.req.queues.get d.req).discarded, .done, talkOnBody t.hub d⟩ ∧
      t.hub.pcu = h.pcu ∧ t.hub.arb = h.arb ∧ t.hub.links = h.links ∧ t.hub.hlm = h.hlm

/-- TALK_OFF of a desk and TALK_TIMEOUT at its deadline: the record goes, each output it held goes to the waiting
record of the highest priority, among equals the earliest, or falls empty, with the duck depth of its new talker, and
no other output changes; TALK_STATE is sent in the order A, B, C, for the removed record with TALK_OFF or TIMEOUT and
for the records that received outputs with REASSIGNED; the answer is DONE marked REMOVED (00h); TALK_OFF without a
record is DONE marked NONE (01h) and changes nothing; a TALK_OFF from PANEL is DENIED. The two marks, and the duck of
the removed record, are the model's reading.
Model choice: log entries 16, 31. -/
def Obligations.TalkEnds : Prop :=
  ∀ (d : Desk) (tag : Byte) (s : State), s.hub.TalkOk →
    let h := s.hub
    let waits : Desk → Out → Prop := fun e o => e ≠ d ∧ ∃ q, h.tbk.records.get e = some q ∧ Tbl.get q.pending o = true
    let tell : TalkCause → State → Desk → Option Notice := fun cause t x =>
      match h.tbk.records.get x, t.hub.tbk.records.get x with
      | some p, none =>
        if x = d then some (.talkState d cause false (BitSet.empty 32) (BitSet.empty 32) p.duck none) else none
      | some p, some q =>
        if p.granted = q.granted ∧ p.pending = q.pending then none
        else some (.talkState x .reassigned true q.granted q.pending q.duck (q.deadline.map (timeLeft 48000 h.now)))
      | none, _ => none
    let talk : Tbk → Out → Option (Desk × Nat) := fun k o =>
      (Tbl.get k.grants o).bind fun x => (k.records.get x).map fun q => (x, q.duck)
    let hand : Option (Desk × Nat) → Output → Output := fun v p =>
      let depth := v.elim 0 fun x => x.2 * Config.duckPerDb
      { p with talker := v.map (·.1), duckTarget := depth, duck := if p.gap = 0 then depth else p.duck }
    let freed : TalkCause → State → Prop := fun cause t =>
      t.hub.NoticesOf (notifyEach (Desk.all.filterMap (tell cause t)) h) ∧
      t.hub.tbk.records.get d = none ∧ d ∉ t.hub.tbk.queue ∧
      (∀ o, Tbl.get h.tbk.grants o ≠ some d → Tbl.get t.hub.tbk.grants o = Tbl.get h.tbk.grants o) ∧
      (∀ o, Tbl.get h.tbk.grants o = some d → (∀ e, ¬waits e o) →
        Tbl.get t.hub.tbk.grants o = none ∧ (t.hub.mon.output o).talker = none ∧
        (t.hub.mon.output o).duckTarget = 0) ∧
      (∀ o, Tbl.get h.tbk.grants o = some d → (∃ e, waits e o) →
        ∃ e, waits e o ∧ Tbl.get t.hub.tbk.grants o = some e ∧ (t.hub.mon.output o).talker = some e ∧
          ∀ e', waits e' o → h.sto.install.priority.get e'.req < h.sto.install.priority.get e.req ∨
            (h.sto.install.priority.get e'.req = h.sto.install.priority.get e.req ∧
              h.tbk.order.idxOf e ≤ h.tbk.order.idxOf e')) ∧
      (∀ x q, x ≠ d → h.tbk.records.get x = some q → ∃ q', t.hub.tbk.records.get x = some q' ∧
        q' = { q with granted := q'.granted, pending := q'.pending }) ∧
      (∀ o, t.hub.mon.output o = if talk h.tbk o = talk t.hub.tbk o then h.mon.output o
        else hand (talk t.hub.tbk o) (h.mon.output o)) ∧
      t.hub.pcu = h.pcu ∧ t.hub.arb = h.arb ∧ t.hub.links = h.links ∧ t.hub.hlm = h.hlm
    (Free d.req h → h.tbk.records.get d ≠ none → ∃ t, exec (.talkOff d.req tag) s = .next t ∧ freed .talkOff t ∧
      t.hub.answerOf d.req = some ⟨0x10#8, tag, (h.req.queues.get d.req).discarded, .done, [0#8]⟩) ∧
    (Free d.req h → h.tbk.records.get d = none →
      exec (.talkOff d.req tag) s = .next (s.withHub (h.answered d.req tag .talkOff .done [0x01#8]))) ∧
    (Free .panel h → exec (.talkOff .panel tag) s = .next (s.withHub (h.answered .panel tag .talkOff .denied []))) ∧
    (∀ r dl, h.tbk.records.get d = some r → r.deadline = some dl → reached h.now dl = true →
      ∃ t, exec (.talkTimeout d) s = .next t ∧ freed .timeout t)

/-- STAGE_TALK_PRESS and STAGE_TALK_RELEASE: a change of the input is held and sent by STAGE_TALK to each desk of its
mask whose link is UP and to PANEL, and nothing else changes; an input already so changes nothing.
Model choice: log entry 3. -/
def Obligations.StageTalkChanges : Prop :=
  ∀ (i : StageIn) (pressed : Bool) (s : State),
    let h := s.hub
    let mask := h.sto.install.mask i
    let note := Notice.stageTalk i pressed mask
    let place : Desk → DeskPort := fun d =>
      if mask.get d = true ∧ (h.links.get d).state = .up then (h.req.desks.get d).place note else h.req.desks.get d
    let result := exec (if pressed then Instr.stageTalkPress i else Instr.stageTalkRelease i) s
    (h.tbk.pressed i = pressed → result = .next s) ∧
    (h.tbk.pressed i ≠ pressed → result = .next (s.withHub { h with
      tbk := h.tbk.setPressed i pressed
      req := { h.req with desks := PerDesk.of place }
      pnl := h.pnl.place note }))

/-! ## Reads (R21, R22, R61, R91, R100, R130, R149, R176, R182) -/

/-- The reads are carried out at once and answered DONE with the fields of their rules as they stand when the request
is taken, and change nothing else; a name out of range is answered RANGE. READ_NOTICES also clears the discard count,
and at a flush empties the queue and sets the mark. READ_INSTALL reports the erase-prepare mark as it stood before.
The position in the Talk Queue counted from 1 (log entry 41) and the sampled notice that a flush takes from an open
transaction (log entry 20) are the model's choice, as are the encodings and roundings of the log entries below.
Model choice: log entries 11, 16, 20, 30, 41. -/
def Obligations.ReadsReportTheState : Prop :=
  ∀ (who : Requester) (tag : Byte) (s : State), Free who s.hub →
    let h := s.hub
    let done : Call → List Byte → Host.Outcome State Fault Refusal := fun c body =>
      .next (s.withHub (h.answered who tag c .done body))
    let range : Call → Host.Outcome State Fault Refusal := fun c =>
      .next (s.withHub (h.answered who tag c .range []))
    let entry : Desk → Chan → List Byte := fun d c =>
      let t := h.pcu.track d c
      encOn t.tracking ++ encInt8 t.trim ++ encOpt encInt16 t.reference ++ encOn t.limitMark
    let claimed : Res → List Byte := fun r =>
      let c := h.arb.claim r
      enc8 c.state.pos ++ encOpt encReq c.holder ++ encOpt (fun l : Level => enc8 l.pos) c.level
    let lane : LaneId → List Byte := fun l =>
      let r := h.lane l
      enc8 r.state.pos ++ encOpt (fun x : Frame => enc32 x.toNat) r.latency ++ enc32 (h.links.get l.link).skew ++
        enc8 r.badRun ++ enc32 r.qualifyCount ++ enc32 (qualifyLength h l) ++ encOn r.qualified
    (∀ c : Chan,
      let x := h.pcu.channel c
      exec (.readInput who tag (c.1 + 1)) s = done (.readInput (c.1 + 1))
        (enc8 x.gain ++ encOff x.pad ++ encOpt enc8 x.stagedGain ++ encOpt encOff x.stagedPad ++
          encOpt encReq x.stagedBy ++ enc8 x.hpf.pos ++ encOff x.phantomTarget ++ enc8 x.phantomState.pos ++
          encOpt (fun g : Grp => enc8 (g.1 + 1)) x.gang ++ claimed (Chan.res c) ++
          (match who.desk with
            | some d => entry d c
            | none => entry .a c ++ entry .b c ++ entry .c c))) ∧
    (∀ n, n = 0 ∨ 72 < n → exec (.readInput who tag n) s = range (.readInput n)) ∧
    (∀ g : Grp, exec (.readGang who tag (some (g.1 + 1))) s = done (.readGang (some (g.1 + 1)))
      (encOpt (encList encChan) (Tbl.get h.pcu.gangs g))) ∧
    (∀ n, n = 0 ∨ 12 < n → exec (.readGang who tag (some n)) s = range (.readGang (some n))) ∧
    exec (.readGang who tag none) s = done (.readGang none)
      (h.pcu.gangs.toList.flatMap (encOpt (encList encChan))) ∧
    (∀ rs ns, resources? ns = some rs → exec (.readClaims who tag ns) s = done (.readClaims ns)
      (encOn h.arb.frozen ++ encList (fun r =>
        let c := h.arb.claim r
        claimed r ++ encOpt (fun t => enc8 (timeLeft 48000 h.now t)) c.orphanDeadline ++ enc8 c.contenders.length ++
          encOpt (fun w => encReq w.1 ++ enc8 w.2.pos) (winnerOf h.sto.install.priority c.contenders)) rs)) ∧
    (∀ i : Out,
      let o := h.mon.output i
      exec (.readOutput who tag (i.1 + 1)) s = done (.readOutput (i.1 + 1))
        (encOpt encSource o.primary ++ encOpt encSource o.fallback ++ enc8 o.failAction.pos ++ enc8 o.gap ++
          encOn o.enable ++ encOn (Tbl.get h.sto.install.safeMember i) ++ enc8 o.pathState.pos ++
          encOpt encSource o.carried ++ encOpt (fun t => enc8 t.pos) o.gapTarget ++
          enc8 (roundNearest (o.fade * 100) Config.fadeFull).toNat ++
          encOpt (fun t => enc16 (timeLeft 48 h.now t)) o.revertDeadline ++ encOpt encDesk o.talker ++
          enc16 (roundNearest (o.duck * 10) Config.duckPerDb).toNat ++
          enc16 (roundNearest (o.duckTarget * 10) Config.duckPerDb).toNat ++ encOn h.mon.safe ++
          claimed (Out.res i))) ∧
    (∀ n, n = 0 ∨ 32 < n → exec (.readOutput who tag n) s = range (.readOutput n)) ∧
    exec (.readTalk who tag) s = done .readTalk
      (Desk.all.flatMap (fun d => encOpt (fun r : TalkRec => encSet r.destinations ++ enc8 r.duck ++ encSet r.granted ++
          encSet r.pending ++ enc8 ((rankIn d h.tbk.order).getD 0) ++ encOpt enc8 (rankIn d h.tbk.queue) ++
          encOpt enc16 (r.deadline.map (timeLeft 48000 h.now))) (h.tbk.records.get d)) ++
        encList encDesk h.tbk.queue ++ h.tbk.grants.toList.flatMap (encOpt encDesk) ++
        encOn h.tbk.st1 ++ encMask h.sto.install.mask1 ++ encOn h.tbk.st2 ++ encMask h.sto.install.mask2 ++
        enc16 h.sto.install.talkTimeout ++ Desk.all.flatMap fun d => enc8 (h.sto.install.priority.get d.req)) ∧
    (∀ d : Desk,
      let k := h.links.get d
      exec (.readLink who tag (Desk.num d)) s = done (.readLink (Desk.num d))
        (enc8 k.state.pos ++ encOpt (fun x => enc8 (Side.pos x)) k.activeLane ++ encOn k.provisional ++
          encOpt (fun t => enc16 (timeLeft 48 h.now t)) k.holdoverDeadline ++
          encOpt enc8 (if k.state = .up then some k.returnBuffer.length else none) ++
          enc32 k.rescuedFrames ++ enc32 k.repeatedFrames ++ lane ⟨d, .p⟩ ++ lane ⟨d, .s⟩)) ∧
    (∀ d : Desk,
      let body : Health → List Byte := fun x =>
        CounterName.all.flatMap (fun c => enc16 (x.counters.get c)) ++ enc8 x.verdict.pos ++
          encOpt (fun c : Capture => enc8 c.cause.pos ++ enc32 c.frameNumber.toNat ++ enc8 c.priorState.pos) x.capture
      exec (.readHealth who tag (Desk.num d)) s = done (.readHealth (Desk.num d))
        (body (laneGet h.hlm.health ⟨d, .p⟩) ++ body (laneGet h.hlm.health ⟨d, .s⟩) ++
          CounterName.all.flatMap (fun c => enc16 (h.sto.install.thresholds.get c).warn ++
            enc16 (h.sto.install.thresholds.get c).fail) ++
          encOpt (fun t : TestRec => enc8 (Side.pos t.lane) ++ enc32 t.length ++ enc32 t.framesDone ++
            enc32 t.patternFrames ++ enc32 t.patternErrors ++ encOn t.leadIn ++ enc8 t.status.pos)
            (h.hlm.tests.get d))) ∧
    (∀ n, n = 0 ∨ 3 < n → exec (.readLink who tag n) s = range (.readLink n) ∧
      exec (.readHealth who tag n) s = range (.readHealth n)) ∧
    (who = .panel → exec (.readInstall who tag) s = done .readInstall
      (h.sto.install.bytes ++ encOn h.sto.lock ++ enc8 h.sto.installStatus.pos ++ enc8 h.sto.showStatus.pos ++
        encOn h.sto.erasePrepared ++ encOff (h.sto.writing .install) ++ encOff (h.sto.writing .showData))) ∧
    (who = .panel →
      let p := h.pnl
      let body := enc8 p.notices.length ++ [if p.gapOwed then 0#8 else 0x01#8] ++ enc8 p.discardCount
      let after : Nat → Pnl → Host.Outcome State Fault Refusal := fun flush p' =>
        .next (s.withHub (answerTo .panel .done body { h.taken .panel tag (.readNotices flush) with pnl := p' }))
      exec (.readNotices who tag 0) s = after 0 { p with discardCount := 0 } ∧
      exec (.readNotices who tag 1) s = after 1 { p with
        discardCount := 0, notices := [], gapOwed := true, txn := p.txn.map fun t => { t with noticeStands := false } } ∧
      (∀ flush, 1 < flush → exec (.readNotices who tag flush) s = range (.readNotices flush)))

/-! ## The panel port and the settings store (chapter 9) -/

/-- IRQ is asserted exactly while an answer or a notice waits for the panel. TRANSACTION_START samples the status
byte, whose bits are those of Table 9-2, the answer and the oldest notice; one commanded while a transaction is open
does the same (log entry 20). STATUS_POLL shifts out 00h behind the status byte and changes nothing else. READ_ANSWER
with all bytes clocked delivers the answer and takes its request from the queue, the next one being taken into
execution; READ_NOTICE with all bytes clocked takes the oldest notice; ended earlier, or with nothing sampled, they
change nothing but the transaction.
Model choice: log entry 20. -/
def Obligations.PanelTransactions : Prop :=
  (∀ p : Pnl, p.irq = true ↔ p.answer ≠ none ∨ p.notices ≠ []) ∧
  (∀ (n : Nat) (s : State),
      let p := s.hub.pnl
      exec .transactionStart s = .next (s.withHub { s.hub with pnl := { p with
        txn := some ⟨s.hub.statusByte, p.answer, p.notices.head?, true⟩, miso := [s.hub.statusByte] } }) ∧
      (∀ t, p.txn = some t → exec (.statusPoll n) s = .next (s.withHub { s.hub with pnl := { p with
        txn := none, miso := t.status :: List.replicate n 0#8 } }))) ∧
  (∀ (h : Hub), h.pnl.notices.length ≤ 16 →
      h.statusByte.getLsbD 7 = h.pnl.answer.isSome ∧
      h.statusByte.getLsbD 6 = decide ((h.req.queues.get .panel).items.length < 8) ∧
      h.statusByte.getLsbD 5 = h.pnl.rejected ∧ h.statusByte.toNat % 32 = h.pnl.notices.length) ∧
  (∀ (n : Nat) (x : Answer) (e : QEntry) (es : List QEntry) (t : Txn) (s : State), s.hub.pnl.txn = some t →
      let closed : List Byte → Hub := fun out => { s.hub with pnl := { s.hub.pnl with txn := none, miso := t.status :: out } }
      let q := s.hub.req.queues.get .panel
      let delivered : Hub := { s.hub.setQueue .panel ⟨es, false, q.discarded⟩ with pnl := { s.hub.pnl with
        txn := none, answer := none
        miso := t.status :: (x.bytes ++ List.replicate (n - x.bytes.length) 0#8) } }
      (t.answer = some x → x.bytes.length ≤ n → q.items = e :: es →
        exec (.readAnswer n) s = .next (s.withHub (takeHead .panel delivered)) ∧
        (es = [] → exec (.readAnswer n) s = .next (s.withHub delivered))) ∧
      (t.answer = some x → n < x.bytes.length → exec (.readAnswer n) s = .next (s.withHub (closed (x.bytes.take n)))) ∧
      (t.answer = none → exec (.readAnswer n) s = .next (s.withHub (closed (List.replicate n 0#8))))) ∧
  (∀ (n : Nat) (x : NoticeEntry) (t : Txn) (s : State), s.hub.pnl.txn = some t →
      let closed : List Byte → Pnl := fun out => { s.hub.pnl with txn := none, miso := t.status :: out }
      (t.notice = some x → t.noticeStands = true → x.bytes.length ≤ n →
        exec (.readNotice n) s = .next (s.withHub { s.hub with pnl :=
          { closed (x.bytes ++ List.replicate (n - x.bytes.length) 0#8) with notices := s.hub.pnl.notices.tail } })) ∧
      (t.notice = some x → n < x.bytes.length →
        exec (.readNotice n) s = .next (s.withHub { s.hub with pnl := closed (x.bytes.take n) })) ∧
      (t.notice = none →
        exec (.readNotice n) s = .next (s.withHub { s.hub with pnl := closed (List.replicate n 0#8) })))

/-- WRITE_REQUEST: a message of the right length and CRC is handed whole to REQ and clears rejected; any other bytes
are discarded and set it. Ended after its first byte it is a status poll: rejected stands. -/
def Obligations.WriteRequestHandsOnOrRejects : Prop :=
  ∀ (bytes : List Byte) (t : Txn) (s : State), s.hub.pnl.txn = some t →
    let closed : Bool → Hub := fun rejected => { s.hub with pnl := { s.hub.pnl with
      txn := none, miso := t.status :: List.replicate bytes.length 0#8, rejected := rejected } }
    (∀ e, lengthOk bytes = true → parseMessage bytes = some e →
      exec (.writeRequest bytes) s = .next (s.withHub (arrive .panel e (closed false)))) ∧
    (bytes ≠ [] → (lengthOk bytes = false ∨ parseMessage bytes = none) →
      exec (.writeRequest bytes) s = .next (s.withHub (closed true))) ∧
    (bytes = [] → exec (.writeRequest bytes) s = .next (s.withHub (closed s.hub.pnl.rejected)))

/-- HUB_RESTART by PANEL, no test completion being due: every desk's requests, answers and notices are dropped and its
gap owed (its mark, or the GAP flag of HUB_RESTARTED where its link is UP), talk is released, the Output Table stands
but for the talkers removed and their ducks, tests in progress are aborted, the Claim Table opens unless the show
freeze is set; channels, tracking, links and health counters stand, and PANEL's answer is DONE.
Model choice: log entry 25. -/
def Obligations.HubRestartDropsRequestsAndTalk : Prop :=
  ∀ (tag : Byte) (s : State), Free .panel s.hub →
    (∀ d x, s.hub.hlm.tests.get d = some x → x.status = .running → x.framesDone < x.length) →
    let h := s.hub
    ∃ t, exec (.hubRestart .panel tag) s = .next t ∧
      (∀ d : Desk, t.hub.req.queues.get d.req = ⟨[], false, false⟩ ∧ (t.hub.req.desks.get d).answer = none ∧
        (t.hub.req.desks.get d).hold = false ∧
        (t.hub.req.desks.get d).notices =
          (if (h.links.get d).state = .up then [⟨.hubRestarted h.arb.frozen, true⟩] else []) ∧
        (t.hub.req.desks.get d).gapOwed = decide ((h.links.get d).state ≠ .up) ∧
        (t.hub.req.desks.get d).noticeGap = true) ∧
      t.hub.mon = { h.mon with outputs := t.hub.mon.outputs } ∧
      (h.TalkOk → ∀ i : Out,
        let o := h.mon.output i
        t.hub.mon.output i = if Tbl.get h.tbk.grants i = none then o else { o with
          talker := none, duckTarget := 0, duck := if o.gap = 0 then 0 else o.duck }) ∧
      (∀ d, t.hub.tbk.records.get d = none) ∧ (∀ o, Tbl.get t.hub.tbk.grants o = none) ∧
      t.hub.tbk.arrival = h.tbk.arrival ∧
      (∀ d x, h.hlm.tests.get d = some x → t.hub.hlm.tests.get d =
        some (if x.status = .running ∨ x.status = .suspended then { x with status := .aborted } else x)) ∧
      t.hub.hlm.health = h.hlm.health ∧
      (h.arb.frozen = false → ∀ r, t.hub.arb.claim r = .opened) ∧
      (h.arb.frozen = true → ∀ r, t.hub.arb.claim r = h.arb.claim r) ∧ t.hub.arb.frozen = h.arb.frozen ∧
      (∀ r, t.hub.arb.pendingClaims.get r = none) ∧
      t.hub.pnl.notices = [⟨.hubRestarted h.arb.frozen, true⟩] ∧ t.hub.pnl.discardCount = h.pnl.discardCount ∧
      t.hub.pnl.rejected = h.pnl.rejected ∧
      t.hub.answerOf .panel = some ⟨0x1E#8, tag, false, .done, []⟩ ∧
      t.hub.now = h.now ∧ t.hub.pcu = h.pcu ∧ t.hub.links = h.links ∧
      t.hub.sto = { h.sto with erasePrepared := false }

/-- WRITE_INSTALL by PANEL with every value in range on an unlocked region: the running values are the new ones, and
an INSTALL save is started where no write runs, PANEL's answer waiting on it, the region failing its CRC from then on;
a locked region is answered REGION_LOCKED and a value out of range RANGE, with nothing changed.
Model choice: log entries 19, 29. -/
def Obligations.WriteInstallTakesTheSettings : Prop :=
  ∀ (tag : Byte) (bytes : List Byte) (s : State), Free .panel s.hub → bytes.length = 44 →
    let call := Call.writeInstall bytes
    let result := exec (.writeInstall .panel tag bytes) s
    (∀ x, Install.ofBytes bytes = some x → s.hub.sto.lock = false → s.hub.sto.running = none →
      s.hub.sto.writeList = [] → ∃ t, result = .next t ∧ t.hub.sto.install = x ∧
        t.hub.sto.running = some ⟨⟨.install, .save, true⟩, .install ⟨x, false⟩, later s.hub.now 4800⟩ ∧
        t.hub.sto.awaited = s.hub.sto.awaited + 1 ∧
        t.hub.sto.writeList = [] ∧ t.hub.sto.installRegion.contents = s.hub.sto.installRegion.contents ∧
        t.hub.sto.installRegion.crc ≠ crc16 t.hub.sto.installRegion.contents.settings.bytes ∧
        t.hub.sto.showRegion = s.hub.sto.showRegion ∧ t.hub.answerOf .panel = none ∧
        t.hub.pcu = s.hub.pcu ∧ t.hub.arb = s.hub.arb ∧ t.hub.tbk = s.hub.tbk) ∧
    (∀ x, Install.ofBytes bytes = some x → s.hub.sto.lock = true →
      result = .next (s.withHub (s.hub.answered .panel tag call .regionLocked []))) ∧
    (Install.ofBytes bytes = none → result = .next (s.withHub (s.hub.answered .panel tag call .range [])))

/-- SAVE_NOW, LOCK_INSTALL and ERASE_INSTALL after ERASE_PREPARE, by PANEL with no write running or pending, start a
write of the region with its snapshot and a fault deadline 4,800 frames ahead, PANEL's answer waiting on it.
LOCK_INSTALL on a locked region is DONE at once, ERASE_INSTALL without ERASE_PREPARE is NO_PREPARE, ERASE_PREPARE sets
its mark. SETTLE_EXPIRY at its deadline stops the timer and starts a SHOW save where no write runs, or leaves it in
the list. A region whose write has started fails its CRC.
Model choice: log entries 19, 29. -/
def Obligations.StoreWritesStart : Prop :=
  (∀ (tag : Byte) (s : State), Free .panel s.hub → s.hub.sto.running = none → s.hub.sto.writeList = [] →
      let x := s.hub.sto
      let started : Call → RegionName → WriteKind → Snapshot → Host.Outcome State Fault Refusal := fun c r k snap =>
        let h1 := s.hub.taken .panel tag c
        .next (s.withHub { h1 with sto := { h1.sto with
          running := some ⟨⟨r, k, true⟩, snap, later s.hub.now 4800⟩
          awaited := x.awaited + 1
          settle := if r = .showData then none else x.settle
          installRegion := if r = .install
            then ⟨x.installRegion.contents, ~~~(crc16 x.installRegion.contents.settings.bytes)⟩ else x.installRegion
          showRegion := if r = .showData
            then ⟨x.showRegion.contents, ~~~(crc16 x.showRegion.contents.bytes)⟩ else x.showRegion } })
      exec (.saveNow .panel tag) s = started .saveNow .showData .save (.showData s.hub.showData) ∧
      (x.lock = false →
        exec (.lockInstall .panel tag) s = started .lockInstall .install .lock (.install ⟨x.install, true⟩)) ∧
      (x.lock = true →
        exec (.lockInstall .panel tag) s = .next (s.withHub (s.hub.answered .panel tag .lockInstall .done []))) ∧
      (x.erasePrepared = true →
        exec (.eraseInstall .panel tag) s =
          started .eraseInstall .install .erase (.install ⟨Install.defaults, false⟩)) ∧
      (x.erasePrepared = false →
        exec (.eraseInstall .panel tag) s =
          .next (s.withHub (s.hub.answered .panel tag .eraseInstall .noPrepare []))) ∧
      exec (.erasePrepare .panel tag) s = .next (s.withHub (answerTo .panel .done []
        { s.hub.taken .panel tag .erasePrepare with sto := { x with erasePrepared := true } }))) ∧
  (∀ (dl : Frame) (s : State), s.hub.sto.settle = some dl → reached s.hub.now dl = true →
      let x := s.hub.sto
      (x.running = none → x.writeList = [] → exec .settleExpiry s = .next (s.withHub { s.hub with sto := { x with
        settle := none
        showRegion := ⟨x.showRegion.contents, ~~~(crc16 x.showRegion.contents.bytes)⟩
        awaited := x.awaited + 1
        running := some ⟨⟨.showData, .save, false⟩, .showData s.hub.showData, later s.hub.now 4800⟩ } })) ∧
      (x.running ≠ none → (∀ e ∈ x.writeList, e.region ≠ .showData) →
        exec .settleExpiry s = .next (s.withHub { s.hub with sto := { x with
          settle := none, writeList := x.writeList ++ [⟨.showData, .save, false⟩] } })) ∧
      (∀ waiting, x.running ≠ none → x.writeList = [⟨.showData, .save, waiting⟩] →
        exec .settleExpiry s = .next (s.withHub { s.hub with sto := { x with settle := none } })))

/-- STORE_WRITE_COMPLETE of the running write before its fault deadline, with none pending: the region holds the
snapshot with its CRC-16, its status is GOOD with STORE_STATE if it was not, LOCK and ERASE take effect, and the
waiting request is answered DONE. At or after the deadline, or with none running, the signal is ignored; so is one
that is an abandoned write's, which only the free value tells from the running one's while such a signal is
outstanding (log entry 29). STORE_WRITE_FAULT at the deadline: the write is abandoned, the status is FAULT,
STORE_STATE is sent and the waiting request is answered STORE_FAULT. At either end a pending entry starts.
Model choice: log entries 19, 29. -/
def Obligations.StoreWriteEnds : Prop :=
  (∀ (w : RunningWrite) (s : State), s.hub.sto.running = some w → s.hub.sto.writeList = [] →
    let h := s.hub
    let complete := exec .storeWriteComplete s
    let own := h.sto.awaited ≤ 1 ∨ Config.signalIsLate h.sto.signals = false
    let inTime := reached h.now w.faultDeadline = false ∧ own
    let signalled : Sto := { h.sto with awaited := h.sto.awaited - 1, signals := h.sto.signals + 1 }
    let answered : State → Code → Prop := fun t code =>
      (∀ e es, w.entry.waiting = true → (h.req.queues.get .panel).executing = true →
        (h.req.queues.get .panel).items = e :: es → t.hub.answerOf .panel =
          some ⟨e.call.kind, e.tag, (h.req.queues.get .panel).discarded, code, []⟩) ∧
      (w.entry.waiting = false → t.hub.answerOf .panel = h.answerOf .panel)
    (∀ data, inTime → w.snapshot = .showData data → w.entry.region = .showData → w.entry.kind = .save →
      w.entry.waiting = false → h.sto.showStatus = .good →
      complete = .next (s.withHub { h with sto := { signalled with
        running := none, showRegion := ⟨data, crc16 data.bytes⟩ } })) ∧
    (∀ data, inTime → w.snapshot = .showData data → w.entry.region = .showData → w.entry.kind = .save →
      ∃ t, complete = .next t ∧ answered t .done ∧
        t.hub.sto = { signalled with
          running := none, showRegion := ⟨data, crc16 data.bytes⟩, showStatus := .good } ∧
        (h.sto.showStatus ≠ .good → h.pnl.notices.length < 16 → ∃ g, t.hub.pnl.notices =
          h.pnl.notices ++ [⟨.storeState .showData .good .writeDone, g⟩]) ∧
        (h.sto.showStatus = .good → t.hub.pnl.notices = h.pnl.notices) ∧
        t.hub.pcu = h.pcu ∧ t.hub.arb = h.arb ∧ t.hub.links = h.links ∧ t.hub.hlm = h.hlm ∧ t.hub.mon = h.mon ∧
        t.hub.tbk = h.tbk) ∧
    (∀ image, inTime → w.snapshot = .install image → w.entry.region = .install →
      ∃ t, complete = .next t ∧ answered t .done ∧
        t.hub.sto.installRegion = ⟨image, crc16 image.settings.bytes⟩ ∧ t.hub.sto.installStatus = .good ∧
        t.hub.sto.running = none ∧ t.hub.sto.showRegion = h.sto.showRegion ∧
        t.hub.sto.lock = (match w.entry.kind with | .save => h.sto.lock | .lock => true | .erase => false) ∧
        t.hub.sto.install = (if w.entry.kind = .erase then Install.defaults else h.sto.install) ∧
        (h.sto.installStatus ≠ .good → w.entry.kind ≠ .erase → h.pnl.notices.length < 16 →
          ∃ g, t.hub.pnl.notices = h.pnl.notices ++ [⟨.storeState .install .good .writeDone, g⟩])) ∧
    (reached h.now w.faultDeadline = true ∨ ¬own → complete = .next (s.withHub { h with sto := signalled })) ∧
    (reached h.now w.faultDeadline = true → ∃ t, exec .storeWriteFault s = .next t ∧ answered t .storeFault ∧
      t.hub.sto.running = none ∧
      (if w.entry.region = .install then t.hub.sto.installStatus else t.hub.sto.showStatus) = .fault ∧
      t.hub.sto.install = h.sto.install ∧ t.hub.sto.lock = h.sto.lock ∧ t.hub.sto.settle = h.sto.settle ∧
      t.hub.sto.installRegion = h.sto.installRegion ∧ t.hub.sto.showRegion = h.sto.showRegion ∧
      (h.pnl.notices.length < 16 → ∃ g, t.hub.pnl.notices =
        h.pnl.notices ++ [⟨.storeState w.entry.region .fault .writeFault, g⟩]))) ∧
  (∀ (s : State), s.hub.sto.running = none → exec .storeWriteComplete s = .next (s.withHub { s.hub with
      sto := { s.hub.sto with awaited := s.hub.sto.awaited - 1, signals := s.hub.sto.signals + 1 } })) ∧
  (∀ (w : RunningWrite) (e : WriteEntry) (s : State), s.hub.sto.running = some w → s.hub.sto.writeList = [e] →
    let starts : Instr → Prop := fun i => ∃ t r, exec i s = .next t ∧ t.hub.sto.writeList = [] ∧
      t.hub.sto.running = some r ∧ r.entry = e ∧ r.faultDeadline = later s.hub.now 4800
    (reached s.hub.now w.faultDeadline = false →
      s.hub.sto.awaited ≤ 1 ∨ Config.signalIsLate s.hub.sto.signals = false → starts .storeWriteComplete) ∧
    (reached s.hub.now w.faultDeadline = true → starts .storeWriteFault))

/-! ## The frame period (R65, R73, R166) -/

/-- FRAME_PERIOD ends a period: missing frames are recorded and due steps taken, then the links, A, B, C, make their
takes (step 2), then their deliveries (step 3), then the output samples are formed; the links, the Output Table and
the output ports are those that these leave, the links at the start of a period and each output after its fade step
and its duck step, its enable and talker latched. It advances the counter by 1 and sends each desk a downstream frame
of the new number with HOLD, the notice-gap indication (the mark set, or a GAP notice buffered) and the control cell,
all from the desk's port as the ended period leaves it; PATTERN for the lane under a running test, each channel's
input slot and the desk's stage talk; the input ports are the channels' samples. A channel in phantom transition sends
the zero word; an entry with trim 0 sends its sample. The control cell is the next one of the message being sent, else
the first of the answer or the oldest notice, whichever was handed over first, else IDLE; a notice wholly sent leaves
its buffer, an answer waits for its delivery.
Model choice: log entry 4. -/
def Obligations.FramePeriodSendsTheFrames : Prop :=
  (∀ (ports : PortSamples) (s : State), ∃ t, exec (.framePeriod ports) s = .next t ∧
    let swept := sweep (missingFrames s.hub)
    let taken := takeStep (takeStep (takeStep swept .a) .b) .c
    let ended := deliverStep (deliverStep (deliverStep taken .a) .b) .c
    t.pending = s.pending ∧ t.hub.now = s.hub.now + 1#32 ∧ t.hub.pcu.samples = ports.inputs ∧
    t.hub.pcu = { ended.pcu with before := ended.pcu.samples, samples := ports.inputs } ∧
    (∀ d : Desk,
      let k := ended.links.get d
      t.hub.links.get d = { k with
        delivered := none, fresh := false
        lanes := ⟨{ k.lanes.p with arrived := false, rx := none }, { k.lanes.s with arrived := false, rx := none }⟩ }) ∧
    t.hub.mon.port = (outputSamples ended).mon.port ∧ t.hub.mon.safe = ended.mon.safe ∧
    (∀ i : Out, t.hub.mon.output i = (ended.mon.output i).fadeStep.duckStep ∧
      Tbl.get t.hub.mon.view i = ⟨(ended.mon.output i).enable, (ended.mon.output i).talker⟩) ∧
    t.hub.arb = ended.arb ∧ t.hub.hlm = ended.hlm ∧ t.hub.tbk = ended.tbk ∧ t.hub.sto = ended.sto ∧
    t.hub.pnl = ended.pnl ∧ t.hub.req.queues = ended.req.queues ∧
    (∀ d : Desk, (t.hub.links.get d).fresh = false ∧ (t.hub.links.get d).delivered = none) ∧
    (∀ l : LaneId, (t.hub.lane l).arrived = false ∧ (t.hub.lane l).rx = none) ∧
    (∀ d : Desk,
      let f := t.hub.down.get d
      let p := ended.req.desks.get d
      f.number = t.hub.now ∧ f.hold = p.hold ∧ f.hold = (t.hub.req.desks.get d).hold ∧
      (f.gap = true ↔ p.gapOwed = true ∨ ∃ n ∈ p.notices, n.gap = true) ∧
      f.cell = p.nextCell.1 ∧ t.hub.req.desks.get d = p.nextCell.2 ∧
      f.patternP = t.hub.hlm.testRunningOn ⟨d, .p⟩ ∧ f.patternS = t.hub.hlm.testRunningOn ⟨d, .s⟩ ∧
      f.stageTalk = stageSlot t.hub ports.st1 ports.st2 d ∧
      (∀ c : Chan, Tbl.get f.slots c = inputSlot t.hub.pcu d c) ∧
      (∀ c : Chan, (t.hub.pcu.channel c).phantomState = .charging ∨ (t.hub.pcu.channel c).phantomState = .discharging →
        Tbl.get f.slots c = 0#24) ∧
      (∀ c : Chan, (t.hub.pcu.channel c).inTransition = false → (t.hub.pcu.track d c).trim = 0 →
        Tbl.get f.slots c = Tbl.get ports.inputs c))) ∧
  (∀ (p : DeskPort),
      (∀ c c' cs isAnswer, p.tx = some ⟨c :: c' :: cs, isAnswer⟩ →
        p.nextCell = (c, { p with tx := some ⟨c' :: cs, isAnswer⟩ })) ∧
      (∀ c, p.tx = some ⟨[c], true⟩ → p.nextCell = (c, { p with tx := some ⟨[], true⟩ })) ∧
      (∀ c, p.tx = some ⟨[c], false⟩ → p.nextCell = (c, { p with
        notices := p.notices.tail, tx := none
        answer := p.answer.map fun x => { x with ahead := x.ahead - 1 } })) ∧
      (∀ isAnswer, p.tx = some ⟨[], isAnswer⟩ → p.nextCell = (Cell.idle, p)) ∧
      (p.tx = none → p.answer = none → p.notices = [] → p.nextCell = (Cell.idle, p)) ∧
      (∀ n ns, p.tx = none → p.notices = n :: ns → (∀ x, p.answer = some x → x.ahead ≠ 0) →
        p.nextCell = ({ p with tx := some ⟨messageCells n.bytes, false⟩ } : DeskPort).nextCell) ∧
      (∀ x, p.tx = none → p.answer = some x → x.ahead = 0 ∨ p.notices = [] →
        p.nextCell = ({ p with tx := some ⟨x.answer.cells, true⟩ } : DeskPort).nextCell))

/-! ## Invariants that every step keeps -/

/-- Every queue, buffer and list stays within its capacity and every count within its range: request queues, notice
buffers, the message assemblers, the return and alignment buffers, pending claims, contender lists with one entry a
requester, the Store Write List with one entry a region, the run counts of a lane, rescue, repeat, pattern-error and
health counts, the discard count. The `qualify_count` is left out. -/
def Obligations.StepKeepsTheCapacities : Prop :=
  ∀ (s t : State), s.hub.Bounded → step s = .next t → t.hub.Bounded

/-- The fields of every link record agree with its state and with its lanes: an active lane exactly while UP, a
holdover deadline exactly in HOLDOVER, provisional exactly on an unqualified active lane, a latency exactly while in
sync. -/
def Obligations.StepKeepsTheLinks : Prop :=
  ∀ (s t : State), (∀ d : Desk, (s.hub.links.get d).Ok) → step s = .next t → ∀ d : Desk, (t.hub.links.get d).Ok

/-- A CONTENDED record has a contender and the table is not frozen; an ORPHANED record's holder is a desk whose link
is not UP, with a grace deadline exactly while the table is not frozen. -/
def Obligations.StepKeepsTheClaims : Prop :=
  ∀ (s t : State), s.hub.ClaimsOk → step s = .next t → t.hub.ClaimsOk

/-- At most 8 channels are CHARGING, and the Phantom Queue lists each QUEUED channel once. The Gang Table holds lists
of 2 to 8 distinct channels, no channel in two, and the gang fields follow it; the members of a gang are staged
together. Every tracking entry has a reference exactly while ON, its trim derived from it within range and its mark
set exactly where the derivation was limited. What the store holds of both can be restored. -/
def Obligations.StepKeepsThePhantomQueue : Prop :=
  (∀ (s t : State), s.hub.PhantomOk → step s = .next t → t.hub.PhantomOk) ∧
  (∀ (s t : State), s.hub.GangsOk → s.hub.TracksOk → s.hub.sto.ShowOk → step s = .next t →
    t.hub.GangsOk ∧ t.hub.TracksOk ∧ t.hub.sto.ShowOk)

/-- Every output carries what its path state says, from a link that is UP, and a revert timer runs only on an output
that takes from its fallback while its primary is UP. -/
def Obligations.StepKeepsTheOutputs : Prop :=
  ∀ (s t : State), s.hub.OutputsOk → step s = .next t → t.hub.OutputsOk

/-- The Talk Grant map, the talk records and the outputs' talkers agree, and a record stands only while its desk's
link is UP. -/
def Obligations.StepKeepsTheTalkGrants : Prop :=
  ∀ (s t : State), s.hub.TalkOk → step s = .next t → t.hub.TalkOk

/-- Every one of these invariants holds right after reset.
Model choice: log entries 13, 14. -/
def Obligations.ResetMeetsTheInvariants : Prop :=
  let h := State.reset.hub
  h.Bounded ∧ (∀ d : Desk, (h.links.get d).Ok) ∧ h.ClaimsOk ∧ h.PhantomOk ∧ h.GangsOk ∧ h.TracksOk ∧ h.sto.ShowOk ∧
    h.OutputsOk ∧ h.TalkOk
end

