-- ==== Sys2Proof/Laws/State.lean ====
section
/-!
SUPPORT. What the tables and the updates of the part read back: one rule per reader and update, so that no later proof
unfolds a record update.
-/

namespace Sys2Proof

/-! ## Tables -/

@[simp] theorem PerDesk.get_set {α : Type} (t : PerDesk α) (d e : Desk) (x : α) :
    (t.set d x).get e = if e = d then x else t.get e := by
  cases d <;> cases e <;> rfl

@[simp] theorem PerDesk.get_of {α : Type} (f : Desk → α) (d : Desk) : (PerDesk.of f).get d = f d := by cases d <;> rfl

@[simp] theorem PerDesk.set_get {α : Type} (t : PerDesk α) (d : Desk) : t.set d (t.get d) = t := by cases d <;> rfl

@[simp] theorem PerDesk.set_set {α : Type} (t : PerDesk α) (d : Desk) (x y : α) : (t.set d x).set d y = t.set d y := by
  cases d <;> rfl

theorem PerDesk.ext_get {α : Type} {t u : PerDesk α} (h : ∀ d, t.get d = u.get d) : t = u := by
  cases t; cases u; simpa [PerDesk.get] using ⟨h .a, h .b, h .c⟩

@[simp] theorem PerReq.get_set {α : Type} (t : PerReq α) (r q : Requester) (x : α) :
    (t.set r x).get q = if q = r then x else t.get q := by
  cases r <;> cases q <;> rfl

@[simp] theorem PerReq.get_of {α : Type} (f : Requester → α) (r : Requester) : (PerReq.of f).get r = f r := by
  cases r <;> rfl

@[simp] theorem PerReq.set_get {α : Type} (t : PerReq α) (r : Requester) : t.set r (t.get r) = t := by cases r <;> rfl

@[simp] theorem PerReq.set_set {α : Type} (t : PerReq α) (r : Requester) (x y : α) :
    (t.set r x).set r y = t.set r y := by
  cases r <;> rfl

theorem PerReq.ext_get {α : Type} {t u : PerReq α} (h : ∀ r, t.get r = u.get r) : t = u := by
  cases t; cases u; simpa [PerReq.get] using ⟨h .a, h .b, h .c, h .panel⟩

@[simp] theorem PerSide.get_set {α : Type} (t : PerSide α) (l m : Side) (x : α) :
    (t.set l x).get m = if m = l then x else t.get m := by
  cases l <;> cases m <;> rfl

@[simp] theorem PerSide.set_get {α : Type} (t : PerSide α) (l : Side) : t.set l (t.get l) = t := by cases l <;> rfl

@[simp] theorem PerSide.set_set {α : Type} (t : PerSide α) (l : Side) (x y : α) : (t.set l x).set l y = t.set l y := by
  cases l <;> rfl

@[simp] theorem Side.other_other (l : Side) : l.other.other = l := by cases l <;> rfl

@[simp] theorem Side.other_ne (l : Side) : l.other ≠ l := by cases l <;> simp [Side.other]

@[simp] theorem Desk.desk_req (d : Desk) : d.req.desk = some d := by cases d <;> rfl

@[simp] theorem Desk.req_inj {d e : Desk} : d.req = e.req ↔ d = e := by cases d <;> cases e <;> simp [Desk.req]

@[simp] theorem Desk.req_ne_panel (d : Desk) : d.req ≠ .panel := by cases d <;> simp [Desk.req]

/-- A requester with a desk is that desk. -/
theorem Requester.eq_req {r : Requester} {d : Desk} (h : r.desk = some d) : r = d.req := by
  cases r <;> simp_all [Requester.desk] <;> subst h <;> rfl

/-- A requester without a desk is PANEL. -/
theorem Requester.eq_panel {r : Requester} (h : r.desk = none) : r = .panel := by
  cases r <;> simp_all [Requester.desk]

@[simp] theorem Tbl.get_set {n : Nat} {α : Type} (v : Vector α n) (i j : Fin n) (x : α) :
    Tbl.get (Tbl.set v i x) j = if j = i then x else Tbl.get v j := by
  unfold Tbl.get Tbl.set
  by_cases h : j = i
  · subst h; simp
  · have : i.1 ≠ j.1 := fun e => h (Fin.ext e.symm)
    simp [h, this]

@[simp] theorem Tbl.get_of {n : Nat} {α : Type} (f : Fin n → α) (i : Fin n) : Tbl.get (Tbl.of f) i = f i := by
  simp [Tbl.get, Tbl.of]

@[simp] theorem Tbl.get_replicate {n : Nat} {α : Type} (x : α) (i : Fin n) : Tbl.get (Vector.replicate n x) i = x := by
  simp [Tbl.get]

@[simp] theorem Tbl.get_empty {n : Nat} (i : Fin n) : Tbl.get (BitSet.empty n) i = false := by simp [BitSet.empty]

theorem Tbl.ext_get {n : Nat} {α : Type} {v w : Vector α n} (h : ∀ i, Tbl.get v i = Tbl.get w i) : v = w := by
  apply Vector.ext
  intro i hi
  exact h ⟨i, hi⟩

@[simp] theorem Tbl.set_get {n : Nat} {α : Type} (v : Vector α n) (i : Fin n) : Tbl.set v i (Tbl.get v i) = v := by
  apply Tbl.ext_get
  intro j
  by_cases h : j = i <;> simp [h]

@[simp] theorem Tbl.of_get {n : Nat} {α : Type} (v : Vector α n) : (Tbl.of fun i => Tbl.get v i) = v := by
  apply Tbl.ext_get
  simp

@[simp] theorem BitSet.mem_members {n : Nat} (v : BitSet n) (i : Fin n) : i ∈ v.members ↔ Tbl.get v i = true := by
  simp [BitSet.members]

namespace Machine

/-! ## Updates of the part -/

@[simp] theorem Hub.setDesk_desks (h : Hub) (d e : Desk) (p : DeskPort) :
    (h.setDesk d p).req.desks.get e = if e = d then p else h.req.desks.get e := by simp [Hub.setDesk]

@[simp] theorem Hub.setDesk_self (h : Hub) (d : Desk) : h.setDesk d (h.req.desks.get d) = h := by simp [Hub.setDesk]

@[simp] theorem Hub.setDesk_setDesk (h : Hub) (d : Desk) (p q : DeskPort) :
    (h.setDesk d p).setDesk d q = h.setDesk d q := by simp [Hub.setDesk]

@[simp] theorem Hub.setDesk_other (h : Hub) (d : Desk) (p : DeskPort) :
    (h.setDesk d p).req.queues = h.req.queues ∧ (h.setDesk d p).now = h.now ∧ (h.setDesk d p).pcu = h.pcu ∧
    (h.setDesk d p).arb = h.arb ∧ (h.setDesk d p).links = h.links ∧ (h.setDesk d p).hlm = h.hlm ∧
    (h.setDesk d p).mon = h.mon ∧ (h.setDesk d p).tbk = h.tbk ∧ (h.setDesk d p).pnl = h.pnl ∧
    (h.setDesk d p).sto = h.sto ∧ (h.setDesk d p).down = h.down := ⟨rfl, rfl, rfl, rfl, rfl, rfl, rfl, rfl, rfl, rfl, rfl⟩

@[simp] theorem Hub.setQueue_queues (h : Hub) (r q : Requester) (x : ReqQueue) :
    (h.setQueue r x).req.queues.get q = if q = r then x else h.req.queues.get q := by simp [Hub.setQueue]

@[simp] theorem Hub.setQueue_setQueue (h : Hub) (r : Requester) (x y : ReqQueue) :
    (h.setQueue r x).setQueue r y = h.setQueue r y := by simp [Hub.setQueue]

@[simp] theorem Hub.setQueue_other (h : Hub) (r : Requester) (x : ReqQueue) :
    (h.setQueue r x).req.desks = h.req.desks ∧ (h.setQueue r x).now = h.now ∧ (h.setQueue r x).pcu = h.pcu ∧
    (h.setQueue r x).arb = h.arb ∧ (h.setQueue r x).links = h.links ∧ (h.setQueue r x).hlm = h.hlm ∧
    (h.setQueue r x).mon = h.mon ∧ (h.setQueue r x).tbk = h.tbk ∧ (h.setQueue r x).pnl = h.pnl ∧
    (h.setQueue r x).sto = h.sto ∧ (h.setQueue r x).down = h.down := ⟨rfl, rfl, rfl, rfl, rfl, rfl, rfl, rfl, rfl, rfl, rfl⟩

@[simp] theorem Hub.setLink_links (h : Hub) (d e : Desk) (k : Link) :
    (h.setLink d k).links.get e = if e = d then k else h.links.get e := by simp [Hub.setLink]

@[simp] theorem Hub.setLink_other (h : Hub) (d : Desk) (k : Link) :
    (h.setLink d k).now = h.now ∧ (h.setLink d k).pcu = h.pcu ∧ (h.setLink d k).arb = h.arb ∧
    (h.setLink d k).hlm = h.hlm ∧ (h.setLink d k).mon = h.mon ∧ (h.setLink d k).tbk = h.tbk ∧
    (h.setLink d k).req = h.req ∧ (h.setLink d k).pnl = h.pnl ∧ (h.setLink d k).sto = h.sto ∧
    (h.setLink d k).down = h.down := ⟨rfl, rfl, rfl, rfl, rfl, rfl, rfl, rfl, rfl, rfl⟩

theorem Hub.setLane_links (h : Hub) (l : LaneId) (r : LaneRec) (e : Desk) :
    (h.setLane l r).links.get e =
      if e = l.link then { h.links.get e with lanes := (h.links.get e).lanes.set l.side r } else h.links.get e := by
  by_cases he : e = l.link
  · subst he; simp [Hub.setLane]
  · simp [Hub.setLane, he]

@[simp] theorem Hub.setLane_lane (h : Hub) (l m : LaneId) (r : LaneRec) :
    (h.setLane l r).lane m = if m = l then r else h.lane m := by
  obtain ⟨d, x⟩ := l
  obtain ⟨e, y⟩ := m
  cases d <;> cases e <;> cases x <;> cases y <;> rfl

@[simp] theorem Hub.setLane_other (h : Hub) (l : LaneId) (r : LaneRec) :
    (h.setLane l r).now = h.now ∧ (h.setLane l r).pcu = h.pcu ∧ (h.setLane l r).arb = h.arb ∧
    (h.setLane l r).hlm = h.hlm ∧ (h.setLane l r).mon = h.mon ∧ (h.setLane l r).tbk = h.tbk ∧
    (h.setLane l r).req = h.req ∧ (h.setLane l r).pnl = h.pnl ∧ (h.setLane l r).sto = h.sto ∧
    (h.setLane l r).down = h.down := ⟨rfl, rfl, rfl, rfl, rfl, rfl, rfl, rfl, rfl, rfl⟩

@[simp] theorem laneGet_laneSet {α : Type} (t : PerDesk (PerSide α)) (l m : LaneId) (x : α) :
    laneGet (laneSet t l x) m = if m = l then x else laneGet t m := by
  obtain ⟨d, a⟩ := l
  obtain ⟨e, b⟩ := m
  cases d <;> cases e <;> cases a <;> cases b <;> rfl

@[simp] theorem Hub.setHealth_health (h : Hub) (l m : LaneId) (x : Health) :
    laneGet (h.setHealth l x).hlm.health m = if m = l then x else laneGet h.hlm.health m := by simp [Hub.setHealth]

@[simp] theorem Hub.setHealth_other (h : Hub) (l : LaneId) (x : Health) :
    (h.setHealth l x).hlm.tests = h.hlm.tests ∧ (h.setHealth l x).now = h.now ∧ (h.setHealth l x).pcu = h.pcu ∧
    (h.setHealth l x).arb = h.arb ∧ (h.setHealth l x).links = h.links ∧ (h.setHealth l x).mon = h.mon ∧
    (h.setHealth l x).tbk = h.tbk ∧ (h.setHealth l x).req = h.req ∧ (h.setHealth l x).pnl = h.pnl ∧
    (h.setHealth l x).sto = h.sto ∧ (h.setHealth l x).down = h.down := ⟨rfl, rfl, rfl, rfl, rfl, rfl, rfl, rfl, rfl, rfl, rfl⟩

@[simp] theorem Hub.setTest_tests (h : Hub) (d e : Desk) (t : Option TestRec) :
    (h.setTest d t).hlm.tests.get e = if e = d then t else h.hlm.tests.get e := by simp [Hub.setTest]

@[simp] theorem Hub.setTest_other (h : Hub) (d : Desk) (t : Option TestRec) :
    (h.setTest d t).hlm.health = h.hlm.health ∧ (h.setTest d t).now = h.now ∧ (h.setTest d t).pcu = h.pcu ∧
    (h.setTest d t).arb = h.arb ∧ (h.setTest d t).links = h.links ∧ (h.setTest d t).mon = h.mon ∧
    (h.setTest d t).tbk = h.tbk ∧ (h.setTest d t).req = h.req ∧ (h.setTest d t).pnl = h.pnl ∧
    (h.setTest d t).sto = h.sto ∧ (h.setTest d t).down = h.down := ⟨rfl, rfl, rfl, rfl, rfl, rfl, rfl, rfl, rfl, rfl, rfl⟩

/-! ## Records of the blocks -/

@[simp] theorem Pcu.channel_setChannel (p : Pcu) (c e : Chan) (x : Channel) :
    (p.setChannel c x).channel e = if e = c then x else p.channel e := by simp [Pcu.channel, Pcu.setChannel]

@[simp] theorem Pcu.setChannel_other (p : Pcu) (c : Chan) (x : Channel) :
    (p.setChannel c x).gangs = p.gangs ∧ (p.setChannel c x).phantomQueue = p.phantomQueue ∧
    (p.setChannel c x).tracking = p.tracking ∧ (p.setChannel c x).before = p.before ∧
    (p.setChannel c x).samples = p.samples := ⟨rfl, rfl, rfl, rfl, rfl⟩

@[simp] theorem Pcu.track_setTrack (p : Pcu) (d e : Desk) (c f : Chan) (t : Track) :
    (p.setTrack d c t).track e f = if e = d ∧ f = c then t else p.track e f := by
  by_cases h : e = d
  · subst h; by_cases g : f = c <;> simp [Pcu.track, Pcu.setTrack, g]
  · simp [Pcu.track, Pcu.setTrack, h]

@[simp] theorem Pcu.setTrack_other (p : Pcu) (d : Desk) (c : Chan) (t : Track) :
    (p.setTrack d c t).channels = p.channels ∧ (p.setTrack d c t).gangs = p.gangs ∧
    (p.setTrack d c t).phantomQueue = p.phantomQueue ∧ (p.setTrack d c t).before = p.before ∧
    (p.setTrack d c t).samples = p.samples := ⟨rfl, rfl, rfl, rfl, rfl⟩

@[simp] theorem Arb.claim_setClaim (x : Arb) (r q : Res) (c : Claim) :
    (x.setClaim r c).claim q = if q = r then c else x.claim q := by simp [Arb.claim, Arb.setClaim]

@[simp] theorem Arb.setClaim_other (x : Arb) (r : Res) (c : Claim) :
    (x.setClaim r c).pendingClaims = x.pendingClaims ∧ (x.setClaim r c).frozen = x.frozen := ⟨rfl, rfl⟩

@[simp] theorem Mon.output_of (m : Mon) (f : Out → Output) (i : Out) :
    Mon.output { m with outputs := Tbl.of f } i = f i := by simp [Mon.output]

@[simp] theorem Output.latched_fields (o : Output) (v : Latched) :
    (o.latched v).enable = v.enable ∧ (o.latched v).talker = v.talker ∧ (o.latched v).carried = o.carried ∧
    (o.latched v).fade = o.fade ∧ (o.latched v).duck = o.duck := ⟨rfl, rfl, rfl, rfl, rfl⟩

@[simp] theorem Output.latched_latch (o : Output) : o.latched o.latch = o := rfl

@[simp] theorem Sto.spoil_other (x : Sto) (r : RegionName) :
    (x.spoil r).install = x.install ∧ (x.spoil r).lock = x.lock ∧ (x.spoil r).installStatus = x.installStatus ∧
    (x.spoil r).showStatus = x.showStatus ∧ (x.spoil r).settle = x.settle ∧ (x.spoil r).writeList = x.writeList ∧
    (x.spoil r).running = x.running ∧ (x.spoil r).awaited = x.awaited ∧ (x.spoil r).signals = x.signals ∧
    (x.spoil r).erasePrepared = x.erasePrepared ∧
    (x.spoil r).installRegion.contents = x.installRegion.contents ∧
    (x.spoil r).showRegion.contents = x.showRegion.contents := by
  cases r <;> exact ⟨rfl, rfl, rfl, rfl, rfl, rfl, rfl, rfl, rfl, rfl, rfl, rfl⟩

@[simp] theorem Sto.commit_other (x : Sto) (w : Snapshot) :
    (x.commit w).install = x.install ∧ (x.commit w).lock = x.lock ∧ (x.commit w).installStatus = x.installStatus ∧
    (x.commit w).showStatus = x.showStatus ∧ (x.commit w).settle = x.settle ∧ (x.commit w).writeList = x.writeList ∧
    (x.commit w).running = x.running ∧ (x.commit w).awaited = x.awaited ∧ (x.commit w).signals = x.signals ∧
    (x.commit w).erasePrepared = x.erasePrepared := by
  cases w <;> exact ⟨rfl, rfl, rfl, rfl, rfl, rfl, rfl, rfl, rfl, rfl⟩

@[simp] theorem Sto.signalTaken_fields (x : Sto) :
    x.signalTaken.awaited = x.awaited - 1 ∧ x.signalTaken.signals = x.signals + 1 ∧ x.signalTaken.running = x.running ∧
    x.signalTaken.writeList = x.writeList ∧ x.signalTaken.install = x.install ∧ x.signalTaken.lock = x.lock ∧
    x.signalTaken.installRegion = x.installRegion ∧ x.signalTaken.showRegion = x.showRegion ∧
    x.signalTaken.installStatus = x.installStatus ∧ x.signalTaken.showStatus = x.showStatus ∧
    x.signalTaken.settle = x.settle ∧ x.signalTaken.erasePrepared = x.erasePrepared :=
  ⟨rfl, rfl, rfl, rfl, rfl, rfl, rfl, rfl, rfl, rfl, rfl, rfl⟩

@[simp] theorem Mon.withOutput_get (m : Mon) (i j : Out) (o : Output) :
    Tbl.get (m.withOutput i o) j = if j = i then o else m.output j := by simp [Mon.withOutput, Mon.output]

@[simp] theorem Tbk.setRecord_records (t : Tbk) (d e : Desk) (r : Option TalkRec) :
    (t.setRecord d r).records.get e = if e = d then r else t.records.get e := by simp [Tbk.setRecord]

@[simp] theorem Tbk.setGrant_grants (t : Tbk) (o i : Out) (d : Option Desk) :
    Tbl.get (t.setGrant o d).grants i = if i = o then d else Tbl.get t.grants i := by simp [Tbk.setGrant]

end Machine
end Sys2Proof
end

