-- ==== Sys2Proof/Laws/Ops.lean ====
section
/-!
SUPPORT. What each shared operation can do, said once: placing notices and answers changes REQ and PNL alone; a request
of a free requester is carried out at once; an operation of a block changes no other block's records.
-/

namespace Sys2Proof.Machine

/-! ## The core of the part -/

/-- Equal cores are equal fields. -/
theorem Hub.core_eq {h k : Hub} (e : h.core = k.core) :
    h.now = k.now ∧ h.pcu = k.pcu ∧ h.arb = k.arb ∧ h.links = k.links ∧ h.hlm = k.hlm ∧ h.mon = k.mon ∧
      h.tbk = k.tbk ∧ h.sto = k.sto ∧ h.down = k.down := by
  simpa [Hub.core] using e

@[simp] theorem Hub.core_setDesk (h : Hub) (d : Desk) (p : DeskPort) : (h.setDesk d p).core = h.core := rfl

@[simp] theorem Hub.core_setQueue (h : Hub) (r : Requester) (q : ReqQueue) : (h.setQueue r q).core = h.core := rfl

@[simp] theorem Hub.core_pnl (h : Hub) (p : Pnl) : Hub.core { h with pnl := p } = h.core := rfl

@[simp] theorem Hub.core_req (h : Hub) (r : Req) : Hub.core { h with req := r } = h.core := rfl

/-! ## Placing notices -/

@[simp] theorem notifyDesk_core (d : Desk) (n : Notice) (h : Hub) : (notifyDesk d n h).core = h.core := by
  unfold notifyDesk; split <;> rfl

@[simp] theorem notifyPanel_core (n : Notice) (h : Hub) : (notifyPanel n h).core = h.core := rfl

@[simp] theorem notifyDeskPanel_core (d : Desk) (n : Notice) (h : Hub) : (notifyDeskPanel d n h).core = h.core := by
  simp [notifyDeskPanel]

@[simp] theorem notifyAll_core (n : Notice) (h : Hub) : (notifyAll n h).core = h.core := by simp [notifyAll]

@[simp] theorem notifyEach_core (ns : List Notice) (h : Hub) : (notifyEach ns h).core = h.core := by
  induction ns generalizing h with
  | nil => rfl
  | cons n ns ih =>
    show (notifyEach ns (notifyAll n h)).core = h.core
    rw [ih, notifyAll_core]

@[simp] theorem notifyRequester_core (r : Requester) (n : Notice) (h : Hub) :
    (notifyRequester r n h).core = h.core := by
  unfold notifyRequester; split <;> simp

@[simp] theorem notifyLimits_core (ls : List (Desk × Notice)) (h : Hub) : (notifyLimits ls h).core = h.core := by
  induction ls generalizing h with
  | nil => rfl
  | cons x ls ih =>
    show (notifyLimits ls (notifyDesk x.1 x.2 h)).core = h.core
    rw [ih, notifyDesk_core]

/-- Placing a notice leaves the links as they stand. -/
@[simp] theorem notifyAll_links (n : Notice) (h : Hub) : (notifyAll n h).links = h.links :=
  (Hub.core_eq (notifyAll_core n h)).2.2.2.1
@[simp] theorem notifyEach_links (ns : List Notice) (h : Hub) : (notifyEach ns h).links = h.links :=
  (Hub.core_eq (notifyEach_core ns h)).2.2.2.1
@[simp] theorem notifyDeskPanel_links (d : Desk) (n : Notice) (h : Hub) : (notifyDeskPanel d n h).links = h.links :=
  (Hub.core_eq (notifyDeskPanel_core d n h)).2.2.2.1

/-- Placing a notice leaves the requests as they stand. -/
@[simp] theorem notifyDesk_queues (d : Desk) (n : Notice) (h : Hub) :
    (notifyDesk d n h).req.queues = h.req.queues := by
  unfold notifyDesk; split <;> rfl

@[simp] theorem notifyPanel_queues (n : Notice) (h : Hub) : (notifyPanel n h).req.queues = h.req.queues := rfl

@[simp] theorem notifyDeskPanel_queues (d : Desk) (n : Notice) (h : Hub) :
    (notifyDeskPanel d n h).req.queues = h.req.queues := by
  simp [notifyDeskPanel]

@[simp] theorem notifyAll_queues (n : Notice) (h : Hub) : (notifyAll n h).req.queues = h.req.queues := by
  simp [notifyAll]

@[simp] theorem notifyEach_queues (ns : List Notice) (h : Hub) : (notifyEach ns h).req.queues = h.req.queues := by
  induction ns generalizing h with
  | nil => rfl
  | cons n ns ih =>
    show (notifyEach ns (notifyAll n h)).req.queues = h.req.queues
    rw [ih, notifyAll_queues]

@[simp] theorem notifyLimits_queues (ls : List (Desk × Notice)) (h : Hub) :
    (notifyLimits ls h).req.queues = h.req.queues := by
  induction ls generalizing h with
  | nil => rfl
  | cons x ls ih =>
    show (notifyLimits ls (notifyDesk x.1 x.2 h)).req.queues = h.req.queues
    rw [ih, notifyDesk_queues]

/-- A notice goes to a desk whose link is UP, and to no other desk (R164). -/
theorem notifyDesk_desks (d e : Desk) (n : Notice) (h : Hub) :
    (notifyDesk d n h).req.desks.get e =
      if e = d ∧ h.linkUp d = true then (h.req.desks.get d).place n else h.req.desks.get e := by
  unfold notifyDesk
  by_cases up : h.linkUp d = true
  · by_cases he : e = d
    · subst he; simp [up]
    · simp [up, he]
  · simp [up]

@[simp] theorem notifyDesk_pnl (d : Desk) (n : Notice) (h : Hub) : (notifyDesk d n h).pnl = h.pnl := by
  unfold notifyDesk; split <;> rfl

@[simp] theorem notifyDesk_linkUp (d e : Desk) (n : Notice) (h : Hub) : (notifyDesk d n h).linkUp e = h.linkUp e := by
  unfold notifyDesk; split <;> rfl

/-- An all-desk notice reaches every desk whose link is UP, each once (R164). -/
theorem notifyAll_desks (n : Notice) (h : Hub) (e : Desk) :
    (notifyAll n h).req.desks.get e =
      if h.linkUp e = true then (h.req.desks.get e).place n else h.req.desks.get e := by
  simp only [notifyAll, notifyPanel, notifyDesk_desks, notifyDesk_linkUp]
  cases e <;> simp

/-- An all-desk notice reaches PANEL (R164). -/
@[simp] theorem notifyAll_pnl (n : Notice) (h : Hub) : (notifyAll n h).pnl = h.pnl.place n := by
  simp [notifyAll, notifyPanel]

/-- Placing a notice leaves a desk's answer, HOLD, assembler and message under way as they stand. -/
@[simp] theorem DeskPort.place_other (p : DeskPort) (n : Notice) :
    (p.place n).hold = p.hold ∧ (p.place n).answer = p.answer ∧ (p.place n).tx = p.tx ∧ (p.place n).asm = p.asm := by
  unfold DeskPort.place; split <;> simp

/-- A desk's Notice Buffer after a notice: one longer, or as it was where it holds 8. -/
theorem DeskPort.place_length (p : DeskPort) (n : Notice) (b : p.notices.length ≤ 8) : (p.place n).notices.length ≤ 8 := by
  unfold DeskPort.place; split <;> simp <;> omega

/-- Placing a notice leaves PNL's answer, rejected bit and transaction as they stand. -/
@[simp] theorem Pnl.place_other (p : Pnl) (n : Notice) :
    (p.place n).answer = p.answer ∧ (p.place n).rejected = p.rejected ∧ (p.place n).txn = p.txn ∧
      (p.place n).miso = p.miso := by
  unfold Pnl.place; split <;> simp

/-- The Panel Notice Queue and the discard count after a notice. -/
theorem Pnl.place_bounds (p : Pnl) (n : Notice) (b : p.notices.length ≤ 16) (c : p.discardCount ≤ 255) :
    (p.place n).notices.length ≤ 16 ∧ (p.place n).discardCount ≤ 255 := by
  unfold Pnl.place
  split
  · simp; omega
  · simp only; refine ⟨b, ?_⟩; split <;> omega

/-- No notice touches an answer that waits. -/
@[simp] theorem notifyDesk_answerOf (d : Desk) (n : Notice) (h : Hub) (who : Requester) :
    (notifyDesk d n h).answerOf who = h.answerOf who := by
  cases who <;> simp only [Hub.answerOf, Requester.desk, notifyDesk_pnl, notifyDesk_desks] <;>
    (try split) <;> simp_all

@[simp] theorem notifyPanel_answerOf (n : Notice) (h : Hub) (who : Requester) :
    (notifyPanel n h).answerOf who = h.answerOf who := by
  cases who <;> simp [Hub.answerOf, Requester.desk, notifyPanel]

@[simp] theorem notifyDeskPanel_answerOf (d : Desk) (n : Notice) (h : Hub) (who : Requester) :
    (notifyDeskPanel d n h).answerOf who = h.answerOf who := by
  simp [notifyDeskPanel]

@[simp] theorem notifyAll_answerOf (n : Notice) (h : Hub) (who : Requester) :
    (notifyAll n h).answerOf who = h.answerOf who := by
  simp [notifyAll]

@[simp] theorem notifyEach_answerOf (ns : List Notice) (h : Hub) (who : Requester) :
    (notifyEach ns h).answerOf who = h.answerOf who := by
  induction ns generalizing h with
  | nil => rfl
  | cons n ns ih =>
    show (notifyEach ns (notifyAll n h)).answerOf who = h.answerOf who
    rw [ih, notifyAll_answerOf]

@[simp] theorem notifyLimits_answerOf (ls : List (Desk × Notice)) (h : Hub) (who : Requester) :
    (notifyLimits ls h).answerOf who = h.answerOf who := by
  induction ls generalizing h with
  | nil => rfl
  | cons x ls ih =>
    show (notifyLimits ls (notifyDesk x.1 x.2 h)).answerOf who = h.answerOf who
    rw [ih, notifyDesk_answerOf]

/-! ## Answers -/

@[simp] theorem Hub.putAnswer_core (h : Hub) (who : Requester) (x : Answer) : (h.putAnswer who x).core = h.core := by
  unfold Hub.putAnswer; split <;> rfl

@[simp] theorem Hub.putAnswer_queues (h : Hub) (who : Requester) (x : Answer) :
    (h.putAnswer who x).req.queues = h.req.queues := by
  unfold Hub.putAnswer; split <;> rfl

@[simp] theorem Hub.putAnswer_answerOf (h : Hub) (who r : Requester) (x : Answer) :
    (h.putAnswer who x).answerOf r = if r = who then some x else h.answerOf r := by
  cases who <;> cases r <;> simp [Hub.putAnswer, Hub.answerOf, Requester.desk]

/-- An answer changes REQ and PNL alone. -/
@[simp] theorem answerTo_core (who : Requester) (code : Code) (body : List Byte) (h : Hub) :
    (answerTo who code body h).core = h.core := by
  simp only [answerTo]; split <;> simp

/-- The answer to a request in execution is formed with its kind, tag and the discarded mark (R160, R161). -/
theorem answerTo_eq {who : Requester} {h : Hub} {e : QEntry} {es : List QEntry}
    (x : (h.req.queues.get who).executing = true) (i : (h.req.queues.get who).items = e :: es) (code : Code)
    (body : List Byte) :
    answerTo who code body h =
      (h.setQueue who { h.req.queues.get who with discarded := false }).putAnswer who
        ⟨e.call.kind, e.tag, (h.req.queues.get who).discarded, code, body⟩ := by
  simp only [answerTo]
  rw [x, i]

@[simp] theorem Hub.setQueue_answerOf (h : Hub) (r who : Requester) (q : ReqQueue) :
    (h.setQueue r q).answerOf who = h.answerOf who := by
  cases who <;> rfl

/-- The answer to a request in execution stands where the requester's answer waits (R163, R173). -/
theorem answerTo_answerOf {who : Requester} {h : Hub} {e : QEntry} {es : List QEntry}
    (x : (h.req.queues.get who).executing = true) (i : (h.req.queues.get who).items = e :: es) (code : Code)
    (body : List Byte) :
    (answerTo who code body h).answerOf who =
      some ⟨e.call.kind, e.tag, (h.req.queues.get who).discarded, code, body⟩ := by
  simp [answerTo_eq x i]

/-- An answer touches no other requester's answer. -/
theorem answerTo_answerOf_other {who r : Requester} (ne : r ≠ who) (code : Code) (body : List Byte) (h : Hub) :
    (answerTo who code body h).answerOf r = h.answerOf r := by
  simp only [answerTo]; split <;> simp [ne]

/-! ## Rounding -/

/-- The search of lastBelow from a number that passes finds the last one that passes within its bits. -/
theorem lastBelow_from (test : Nat → Bool) (down : ∀ m n, m ≤ n → test n = true → test m = true) (bits low : Nat)
    (pass : test low = true) :
    let r := (List.range bits).reverse.foldl (fun low i => if test (low + 2 ^ i) then low + 2 ^ i else low) low
    test r = true ∧ low ≤ r ∧ r < low + 2 ^ bits ∧ ∀ n, n < low + 2 ^ bits → test n = true → n ≤ r := by
  induction bits generalizing low with
  | zero => simp [pass]; omega
  | succ b ih =>
    simp only [List.range_succ, List.reverse_append, List.reverse_cons, List.reverse_nil, List.nil_append,
      List.singleton_append, List.foldl_cons]
    by_cases t : test (low + 2 ^ b) = true
    · rw [if_pos t]
      obtain ⟨p, l, u, m⟩ := ih (low + 2 ^ b) t
      refine ⟨p, by omega, by omega, fun n hn => m n (by omega)⟩
    · rw [if_neg t]
      obtain ⟨p, l, u, m⟩ := ih low pass
      refine ⟨p, l, by omega, fun n hn tn => ?_⟩
      rcases Nat.lt_or_ge n (low + 2 ^ b) with lt | ge
      · exact m n lt tn
      · exact absurd (down _ n ge tn) t

/-- What lastBelow finds: a number that passes, below 2^bits, at or above every number below 2^bits that passes. -/
theorem lastBelow_spec (test : Nat → Bool) (bits : Nat) (zero : test 0 = true)
    (down : ∀ m n, m ≤ n → test n = true → test m = true) :
    test (lastBelow test bits) = true ∧ lastBelow test bits < 2 ^ bits ∧
      ∀ n, n < 2 ^ bits → test n = true → n ≤ lastBelow test bits := by
  have r := lastBelow_from test down bits 0 zero
  simp only [Nat.zero_add] at r
  exact ⟨r.1, r.2.2.1, r.2.2.2⟩

/-- A half number that does not exceed the scaled value has none below it that does. -/
theorem compareHalf_down (level : Int) (num den : Nat) {m n : Nat} (le : m ≤ n)
    (h : compareHalf level num den n ≠ .gt) : compareHalf level num den m ≠ .gt := by
  simp only [compareHalf] at h ⊢
  split <;> rename_i s <;> simp only [s, if_true, if_false, ne_eq, Nat.compare_eq_gt, not_lt] at h ⊢
  · exact le_trans (Nat.pow_le_pow_left (Nat.mul_le_mul_right _ le) _) h
  · exact le_trans (Nat.mul_le_mul_right _ (Nat.pow_le_pow_left (Nat.mul_le_mul_right _ le) _)) h

/-! ## Missing frames (R69, R73) -/

/-- A lane whose frame of the period has arrived misses none. -/
theorem missingFrame_arrived {l : LaneId} {h : Hub} (e : (h.lane l).arrived = true) : missingFrame l h = h := by
  simp [missingFrame, e]

/-- A missing frame is recorded as a frame that fails its CRC. -/
theorem upstreamFrame_bad {bytes : List Byte} (l : LaneId) (h : Hub) (e : parseUp bytes = none) :
    upstreamFrame l bytes h = missingFrame l h := by
  simp [upstreamFrame, missingFrame, e]

/-- A lane in sync without a frame in the period has one bad result. -/
theorem missingFrame_bad {l : LaneId} {h : Hub} {lat : Frame} (e : (h.lane l).arrived = false)
    (sync : (h.lane l).latency = some lat) :
    missingFrame l h =
      badResult l (h.now - lat) (h.setLane l { h.lane l with arrived := true, rx := none }) := by
  simp [missingFrame, e, receive, sync]

/-- A link whose two frames of the period have arrived misses none. -/
theorem recordLink_arrived {d : Desk} {h : Hub} (p : (h.lane ⟨d, .p⟩).arrived = true)
    (s : (h.lane ⟨d, .s⟩).arrived = true) : recordLink d h = h := by
  rw [recordLink, missingFrame_arrived p, missingFrame_arrived s]

/-- What a link event hands to the other blocks changes no link. -/
@[simp] theorem linkEvent_links (before : LinkState) (d : Desk) (h : Hub) : (linkEvent before d h).links = h.links := by
  have test (d : Desk) (t : TestRec) (st : TestStatus) (h : Hub) : (setTestStatus d t st h).links = h.links := by
    unfold setTestStatus tellTest Hub.setTest; split <;> simp
  have down (d : Desk) (h : Hub) : (hlmDown d h).links = h.links := by
    unfold hlmDown; split; · rfl
    · split; · rfl
      · exact test ..
  have req (d : Desk) (h : Hub) : (reqDown d h).links = h.links := rfl
  have leaves (d : Desk) (h : Hub) : (reqLeavesUp d h).links = h.links := rfl
  have talk (d : Desk) (h : Hub) : (tbkLeavesUp d h).links = h.links := by
    unfold tbkLeavesUp endTalk; split <;> simp [notifyTalk, handTalk]
  have mon (b : Bool) (o : Vector Output 32) (h : Hub) : (commitMon b o h).links = h.links := by
    unfold commitMon; simp
  have monL (d : Desk) (h : Hub) : (monLeavesUp d h).links = h.links := by
    unfold monLeavesUp; dsimp only; split <;> simp [mon]
  have monD (h : Hub) : (monDown h).links = h.links := by
    unfold monDown; split
    · simp [safeMute]
    · rfl
  have arbD (d : Desk) (h : Hub) : (arbDown d h).links = h.links := by unfold arbDown commitClaims; simp
  have arbU (d : Desk) (h : Hub) : (arbUp d h).links = h.links := by unfold arbUp; simp
  have monU (h : Hub) : (monUp h).links = h.links := by unfold monUp; exact mon ..
  have hlmU (d : Desk) (h : Hub) : (hlmUp d h).links = h.links := rfl
  unfold linkEvent
  split <;> simp [down, req, leaves, talk, monL, monD, arbD, arbU, monU, hlmU]

/-- A link event and its notices leave every lane as `settleLink` finds it, but for the state of a lane whose test
resumes. -/
theorem settleLink_lane (before : Hub) (d : Desk) (first : Side) (h : Hub) (m : LaneId) :
    ((settleLink before d first h).lane m).arrived = (h.lane m).arrived ∧
      ((settleLink before d first h).lane m).light = (h.lane m).light := by
  have tell (b : Hub) (l : LaneId) (h : Hub) : (tellLaneChange b l h).links = h.links := by
    unfold tellLaneChange tellLane; split <;> simp
  have link (b : Link) (d : Desk) (h : Hub) : (tellLinkChange b d h).links = h.links := by
    unfold tellLinkChange; dsimp only; split <;> simp
  have test (d : Desk) (h : Hub) : (tellTest d h).links = h.links := by unfold tellTest; split <;> simp
  have resumed : ∀ k, resumeTest d h = some k → (k.lane m).arrived = (h.lane m).arrived ∧ (k.lane m).light = (h.lane m).light := by
    intro k e
    unfold resumeTest at e
    split at e
    · simp at e
    · split at e
      · obtain rfl := (Option.some.inj e)
        rw [Hub.setLane_lane]
        split
        · next eq => subst eq; exact ⟨rfl, rfl⟩
        · exact ⟨rfl, rfl⟩
      · simp at e
  unfold settleLink Hub.lane
  simp only [linkEvent_links]
  cases e : resumeTest d h with
  | none => simp [link, tell]
  | some k => simpa [test, link, tell, Hub.lane] using resumed k e

/-- A lane that leaves or takes over the service of its link keeps its arrival and its light. -/
theorem Link.switchFrom_lane (k : Link) (old side : Side) :
    ((k.switchFrom old).lane side).arrived = (k.lane side).arrived ∧
      ((k.switchFrom old).lane side).light = (k.lane side).light := by
  have down (r : LaneRec) : r.stepDown.arrived = r.arrived ∧ r.stepDown.light = r.light := by
    unfold LaneRec.stepDown; split <;> exact ⟨rfl, rfl⟩
  by_cases new : side = old.other
  · subst new; simp [Link.lane, Link.switchFrom, LaneRec.takeOver]
  · have : side = old := by cases side <;> cases old <;> simp_all [Side.other]
    subst this; simpa [Link.lane, Link.switchFrom, (Side.other_ne side).symm] using down _

/-- A bad result leaves the arrivals and the light of every lane. -/
theorem badResult_lane (l m : LaneId) (due : Frame) (h : Hub) :
    ((badResult l due h).lane m).arrived = (h.lane m).arrived ∧
      ((badResult l due h).lane m).light = (h.lane m).light := by
  have links {h k : Hub} (e : k.links = h.links) :
      (k.lane m).arrived = (h.lane m).arrived ∧ (k.lane m).light = (h.lane m).light := by
    unfold Hub.lane; rw [e]; exact ⟨rfl, rfl⟩
  have planned (l : LaneId) (v : Verdict) (h : Hub) :
      ((plannedSwitch l v h).lane m).arrived = (h.lane m).arrived ∧
        ((plannedSwitch l v h).lane m).light = (h.lane m).light := by
    unfold plannedSwitch
    split
    · unfold switchLink
      rw [(settleLink_lane ..).1, (settleLink_lane ..).2]
      by_cases e : m.link = l.link
      · simpa [Hub.lane, e] using Link.switchFrom_lane ..
      · simp [Hub.lane, e]
    · exact ⟨rfl, rfl⟩
  have count (l : LaneId) (n : PerCounter Nat) (h : Hub) :
      ((countHealth l n h).lane m).arrived = (h.lane m).arrived ∧
        ((countHealth l n h).lane m).light = (h.lane m).light := by
    unfold countHealth computeVerdict setVerdict
    dsimp only
    split
    · exact links rfl
    · rw [(planned ..).1, (planned ..).2]; exact links (by simp)
  have set : ((h.setLane l ((h.lane l).bad due)).lane m).arrived = (h.lane m).arrived ∧
      ((h.setLane l ((h.lane l).bad due)).lane m).light = (h.lane m).light := by
    rw [Hub.setLane_lane]
    split
    · next e => subst e; exact ⟨rfl, rfl⟩
    · exact ⟨rfl, rfl⟩
  unfold badResult hlmResult
  dsimp only
  split
  · split
    · exact set
    · rw [if_neg (by decide), (count ..).1, (count ..).2]; exact set
  · rw [(count ..).1, (count ..).2]; exact set

/-- A missing frame: its lane has had its frame of the period, every other lane is as it was, and no light changes. -/
theorem missingFrame_lane (l m : LaneId) (h : Hub) :
    ((missingFrame l h).lane m).arrived = (decide (m = l) || (h.lane m).arrived) ∧
      ((missingFrame l h).lane m).light = (h.lane m).light := by
  have set : ((h.setLane l { h.lane l with arrived := true, rx := none }).lane m).arrived =
        (decide (m = l) || (h.lane m).arrived) ∧
      ((h.setLane l { h.lane l with arrived := true, rx := none }).lane m).light = (h.lane m).light := by
    rw [Hub.setLane_lane]
    split
    · next e => subst e; simp
    · next e => simp [e]
  unfold missingFrame
  split
  · next a =>
    refine ⟨?_, rfl⟩
    by_cases e : m = l
    · subst e; simp [a]
    · simp [e]
  · unfold receive
    dsimp only
    split
    · rw [(badResult_lane ..).1, (badResult_lane ..).2]; exact set
    · split
      · rw [Hub.setLane_lane]
        split
        · next e => subst e; simp [LaneRec.acquire]
        · exact set
      · exact set

/-- After the results of a link's period both its lanes have had their frames, and no light changes. -/
theorem recordLink_lane (d : Desk) (m : LaneId) (h : Hub) :
    ((recordLink d h).lane m).arrived = (decide (m.link = d) || (h.lane m).arrived) ∧
      ((recordLink d h).lane m).light = (h.lane m).light := by
  unfold recordLink
  rw [(missingFrame_lane ..).1, (missingFrame_lane ..).2, (missingFrame_lane ..).1, (missingFrame_lane ..).2]
  obtain ⟨e, x⟩ := m
  cases x <;> by_cases h : e = d <;> simp [h]

/-- The results of a period are recorded once. -/
theorem recordLink_idem (d : Desk) (h : Hub) : recordLink d (recordLink d h) = recordLink d h :=
  recordLink_arrived (by simp [recordLink_lane]) (by simp [recordLink_lane])

/-- LIGHT_LOSS is that of the part with the results of its link's period recorded. -/
theorem lightLoss_recorded (l : LaneId) (h : Hub) (light : (h.lane l).light = true) :
    lightLoss l h = lightLoss l (recordLink l.link h) := by
  unfold lightLoss
  simp only [(recordLink_lane ..).2, recordLink_idem, light, if_true]

/-- A link without a test has no tested lane to record. -/
theorem recordTested_none {l : LaneId} {h : Hub} (e : h.hlm.tests.get l.link = none) : recordTested l h = h := by
  simp [recordTested, Hlm.testRunningOn, otherLane, e]

/-! ## A request of a free requester -/

/-- HOLD stands as it was after an arrival in an empty queue (R162). -/
theorem arrivalHold_one (who : Requester) (h : Hub) : arrivalHold who 1 h = h := by
  unfold arrivalHold
  split
  · rfl
  · next d _ =>
    have : (⟨holdAfterArrival (h.req.desks.get d).hold 1, (h.req.desks.get d).answer, (h.req.desks.get d).notices,
        (h.req.desks.get d).gapOwed, (h.req.desks.get d).tx, (h.req.desks.get d).asm⟩ : DeskPort) =
        h.req.desks.get d := by simp [holdAfterArrival]
    simp only [this, Hub.setDesk_self]

@[simp] theorem Hub.setQueue_slotEmpty (h : Hub) (r who : Requester) (q : ReqQueue) :
    (h.setQueue r q).slotEmpty who = h.slotEmpty who := by
  cases who <;> rfl

/-- The head of a queue with no request in execution is taken, where the answer slot is empty (R159). -/
theorem takeHead_eq {who : Requester} {h : Hub} {e : QEntry} {es : List QEntry}
    (i : (h.req.queues.get who).items = e :: es) (x : (h.req.queues.get who).executing = false)
    (slot : h.slotEmpty who = true) :
    takeHead who h =
      carryOut who h.sto.erasePrepared e.call
        (clearPrepare who e.call (h.setQueue who { h.req.queues.get who with executing := true })) := by
  simp only [takeHead]
  rw [i]
  simp [x, slot]

/-- A request of a free requester is taken into execution in the event of its arrival (R157, R159). -/
theorem submit_free {who : Requester} {h : Hub} (free : Free who h) (tag : Byte) (c : Call) :
    submit who tag c h = carryOut who h.sto.erasePrepared c (h.taken who tag c) := by
  obtain ⟨items, executing, slot, up⟩ := free
  have taken : arrive who ⟨tag, c⟩ h = carryOut who h.sto.erasePrepared c (h.taken who tag c) := by
    have r := takeHead_eq (who := who)
      (h := h.setQueue who { h.req.queues.get who with items := (h.req.queues.get who).items ++ [⟨tag, c⟩] })
      (e := ⟨tag, c⟩) (es := []) (by simp [items]) (by simp [executing]) (by simpa using slot)
    simp only [arrive]
    rw [if_pos (by simp [items])]
    rw [items] at r ⊢
    simp only [List.length_nil, Nat.zero_add, List.nil_append] at r ⊢
    rw [arrivalHold_one, r]
    simp only [Hub.setQueue_queues, if_true, Hub.setQueue_setQueue, Hub.setQueue_other]
    congr 1
    unfold clearPrepare Hub.taken Hub.setQueue
    split <;> rfl
  unfold submit
  split
  · exact taken
  · next d hd => rw [if_pos (up d hd)]; exact taken

/-- Taking a request leaves the state of the store's writes. -/
@[simp] theorem Hub.taken_store (h : Hub) (who : Requester) (tag : Byte) (c : Call) :
    (h.taken who tag c).sto.installStatus = h.sto.installStatus ∧
      (h.taken who tag c).sto.showStatus = h.sto.showStatus ∧
      (h.taken who tag c).sto.writing = h.sto.writing := by
  unfold Hub.taken; dsimp only; split <;> exact ⟨rfl, rfl, rfl⟩

/-- The request in execution of a free requester that has been taken. -/
@[simp] theorem Hub.taken_queue (h : Hub) (who : Requester) (tag : Byte) (c : Call) :
    (h.taken who tag c).req.queues.get who = ⟨[⟨tag, c⟩], true, (h.req.queues.get who).discarded⟩ := by
  simp [Hub.taken]

@[simp] theorem Hub.taken_other (h : Hub) (who : Requester) (tag : Byte) (c : Call) :
    (h.taken who tag c).now = h.now ∧ (h.taken who tag c).pcu = h.pcu ∧ (h.taken who tag c).arb = h.arb ∧
    (h.taken who tag c).links = h.links ∧ (h.taken who tag c).hlm = h.hlm ∧ (h.taken who tag c).mon = h.mon ∧
    (h.taken who tag c).tbk = h.tbk ∧ (h.taken who tag c).pnl = h.pnl ∧ (h.taken who tag c).down = h.down ∧
    (h.taken who tag c).req.desks = h.req.desks ∧ (h.taken who tag c).sto.install = h.sto.install ∧
    (h.taken who tag c).sto.lock = h.sto.lock := by
  unfold Hub.taken; split <;> simp

/-! ## Steps 2 and 3 of a link (R73, R75) -/

/-- A link that is not UP takes nothing. -/
theorem takeStep_not_up {h : Hub} {d : Desk} (e : (h.links.get d).state ≠ .up) : takeStep h d = h := by
  unfold takeStep; dsimp only; split <;> simp_all

/-- An UP link takes every number from the next one up to the one due on its active lane. -/
theorem takeStep_up {h : Hub} {d : Desk} {side : Side} {lat next : Frame} (e : (h.links.get d).state = .up)
    (a : (h.links.get d).activeLane = some side) (l : ((h.links.get d).lane side).latency = some lat)
    (n : (h.links.get d).nextTake = some next) :
    takeStep h d =
      takeMany d side ((h.links.get d).lane side.other).rescues (takeCount next (h.now - lat)) h := by
  simp [takeStep, e, a, l, n]

/-- Nothing is due to a link whose next number stands one ahead of the one due, as in the period of its entry to UP. -/
theorem takeCount_ahead (due : Frame) : takeCount (due + 1#32) due = 0 := by
  have e : due - (due + 1#32) = 4294967295#32 := by bv_omega
  simp [takeCount, e]

/-- No delivery is made by a link that is not UP, or in the period of its entry to UP. -/
theorem deliverStep_idle {h : Hub} {d : Desk} (e : (h.links.get d).state ≠ .up ∨ (h.links.get d).fresh = true) :
    deliverStep h d = h := by
  unfold deliverStep; rcases e with e | e <;> simp [e]

end Sys2Proof.Machine
end

