-- ==== Sys2Proof/Laws/PerInstr.lean ====
section
/-!
SUPPORT. A statement per command: no word of the table's bits spells it, since no row of the table gives bits (log
entry 34).
-/

namespace Sys2Proof.Laws.Table

/-- No word spells the command. -/
def Statement (i : Instr) : Prop := ∀ nbits w : Nat, decodeTableWord nbits w ≠ some i

theorem none_spells (i : Instr) : Statement i := fun _ _ h => nomatch h

theorem powerOnReset (pins ports) : Statement (.powerOnReset pins ports) := none_spells _
theorem framePeriod (ports) : Statement (.framePeriod ports) := none_spells _
theorem upstreamFrame (lane bytes) : Statement (.upstreamFrame lane bytes) := none_spells _
theorem acquisitionComplete (lane) : Statement (.acquisitionComplete lane) := none_spells _
theorem qualificationComplete (lane) : Statement (.qualificationComplete lane) := none_spells _
theorem frameLoss (lane) : Statement (.frameLoss lane) := none_spells _
theorem lightAppears (lane) : Statement (.lightAppears lane) := none_spells _
theorem lightLoss (lane) : Statement (.lightLoss lane) := none_spells _
theorem holdoverExpiry (link) : Statement (.holdoverExpiry link) := none_spells _
theorem testComplete (link) : Statement (.testComplete link) := none_spells _
theorem zeroCrossing (ch) : Statement (.zeroCrossing ch) := none_spells _
theorem transferTimeout (ch) : Statement (.transferTimeout ch) := none_spells _
theorem chargeExpiry (ch) : Statement (.chargeExpiry ch) := none_spells _
theorem dischargeExpiry (ch) : Statement (.dischargeExpiry ch) := none_spells _
theorem setInput (who tag ch gain pad hpf phantom) : Statement (.setInput who tag ch gain pad hpf phantom) := none_spells _
theorem readInput (who tag ch) : Statement (.readInput who tag ch) := none_spells _
theorem setGang (who tag group members) : Statement (.setGang who tag group members) := none_spells _
theorem readGang (who tag group) : Statement (.readGang who tag group) := none_spells _
theorem setTracking (who tag desk channels value) : Statement (.setTracking who tag desk channels value) := none_spells _
theorem setTrim (who tag desk ch trim) : Statement (.setTrim who tag desk ch trim) := none_spells _
theorem claim (who tag resources level) : Statement (.claim who tag resources level) := none_spells _
theorem release (who tag resources) : Statement (.release who tag resources) := none_spells _
theorem override (who tag resources) : Statement (.override who tag resources) := none_spells _
theorem freeze (who tag) : Statement (.freeze who tag) := none_spells _
theorem readClaims (who tag resources) : Statement (.readClaims who tag resources) := none_spells _
theorem windowExpiry : Statement (.windowExpiry) := none_spells _
theorem graceExpiry (desk) : Statement (.graceExpiry desk) := none_spells _
theorem setPatch (who tag out primary fallback failAction gap) : Statement (.setPatch who tag out primary fallback failAction gap) := none_spells _
theorem outputEnable (who tag outputs value) : Statement (.outputEnable who tag outputs value) := none_spells _
theorem readOutput (who tag out) : Statement (.readOutput who tag out) := none_spells _
theorem fadeComplete (out) : Statement (.fadeComplete out) := none_spells _
theorem revertExpiry (out) : Statement (.revertExpiry out) := none_spells _
theorem safeAsserted : Statement (.safeAsserted) := none_spells _
theorem safeReleased : Statement (.safeReleased) := none_spells _
theorem talkOn (who tag destinations duck) : Statement (.talkOn who tag destinations duck) := none_spells _
theorem talkOff (who tag) : Statement (.talkOff who tag) := none_spells _
theorem readTalk (who tag) : Statement (.readTalk who tag) := none_spells _
theorem talkTimeout (desk) : Statement (.talkTimeout desk) := none_spells _
theorem stageTalkPress (input) : Statement (.stageTalkPress input) := none_spells _
theorem stageTalkRelease (input) : Statement (.stageTalkRelease input) := none_spells _
theorem readLink (who tag link) : Statement (.readLink who tag link) := none_spells _
theorem laneSwitch (who tag link) : Statement (.laneSwitch who tag link) := none_spells _
theorem linkRestart (who tag link) : Statement (.linkRestart who tag link) := none_spells _
theorem readHealth (who tag link) : Statement (.readHealth who tag link) := none_spells _
theorem clearHealth (who tag lane) : Statement (.clearHealth who tag lane) := none_spells _
theorem laneTest (who tag lane seconds) : Statement (.laneTest who tag lane seconds) := none_spells _
theorem laneTestStop (who tag link) : Statement (.laneTestStop who tag link) := none_spells _
theorem requestArrival (desk bytes) : Statement (.requestArrival desk bytes) := none_spells _
theorem answerDelivery (desk) : Statement (.answerDelivery desk) := none_spells _
theorem writeRequest (bytes) : Statement (.writeRequest bytes) := none_spells _
theorem readAnswer (clocked) : Statement (.readAnswer clocked) := none_spells _
theorem readNotice (clocked) : Statement (.readNotice clocked) := none_spells _
theorem statusPoll (clocked) : Statement (.statusPoll clocked) := none_spells _
theorem readNotices (who tag flush) : Statement (.readNotices who tag flush) := none_spells _
theorem hubRestart (who tag) : Statement (.hubRestart who tag) := none_spells _
theorem writeInstall (who tag settings) : Statement (.writeInstall who tag settings) := none_spells _
theorem readInstall (who tag) : Statement (.readInstall who tag) := none_spells _
theorem lockInstall (who tag) : Statement (.lockInstall who tag) := none_spells _
theorem erasePrepare (who tag) : Statement (.erasePrepare who tag) := none_spells _
theorem eraseInstall (who tag) : Statement (.eraseInstall who tag) := none_spells _
theorem saveNow (who tag) : Statement (.saveNow who tag) := none_spells _
theorem settleExpiry : Statement (.settleExpiry) := none_spells _
theorem storeWriteComplete : Statement (.storeWriteComplete) := none_spells _
theorem storeWriteFault : Statement (.storeWriteFault) := none_spells _
theorem transactionStart : Statement (.transactionStart) := none_spells _

end Sys2Proof.Laws.Table
end

