-- ==== Sys2Proof/Tests/Slice0.lean ====
section
/-!
SUPPORT. Our own tests: an ill-formed command for each check of WellFormed, small steps of the commands, and for every
statement with hypotheses a state and operands that meet them (test_witness_ and the statement's name).
-/

set_option Elab.async false

namespace Sys2Proof.Tests

open Sys2Proof Sys2Proof.Machine

/-! ## WellFormed refuses an ill-formed term for each of its checks -/

theorem test_wf_frame : (Instr.upstreamFrame ⟨.a, .p⟩ []).wf = false := by decide
theorem test_wf_channel : (Instr.setInput .a 0 256 none none none none).wf = false := by decide
theorem test_wf_gain : (Instr.setInput .a 0 1 (some 256) none none none).wf = false := by decide
theorem test_wf_pad : (Instr.setInput .a 0 1 none (some 256) none none).wf = false := by decide
theorem test_wf_hpf : (Instr.setInput .a 0 1 none none (some 256) none).wf = false := by decide
theorem test_wf_phantom : (Instr.setInput .a 0 1 none none none (some 256)).wf = false := by decide
theorem test_wf_read_input : (Instr.readInput .a 0 256).wf = false := by decide
theorem test_wf_gang : (Instr.setGang .a 0 256 []).wf = false ∧ (Instr.setGang .a 0 1 [256]).wf = false := by decide
theorem test_wf_gang_count : (Instr.setGang .a 0 1 (List.replicate 256 1)).wf = false := by decide +kernel
theorem test_wf_read_gang : (Instr.readGang .a 0 (some 256)).wf = false := by decide
theorem test_wf_tracking : (Instr.setTracking .a 0 256 (BitSet.empty 72) 0).wf = false ∧
    (Instr.setTracking .a 0 1 (BitSet.empty 72) 256).wf = false := by decide
theorem test_wf_trim : (Instr.setTrim .a 0 256 1 0).wf = false ∧ (Instr.setTrim .a 0 1 256 0).wf = false ∧
    (Instr.setTrim .a 0 1 1 128).wf = false ∧ (Instr.setTrim .a 0 1 1 (-129)).wf = false := by decide
theorem test_wf_claims : (Instr.claim .a 0 [256] 0).wf = false ∧ (Instr.claim .a 0 [1] 256).wf = false ∧
    (Instr.release .a 0 [256]).wf = false ∧ (Instr.override .a 0 [256]).wf = false ∧
    (Instr.readClaims .a 0 [256]).wf = false := by decide
theorem test_wf_patch : (Instr.setPatch .a 0 256 none none 0 0).wf = false ∧
    (Instr.setPatch .a 0 1 (some (256, 0)) none 0 0).wf = false ∧
    (Instr.setPatch .a 0 1 none (some (0, 256)) 0 0).wf = false ∧
    (Instr.setPatch .a 0 1 none none 256 0).wf = false ∧ (Instr.setPatch .a 0 1 none none 0 256).wf = false := by decide
theorem test_wf_outputs : (Instr.outputEnable .a 0 (BitSet.empty 32) 256).wf = false ∧
    (Instr.readOutput .a 0 256).wf = false ∧ (Instr.talkOn .a 0 (BitSet.empty 32) 256).wf = false := by decide
theorem test_wf_links : (Instr.readLink .a 0 256).wf = false ∧ (Instr.laneSwitch .a 0 256).wf = false ∧
    (Instr.linkRestart .a 0 256).wf = false ∧ (Instr.readHealth .a 0 256).wf = false ∧
    (Instr.clearHealth .a 0 256).wf = false ∧ (Instr.laneTest .a 0 256 1).wf = false ∧
    (Instr.laneTest .a 0 1 65536).wf = false ∧ (Instr.laneTestStop .a 0 256).wf = false := by decide
theorem test_wf_arrival : (Instr.requestArrival .a []).wf = false ∧
    (Instr.requestArrival .a (List.replicate 65 0)).wf = false := by decide
theorem test_wf_notices : (Instr.readNotices .a 0 256).wf = false := by decide
theorem test_wf_install : (Instr.writeInstall .panel 0 []).wf = false := by decide

/-! ## A scene: link A UP on P with S READY, link C in HOLDOVER at its deadline -/

def lane (st : LaneState) (lat : Option Frame) (q : Bool) : LaneRec :=
  { LaneRec.reset with light := true, state := st, latency := lat, qualified := q }

def upLink (x y : LaneRec) : Link :=
  { Link.reset with
    state := .up, activeLane := some .p, nextTake := some 0#32, returnBuffer := List.replicate 8 Entry.zero
    lanes := ⟨x, y⟩ }

def linkA : Link := upLink (lane .active (some 5#32) true) (lane .ready (some 5#32) true)

def linkC : Link :=
  { Link.reset with
    state := .holdover, holdoverDeadline := some 0#32, lanes := ⟨lane .acquiring none false, lane .dark none false⟩ }

def src (k : Fin 32) : Source := ⟨.a, k⟩

def onFallback : Output :=
  { Output.reset with
    primary := some (src 0), fallback := some (src 1), failAction := .fallback, gap := 1, pathState := .onFallback
    carried := some (src 1), fade := Config.fadeFull, revertDeadline := some 0#32 }

def fading (st : PathState) (t : Target) (k : Fin 32) : Output :=
  { Output.reset with
    primary := some (src 0), gap := 1, pathState := st, carried := some (src k), gapTarget := some t, fadeDone := true }

def talkA : TalkRec where
  destinations := Tbl.set (BitSet.empty 32) 0 true
  duck := 6
  arrival := 0#32
  granted := Tbl.set (BitSet.empty 32) 0 true
  pending := BitSet.empty 32
  deadline := some 0#32

def chan (st : PhantomState) (target : Bool) (timer : Option Frame) : Channel :=
  { Channel.reset with phantomState := st, phantomTarget := target, phantomTimer := timer }

def staged : Channel :=
  { Channel.reset with stagedGain := some 50, stagedBy := some .panel, transferDeadline := some 0#32 }

def channelOf (c : Chan) : Channel :=
  if c = 1 then chan .queued true none
  else if c = 2 then chan .charging true (some 0#32)
  else if c = 3 then chan .discharging false (some 0#32)
  else if c = 4 then chan .on true none
  else if c = 5 then staged
  else if c = 6 ∨ c = 7 then { Channel.reset with gang := some 0 }
  else Channel.reset

def claims : Vector Claim 104 :=
  Tbl.of fun r =>
    if r = 10 ∨ r = 82 then .held .b .shared
    else if r = 11 ∨ r = 83 then .orphaned .c .shared (some 0#32)
    else if r = 12 then .contended 0#32 [(.a, .shared)]
    else if r = 14 then .orphaned .b .exclusive (some 0#32)
    else if r = 15 then .held .c .exclusive
    else if r = 16 then .contended 0#32 [(.c, .shared)]
    else if r = 17 then .contended 0#32 [(.c, .shared), (.a, .exclusive)]
    else .opened

def scene : Hub :=
  { Hub.reset with
    links := ⟨linkA, Link.reset, linkC⟩
    pcu := { Hub.reset.pcu with
      channels := Tbl.of channelOf, gangs := Tbl.set Hub.reset.pcu.gangs 0 (some [6, 7]), phantomQueue := [1]
      before := Vector.replicate 72 1#24, samples := Vector.replicate 72 0xFFFFFF#24 }
    arb := { Hub.reset.arb with claims := claims }
    mon := { Hub.reset.mon with
      outputs := Tbl.of fun o =>
        if o = 0 then { onFallback with talker := some .a, duckTarget := 6 * Config.duckPerDb }
        else if o = 1 then fading .gapOut .none 1
        else if o = 2 then fading .gapOut .primary 1
        else if o = 3 then fading .gapIn .primary 0
        else Output.reset }
    tbk := { Hub.reset.tbk with
      records := ⟨some talkA, none, none⟩, grants := Tbl.set Hub.reset.tbk.grants 0 (some .a), order := [.a] } }

/-- The scene, no command waiting. -/
def st : State := ⟨[], scene⟩

/-- The part a command leaves, for the tests. -/
def after (i : Instr) (h : Hub) : Hub :=
  match exec i ⟨[], h⟩ with
  | .next t => t.hub
  | .fault _ => h
  | .refused _ => h

theorem free_panel : Free .panel scene := by
  refine ⟨rfl, rfl, rfl, ?_⟩
  intro d h; cases d <;> cases h

theorem free_a : Free .a scene := by
  refine ⟨rfl, rfl, rfl, ?_⟩
  intro d h; cases d <;> first | rfl | cases h

/-! ## Small steps -/

theorem test_idle : step ⟨[], Hub.reset⟩ = .next ⟨[], Hub.reset⟩ := rfl
theorem test_no_word : decodeTableWord 8 0 = none := rfl
theorem test_message : (parseMessage (requestMessage 7 (.setInput 1 (some 60) none (some 2) none))) =
    some ⟨7, .setInput 1 (some 60) none (some 2) none⟩ := by decide +kernel
theorem test_bad_crc : parseMessage (List.replicate 8 1#8) = none := by decide +kernel
theorem test_set_input : ((after (.setInput .panel 7 1 (some 60) none none none) scene).pcu.channel 0).stagedGain = some 60 := by
  decide +kernel
theorem test_zero_crossing : ((after (.zeroCrossing 5) scene).pcu.channel 5).gain = 50 := by decide +kernel
theorem test_charge : ((after (.chargeExpiry 2) scene).pcu.channel 1).phantomState = .charging := by decide +kernel
theorem test_discharge : ((after (.dischargeExpiry 3) scene).pcu.channel 3).phantomState = .off := by decide +kernel
theorem test_gang : (after (.setInput .panel 7 7 (some 50) none none none) scene).pcu.channel 7 =
    { Channel.reset with
      gang := some 0, stagedGain := some 50, stagedBy := some .panel, transferDeadline := some 2400#32 } := by
  decide +kernel
theorem test_trim : (after (.setTrim .a 7 1 1 (-6)) scene).pcu.track .a 0 = ⟨true, -6, some 34, false⟩ := by decide +kernel
theorem test_claim : (after (.claim .panel 7 [1] 1) scene).arb.claim 0 = .contended 192#32 [(.panel, .exclusive)] := by
  decide +kernel
theorem test_window : (after .windowExpiry scene).arb.claim 12 = .held .a .shared := by decide +kernel
theorem test_grace : (after (.graceExpiry .c) scene).arb.claim 11 = .opened := by decide +kernel
theorem test_override : (after (.override .panel 7 [11]) scene).arb.claim 10 = .held .panel .shared := by decide +kernel
theorem test_freeze : (after (.freeze .panel 7) scene).arb.frozen = true := by decide +kernel
theorem test_switch : ((after (.laneSwitch .a 7 1) scene).links.get .a).activeLane = some .s := by decide +kernel
theorem test_holdover : ((after (.holdoverExpiry .c) scene).links.get .c).state = .down := by decide +kernel
theorem test_light_loss : ((after (.lightLoss ⟨.a, .p⟩) scene).links.get .a).activeLane = some .s := by decide +kernel
theorem test_lane_test : ((after (.laneTest .a 7 2 1) scene).lane ⟨.a, .s⟩).state = .testing := by decide +kernel
theorem test_fade : ((after (.fadeComplete 2) scene).mon.output 2).pathState = .gapIn := by decide +kernel
theorem test_revert : ((after (.revertExpiry 0) scene).mon.output 0).gapTarget = some .primary := by decide +kernel
theorem test_talk_off : ((after (.talkOff .a 7) scene).mon.output 0).talker = none := by decide +kernel
theorem test_talk_timeout : ((after (.talkTimeout .a) scene).tbk.records.get .a) = none := by decide +kernel
theorem test_safe : (after .safeAsserted scene).mon.safe = true := by decide +kernel
theorem test_save : (after (.saveNow .panel 7) scene).sto.running.isSome = true := by decide +kernel
theorem test_default_crc : crc16 Install.defaults.bytes ≠ 0#16 := by decide +kernel
set_option maxRecDepth 1000000 in
theorem test_default_crc_show : crc16 ShowData.defaults.bytes ≠ 0#16 := by decide +kernel
theorem test_no_field : (after (.setInput .a 7 11 none none none none) scene).pnl = scene.pnl ∧
    ((after (.setInput .a 7 11 none none none none) scene).answerOf .a) = some ⟨0x01#8, 7#8, false, .done, []⟩ := by
  decide +kernel
theorem test_orphan_falls : (after (.holdoverExpiry .c) scene).arb.claim 15 = .orphaned .c .exclusive (some 1440000#32) ∧
    (after (.holdoverExpiry .c) scene).arb.claim 17 = .contended 0#32 [(.a, .exclusive)] := by decide +kernel
theorem test_empty_write_request : (after (.writeRequest []) { scene with pnl := { scene.pnl with
    txn := some ⟨0#8, none, none, true⟩ } }).pnl.rejected = false := by decide +kernel
theorem test_advance : (advance ⟨Vector.replicate 72 3#24, 0#24, 0#24⟩ Hub.reset).now = 1#32 := rfl

/-! ## Witnesses: the step, requests, answers and notices -/

def noticeList (n : Nat) : List NoticeEntry := List.replicate n ⟨.hubRestarted false, false⟩

def queued (n : Nat) : Hub := scene.setQueue .a ⟨List.replicate n ⟨0#8, .readTalk⟩, true, false⟩

theorem test_witness_StepRunsTheFrontCommand : (⟨[.safeAsserted], scene⟩ : State).pending = .safeAsserted :: [] := rfl

/-- The store with both regions passing their CRC-16, with nine phantom targets ON. -/
def stored : Sto :=
  let settings := { ShowData.defaults with channels := Tbl.of fun c =>
    { Tbl.get ShowData.defaults.channels c with phantomTarget := decide (c.1 < 9) } }
  { scene.sto with
    installRegion := ⟨⟨Install.defaults, false⟩, crc16 Install.defaults.bytes⟩
    showRegion := ⟨settings, crc16 settings.bytes⟩ }

theorem test_witness_PowerOnResetRestoresThePart :
    stored.installRegion.crc = crc16 stored.installRegion.contents.settings.bytes ∧
    stored.showRegion.crc = crc16 stored.showRegion.contents.bytes ∧
    (scene.sto.installRegion.crc ≠ crc16 scene.sto.installRegion.contents.settings.bytes ∧
    ({ Install.defaults with phantomRestore := false } : Install).phantomRestore = false ∧
    stored.installRegion.contents.settings.phantomRestore = true ∧
    (Tbl.get stored.showRegion.contents.channels 8).phantomTarget = true ∧
    (Tbl.get (stored.showRegion.contents.tracking.get .a) 0).tracking = true ∧
    (Tbl.get (stored.showRegion.contents.tracking.get .a) 0).reference = some 40) :=
  ⟨by simp only [stored], by simp only [stored], by decide +kernel⟩
theorem test_witness_PowerOnResetClearsHealth : ∃ t, exec (.powerOnReset ⟨⟨⟨true, false⟩, ⟨true, true⟩, ⟨false, false⟩⟩,
    true, false, true⟩ ⟨Vector.replicate 72 0#24, 0#24, 0#24⟩) st = .next t := ⟨_, rfl⟩
theorem test_witness_NoticesAndAnswersArePlaced_changes :
    (outputChanges false (Vector.replicate 32 onFallback) (Vector.replicate 32 Output.reset)).length = 11 ∧
    outputChanges false scene.mon.outputs scene.mon.outputs = [] ∧
    claimChanges Hub.reset.arb scene.arb = [.claimChanged .held (some .b) (some .shared) [10, 82],
      .claimChanged .orphaned (some .c) (some .shared) [11, 83], .claimChanged .contended none none [12, 16, 17],
      .claimChanged .orphaned (some .b) (some .exclusive) [14],
      .claimChanged .held (some .c) (some .exclusive) [15]] := by decide +kernel
theorem test_witness_NoticesAndAnswersArePlaced :
    (noticeList 7).length < 8 ∧ 8 ≤ (noticeList 8).length ∧ (noticeList 15).length < 16 ∧ 16 ≤ (noticeList 16).length ∧
    ((queued 1).req.queues.get .a).items = [⟨0#8, .readTalk⟩] ∧ ((queued 1).req.queues.get .a).executing = true := by
  decide +kernel
theorem test_witness_RequestArrivalQueuesTheMessage :
    (Call.setInput 255 (some 255) none none none).fits = true ∧ (scene.links.get .a).state = .up ∧
    (∀ n ∈ [1, 5, 7, 8], ((queued n).req.queues.get .a).executing = true ∧
      ((queued n).req.queues.get .a).items ≠ [] ∧ ((queued n).req.queues.get .a).items.length = n) := by decide +kernel
theorem test_witness_RequestArrivalQueuesTheMessage_cells :
    asmStep none (some ⟨0x01#8, 8#8, 7#8, 0#8⟩) = (some ⟨8, [8#8, 7#8, 0#8]⟩, none) ∧
    asmStep none (some ⟨0x01#8, 7#8, 7#8, 0#8⟩) = (none, none) ∧
    asmStep none (some ⟨0x01#8, 65#8, 7#8, 0#8⟩) = (none, none) ∧
    asmStep (some ⟨8, [8#8, 7#8, 0#8]⟩) (some ⟨0x02#8, 0#8, 0#8, 0#8⟩) = (some ⟨8, [8#8, 7#8, 0#8, 0#8, 0#8, 0#8]⟩, none) ∧
    asmStep (some ⟨8, [8#8, 7#8, 0#8, 0#8, 0#8, 0#8]⟩) (some ⟨0x02#8, 1#8, 2#8, 3#8⟩) =
      (none, some [8#8, 7#8, 0#8, 0#8, 0#8, 0#8, 1#8, 2#8]) ∧
    asmStep (some ⟨8, []⟩) (some Cell.idle) = (none, none) ∧ lengthOk (requestMessage 7 .readTalk) = true ∧
    (messageCells (requestMessage 7 .readTalk)).length = 3 := by decide +kernel

/-- Desk A's answer wholly sent, HOLD set, with n requests in its queue. -/
def sent (n : Nat) : Hub := (queued n).setDesk .a { DeskPort.reset with tx := some ⟨[], true⟩, hold := true }

theorem test_witness_DeliveryEmptiesTheSlot :
    ((sent 1).req.desks.get .a).answerSent = true ∧
    ((sent 1).req.queues.get Desk.a.req).items = [⟨0#8, .readTalk⟩] ∧
    ((sent 3).req.queues.get Desk.a.req).items = ⟨0#8, .readTalk⟩ :: ⟨0#8, .readTalk⟩ :: [⟨0#8, .readTalk⟩] ∧
    (scene.req.desks.get .a).answerSent = false := by decide +kernel
theorem test_hold_threshold : ((after (.answerDelivery .a) (sent 4)).req.desks.get .a).hold = false ∧
    ((after (.answerDelivery .a) (sent 5)).req.desks.get .a).hold = true ∧
    ((after (.answerDelivery .a) (sent 5)).req.queues.get .a).executing = true := by decide +kernel
theorem test_witness_PanelRequestsFromADeskAreDenied :
    Free Desk.a.req scene ∧ (List.replicate 44 0#8).length = 44 := ⟨free_a, by decide⟩
theorem test_witness_RequestMessageRoundTrip :
    (Call.setGang 255 (List.replicate 56 255)).fits = true ∧ (Call.setTrim 1 1 (-128)).fits = true ∧
    (Call.laneTest 1 65535).fits = true ∧ (Call.talkOn (Tbl.set (BitSet.empty 32) 31 true) 255).fits = true := by
  decide +kernel

/-! ## Witnesses: channels and tracking -/

/-- Channels 0 to 7 CHARGING to their deadline, channel 8 QUEUED. -/
def charging : Hub :=
  { Hub.reset with pcu := { Hub.reset.pcu with
      channels := Tbl.of fun c =>
        if c < 8 then chan .charging true (some 0#32) else if c = 8 then chan .queued true none else Channel.reset
      phantomQueue := [8] } }

theorem free_charging : Free .panel charging := by
  refine ⟨rfl, rfl, rfl, ?_⟩
  intro d h; cases d <;> cases h

theorem free_reset : Free .panel Hub.reset := by
  refine ⟨rfl, rfl, rfl, ?_⟩
  intro d h; cases d <;> cases h

theorem test_witness_SetInputStagesGainAndPad : Free .panel scene ∧
    ((scene.pcu.channel 0).gang = none ∧ (scene.pcu.channel 0).inTransition = false ∧
      scene.arb.permission .panel (Chan.res 0) = .permitted) ∧
    ((scene.pcu.channel 6).gang = some 0 ∧ Tbl.get scene.pcu.gangs 0 = some [6, 7] ∧
      (∀ m ∈ ([6, 7] : List Chan), (scene.pcu.channel m).inTransition = false ∧
        scene.arb.permission .panel (Chan.res m) = .permitted ∧
        0 ≤ ((scene.pcu.channel m).commandedGain : Int) + (0 - 40) ∧
        ((scene.pcu.channel m).commandedGain : Int) + (127 - 40) ≤ 127)) := ⟨free_panel, by decide +kernel⟩
theorem test_witness_SetInputAppliesFilterAndPhantom : Free .panel scene ∧ Free .panel Hub.reset ∧ Free .panel charging ∧
    (∀ c ∈ ([1, 2, 3, 4] : List Chan), scene.arb.permission .panel (Chan.res c) = .permitted ∧
      scene.pcu.groupStaged c = false) ∧
    (scene.pcu.channel 1).phantomState = .queued ∧ (scene.pcu.channel 2).phantomState = .charging ∧
    (scene.pcu.channel 3).phantomState = .discharging ∧ (scene.pcu.channel 4).phantomState = .on ∧
    (Hub.reset.pcu.channel 0).phantomState = .off ∧ Hub.reset.pcu.phantomQueue = [] ∧ Hub.reset.pcu.charging < 8 ∧
    (charging.pcu.channel 9).phantomState = .off ∧ 8 ≤ charging.pcu.charging :=
  ⟨free_panel, free_reset, free_charging, by decide +kernel⟩
theorem test_witness_RequestsTurnedAway : Free .panel scene ∧ Free .a scene ∧
    scene.arb.claim (Chan.res 10) = .held .b .shared ∧ scene.arb.claim (Chan.res 11) = .orphaned .c .shared (some 0#32) ∧
    (scene.pcu.channel 10).gang = none ∧ (scene.pcu.channel 11).gang = none ∧ resources? [] = none ∧ level? 2 = none ∧
    resources? [1, 104] ≠ none ∧ resources? [105] = none ∧ level? 1 ≠ none ∧
    scene.sto.install.supervisor.get .a = false ∧ scene.sto.install.supervisor.get .panel = true ∧
    patchFields? none none 0 15 ≠ none ∧
    (∀ j : Out, j < 10 → scene.arb.permission .panel (Out.res j) = .permitted) ∧
    scene.arb.claim (Out.res 10) = .held .b .shared ∧
    scene.arb.claim (Out.res 11) = .orphaned .c .shared (some 0#32) := ⟨free_panel, free_a, by decide +kernel⟩
/-- A TALK_ON behind an answer wholly sent, the link having left UP. -/
def leftUp : Hub :=
  { (scene.setQueue .a ⟨[⟨2#8, .readTalk⟩, ⟨3#8, .talkOn talkA.destinations 30⟩], true, false⟩).setDesk .a
      { DeskPort.reset with tx := some ⟨[], true⟩, hold := true } with links := scene.links.set .a linkC }

theorem test_witness_RequestsTurnedAway_notUp : (leftUp.links.get .a).state ≠ .up ∧
    (leftUp.req.desks.get .a).answerSent = true ∧
    (leftUp.req.queues.get Desk.a.req).items = ⟨2#8, .readTalk⟩ :: ⟨3#8, .talkOn talkA.destinations 30⟩ :: [] ∧
    Tbl.get talkA.destinations 0 = true := by decide +kernel
theorem test_not_up : (after (.answerDelivery .a) leftUp).answerOf .a = some ⟨0x0F#8, 3#8, false, .notUp, []⟩ := by
  decide +kernel
theorem test_witness_RequestsTurnedAway_frozen :
    Free .panel { scene with arb := { scene.arb with frozen := true } } := free_panel
theorem test_witness_RequestsTurnedAway_fields : (0 < 1 ∨ 72 < 0) ∧ (∃ g, some 128 = some g ∧ 127 < g) ∧
    (some 0 : Option Nat) ≠ none ∧ (∀ o : Out, Tbl.get (BitSet.empty 32) o = false) ∧ 30 < 31 ∧
    resources? [105] = none := by
  exact ⟨Or.inl (by decide), ⟨128, rfl, by decide⟩, by decide, by decide +kernel, by decide, by decide⟩
theorem test_witness_RequestsTurnedAway_gang : Free .panel scene ∧ (scene.pcu.channel 6).gang = some 0 ∧
    Tbl.get scene.pcu.gangs 0 = some [6, 7] ∧
    (let p := scene.pcu.setChannel 7 { scene.pcu.channel 7 with gain := 41 }
     (p.channel 6).gang = some 0 ∧ 127 < ((p.channel 7).commandedGain : Int) + ((127 : Nat) - (p.channel 6).commandedGain)) ∧
    (let x := { scene.arb with claims := Tbl.set scene.arb.claims 7 (.held .b .shared) }
     x.permission .panel (Chan.res 7) ≠ .permitted) ∧
    ¬(∃ x, (some 127 : Option Nat) = some x ∧ ∃ m ∈ [(6 : Chan), 7],
      (scene.pcu.channel m).commandedGain + ((x : Int) - (scene.pcu.channel 6).commandedGain) < 0) ∧
    members? [7, 1] = some [6, 0] ∧ (∃ k, (scene.pcu.channel 6).gang = some k ∧ k ≠ 1) ∧
    members? [1, 11] = some [0, 10] ∧ scene.arb.permission .panel (Chan.res 10) ≠ .permitted ∧
    (∀ m ∈ [(0 : Chan), 10], (scene.pcu.channel m).gang = none) := by
  refine ⟨free_panel, by decide +kernel, by decide +kernel, by decide +kernel, by decide +kernel, ?_, by decide +kernel,
    by decide +kernel, by decide +kernel, by decide +kernel, by decide +kernel⟩
  rintro ⟨x, h, m, hm, lt⟩
  have e : ∀ m ∈ [(6 : Chan), 7], (scene.pcu.channel m).commandedGain = 40 := by decide +kernel
  rw [e m hm, e 6 (by decide)] at lt
  cases h
  omega
theorem test_witness_RequestsTurnedAway_tracking :
    (Requester.a ≠ .panel ∧ ∀ x : Desk, Requester.a = x.req → 2 ≠ Desk.num x) ∧
    ¬((2 < 1 ∨ 3 < 2) ∨ (∀ c : Chan, Tbl.get (Tbl.set (BitSet.empty 72) 71 true) c = false) ∨ 1 < 1) ∧
    ¬((2 < 1 ∨ 3 < 2) ∨ 72 < 1 ∨ 72 < 72 ∨ (48 : Int) < -48 ∨ (48 : Int) < 48) ∧
    (some (1, 33) : Option (Nat × Nat)) = some (1, 33) ∧ 32 < 33 := by
  refine ⟨⟨by decide, fun x h => ?_⟩, ?_, by decide, rfl, by decide⟩
  · cases x <;> revert h <;> decide
  · rintro (h | h | h)
    · revert h; decide
    · exact absurd (h 71) (by decide +kernel)
    · revert h; decide
theorem test_witness_TransferOfATrackingEntry : (⟨false, 0, none, false⟩ : Track).tracking = false ∧
    (⟨true, -48, some (-88), false⟩ : Track).reference = some (-88) := by decide
theorem test_witness_TransferOfAChannel : (scene.pcu.channel 5).gang = none ∧ (scene.pcu.channel 5).isStaged = true ∧
    (scene.pcu.channel 5).stagedBy = some .panel ∧
    crosses (Tbl.get scene.pcu.before 5) (Tbl.get scene.pcu.samples 5) = true ∧
    (scene.pcu.channel 5).transferDeadline ≠ some (later scene.now 2400) ∧
    (scene.pcu.channel 5).transferDeadline = some 0#32 ∧ reached scene.now 0#32 = true := by decide +kernel

/-- The scene with the values of gang 1, channels 7 and 8, staged to their deadline. -/
def gangStaged : Hub :=
  { scene with pcu := { scene.pcu with channels := Tbl.of fun c =>
      if c = 6 ∨ c = 7 then { staged with gang := some 0 } else channelOf c } }

theorem test_witness_TransferOfAChannel_gang : Tbl.get gangStaged.pcu.gangs 0 = some (6 :: [7]) ∧ [(6 : Chan), 7].Nodup ∧
    (∀ m ∈ [(6 : Chan), 7], (gangStaged.pcu.channel m).gang = some 0 ∧ (gangStaged.pcu.channel m).isStaged = true ∧
      (gangStaged.pcu.channel m).stagedBy = some .panel) ∧
    crosses (Tbl.get gangStaged.pcu.before 6) (Tbl.get gangStaged.pcu.samples 6) = true ∧
    (gangStaged.pcu.channel 6).transferDeadline = some 0#32 ∧ reached gangStaged.now 0#32 = true ∧
    (gangStaged.pcu.channel 6).transferDeadline ≠ some (later gangStaged.now 2400) := by decide +kernel
theorem test_witness_TransferOfAChannel_transition : Free .panel scene ∧ (scene.pcu.channel 2).gang = none ∧
    (scene.pcu.channel 2).inTransition = true ∧ scene.arb.permission .panel (Chan.res 2) = .permitted :=
  ⟨free_panel, by decide +kernel⟩
/-- Gang 1 with channel 7 OFF and channel 8 CHARGING, nothing staged; and the same with both staged and channel 7 ON or
OFF. -/
def gangMoving : Hub :=
  { scene with pcu := { scene.pcu with channels := Tbl.of fun c =>
      if c = 6 then { Channel.reset with gang := some 0 }
      else if c = 7 then { chan .charging true (some 0#32) with gang := some 0 } else channelOf c } }

def gangPhantom (st : PhantomState) (target : Bool) : Hub :=
  { scene with pcu := { scene.pcu with
      phantomQueue := []
      channels := Tbl.of fun c =>
        if c = 6 then { staged with gang := some 0, phantomState := st, phantomTarget := target }
        else if c = 7 then { staged with gang := some 0 } else channelOf c } }

theorem free_gangs (st : PhantomState) (target : Bool) :
    Free .panel gangStaged ∧ Free .panel gangMoving ∧ Free .panel (gangPhantom st target) := by
  refine ⟨⟨rfl, rfl, rfl, ?_⟩, ⟨rfl, rfl, rfl, ?_⟩, ⟨rfl, rfl, rfl, ?_⟩⟩
  all_goals intro d h; cases d <;> cases h
theorem gangMoving_moves : gangMoving.pcu.MovesWith 6 [6, 7] := Or.inr ⟨0, by decide +kernel⟩
theorem gangPhantom_moves (st : PhantomState) (target : Bool) : (gangPhantom st target).pcu.MovesWith 6 [6, 7] :=
  Or.inr ⟨0, by cases st <;> cases target <;> decide +kernel⟩

theorem test_witness_TransferOfAChannel_gang_transition : Free .panel gangMoving ∧
    gangMoving.pcu.MovesWith 6 [6, 7] ∧ scene.pcu.MovesWith 2 [2] ∧
    (∃ m ∈ [(6 : Chan), 7], (gangMoving.pcu.channel m).inTransition = true) ∧
    (∀ m ∈ [(6 : Chan), 7], gangMoving.arb.permission .panel (Chan.res m) = .permitted ∧
      (gangMoving.pcu.channel m).commandedGain = 40) :=
  ⟨(free_gangs .on true).2.1, gangMoving_moves, Or.inl ⟨by decide +kernel, rfl⟩, by decide +kernel⟩
theorem test_witness_TransferOfAChannel_phantom :
    (∀ h ∈ [gangPhantom .on true, gangPhantom .off false], Free .panel h ∧ h.pcu.MovesWith 6 [6, 7] ∧
      h.arb.permission .panel (Chan.res 6) = .permitted ∧ (∀ m ∈ [(6 : Chan), 7],
        (h.pcu.channel m).isStaged = true ∧ (h.pcu.channel m).stagedBy = some .panel)) ∧
    scene.pcu.MovesWith 5 [5] ∧ (scene.pcu.channel 5).stagedBy = some .panel ∧
    ((gangPhantom .on true).pcu.channel 6).phantomState = .on ∧
    ((gangPhantom .off false).pcu.channel 6).phantomState = .off ∧
    (gangPhantom .off false).pcu.phantomQueue = [] ∧ (gangPhantom .off false).pcu.charging < 8 := by
  refine ⟨fun h m => ?_, Or.inl ⟨by decide +kernel, rfl⟩, by decide +kernel⟩
  simp only [List.mem_cons, List.not_mem_nil, or_false] at m
  rcases m with rfl | rfl
  · exact ⟨(free_gangs _ _).2.2, gangPhantom_moves _ _, by decide +kernel, by decide +kernel⟩
  · exact ⟨(free_gangs _ _).2.2, gangPhantom_moves _ _, by decide +kernel, by decide +kernel⟩
theorem test_witness_PhantomTimersExpire : (charging.pcu.channel 7).phantomState = .charging ∧
    (charging.pcu.channel 7).phantomTimer = some 0#32 ∧ reached charging.now 0#32 = true ∧
    charging.pcu.phantomQueue = 8 :: [] ∧ charging.pcu.charging = 8 ∧ (charging.pcu.channel 8).phantomState = .queued ∧
    charging.pcu.groupStaged 8 = false ∧ ({ charging.pcu with phantomQueue := [] } : Pcu).phantomQueue = [] ∧
    (scene.pcu.channel 3).phantomState = .discharging ∧ (scene.pcu.channel 3).phantomTimer = some 0#32 := by
  decide +kernel
theorem test_witness_PhantomTimersExpire_staged :
    (let p := charging.pcu.setChannel 8 { staged with phantomState := .queued, phantomTarget := true }
     p.phantomQueue = 8 :: [] ∧ p.charging = 8 ∧ (p.channel 8).phantomState = .queued ∧
       p.MovesWith 8 [8] ∧ (p.channel 8).isStaged = true ∧ (p.channel 8).stagedBy = some .panel) :=
  ⟨by decide +kernel, by decide +kernel, by decide +kernel, Or.inl ⟨by decide +kernel, rfl⟩, by decide +kernel⟩
theorem test_witness_SetGangTakesTheList : Free .panel scene ∧ members? [7, 1] = some [6, 0] ∧ members? [] = some [] ∧
    (∀ m ∈ ([6, 0] : List Chan), (scene.pcu.channel m).gang = none ∨ (scene.pcu.channel m).gang = some 0) ∧
    (Tbl.get scene.pcu.gangs 0).getD [] = [6, 7] ∧
    (∀ m ∈ ([6, 7, 0] : List Chan), (scene.pcu.channel m).isStaged = false ∧
      scene.arb.permission .panel (Chan.res m) = .permitted) := ⟨free_panel, by decide +kernel⟩
theorem test_witness_SetGangTakesTheList_staged : Free .panel gangStaged ∧ members? [6, 7] = some [5, 6] ∧
    (∀ m ∈ [(5 : Chan), 6], (gangStaged.pcu.channel m).gang = none ∨ (gangStaged.pcu.channel m).gang = some 0) ∧
    Tbl.get gangStaged.pcu.gangs 0 = some [6, 7] ∧ [(6 : Chan), 7].Nodup ∧
    (∀ m ∈ [(6 : Chan), 7], (gangStaged.pcu.channel m).gang = some 0) ∧
    (∀ m ∈ [(6 : Chan), 7, 5], gangStaged.arb.permission .panel (Chan.res m) = .permitted ∧
      (gangStaged.pcu.channel m).isStaged = true ∧ (gangStaged.pcu.channel m).stagedBy = some .panel) :=
  ⟨(free_gangs .on true).1, by decide +kernel⟩
theorem test_witness_TrackingRequestsChangeEntries : Free .panel scene ∧ Free .a scene ∧
    (Requester.a ≠ .panel ∧ Requester.a ≠ Desk.b.req) ∧ Requester.a = Desk.a.req ∧
    Tbl.get (Tbl.set (BitSet.empty 72) 71 true) 71 = true ∧
    (∀ c, -48 ≤ (scene.pcu.track .a c).trim ∧ (scene.pcu.track .a c).trim ≤ 48) :=
  ⟨free_panel, free_a, by decide +kernel⟩
theorem test_witness_SamplesOfAPeriod : (scene.pcu.channel 2).inTransition = true ∧
    (scene.pcu.channel 0).inTransition = false ∧ (scene.pcu.track .a 0).trim = 0 ∧
    ((scene.pcu.setTrack .a 0 ⟨false, 12, none, false⟩).track .a 0).trim = 12 ∧
    ((scene.pcu.setTrack .a 0 ⟨false, 12, none, false⟩).channel 0).inTransition = false ∧
    (let o : Output := { Output.reset with
        enable := true, carried := some (src 0), fade := Config.fadeFull, talker := some .a }
     o.enable = true ∧ o.carried = some (src 0) ∧ o.duck = 0 ∧ o.talker = some .a ∧ Output.reset.enable = false ∧
       Output.reset.carried = none ∧ Output.reset.talker = none) := by decide +kernel

theorem test_witness_SamplesOfAPeriod_levels :
    (let p := scene.pcu.setTrack .a 0 ⟨false, -13, none, false⟩
     (p.channel 0).inTransition = false ∧ (p.track .a 0).trim = -13 ∧ (-48 : Int) ≤ -13 ∧ (-13 : Int) ≤ 48) ∧
    (let o : Output := { Output.reset with
        enable := true, carried := some (src 0), fade := Config.fadeFull, duck := 30 * Config.duckPerDb }
     o.enable = true ∧ o.carried = some (src 0) ∧ o.fade = Config.fadeFull ∧ o.duck = 30 * Config.duckPerDb ∧
       o.talker = none) := by decide +kernel

/-! ## Witnesses: claims -/

theorem test_witness_PermissionVerdictTable : scene.arb.claim 0 = .opened ∧
    scene.arb.claim 12 = .contended 0#32 [(.a, .shared)] ∧ scene.arb.claim 10 = .held .b .shared ∧
    Requester.b ≠ Requester.a ∧ scene.arb.claim 11 = .orphaned .c .shared (some 0#32) := by decide +kernel
theorem test_witness_ClaimRecordTables : (∃ e ∈ [(Requester.a, Level.shared)], e.1 = Requester.a) ∧
    (∀ e ∈ [(Requester.a, Level.shared)], e.1 ≠ Requester.b) ∧ [(Requester.a, Level.shared)] ≠ [] := by decide
theorem test_witness_ClaimDecidesEachResource : Free .panel scene ∧ resources? [1, 13] = some [0, 12] ∧
    resources? [11, 12] = some [10, 11] ∧ level? 0 = some .shared ∧ scene.arb.frozen = false ∧
    (∀ r ∈ ([10, 11] : List Res), (claimRecord 0#32 192 .panel .shared (scene.arb.claim r)).2 ≠ none) ∧
    (∃ r ∈ ([0, 12] : List Res), (claimRecord 0#32 192 .panel .shared (scene.arb.claim r)).2 = none) :=
  ⟨free_panel, by decide +kernel⟩
theorem test_witness_ReleaseAndOverride : Free .panel scene ∧ resources? [1, 104] = some [0, 103] ∧
    scene.arb.frozen = false ∧ scene.sto.install.supervisor.get .panel = true ∧
    scene.arb.pendingClaims.get .panel = none := ⟨free_panel, by decide +kernel⟩
theorem test_witness_ReleaseAndOverride_lost : resources? [11, 12] = some [10, 11] ∧
    (overrideRecord .panel (scene.arb.claim 10)).2.2 = some .b ∧
    (overrideRecord .panel (scene.arb.claim 11)).2.2 = some .c := by decide +kernel
theorem test_witness_ClaimTimersExpire :
    (scene.arb.pendingClaims.set .a (some [(12, none)])).get .a = some [(12, none)] ∧
    reached scene.now 0#32 = true := by decide +kernel
/-- A claim of desk A in execution, both of its outcomes open: one resource of its own, one it contests with desk C. -/
def contest : Hub :=
  { scene.setQueue .a ⟨[⟨9#8, .claim [13, 18] 0⟩], true, false⟩ with
    arb := { scene.arb with pendingClaims := scene.arb.pendingClaims.set .a (some [(12, none), (17, none)]) } }

theorem free_contest : Free .panel contest := by
  refine ⟨rfl, rfl, rfl, ?_⟩
  intro d h; cases d <;> cases h
theorem test_witness_ClaimTimersExpire_pending :
    contest.arb.pendingClaims.get .a = some [(12, none), (17, none)] ∧
    (contest.req.queues.get .a).items = [⟨9#8, .claim [13, 18] 0⟩] ∧ (contest.req.queues.get .a).executing = true ∧
    (contest.arb.claim 17).contenders = [(.c, .shared), (.a, .exclusive)] ∧ reached contest.now 0#32 = true ∧
    (after .windowExpiry contest).answerOf .a =
      some ⟨0x07#8, 9#8, false, .done, outcomeBody [.done, .done]⟩ ∧
    (after .windowExpiry contest).arb.pendingClaims.get .a = none := by decide +kernel
theorem test_witness_ReleaseAndOverride_pending : Free .panel contest ∧ resources? [13, 18] = some [12, 17] ∧
    contest.sto.install.supervisor.get .panel = true ∧ contest.arb.frozen = false ∧
    contest.arb.pendingClaims.get .panel = none ∧
    (after (.override .panel 7 [13]) contest).arb.pendingClaims.get .a =
      some [(12, some .lostArbitration), (17, none)] ∧
    (after (.override .panel 7 [13, 18]) contest).answerOf .a =
      some ⟨0x07#8, 9#8, false, .done, outcomeBody [.lostArbitration, .lostArbitration]⟩ :=
  ⟨free_contest, by decide +kernel⟩
theorem test_witness_FreezeFixesTheTable_pending : Free .panel contest ∧
    contest.arb.pendingClaims.get .panel = none ∧ (after (.freeze .panel 7) contest).answerOf .a =
      some ⟨0x07#8, 9#8, false, .done, outcomeBody [.done, .done]⟩ := ⟨free_contest, by decide +kernel⟩
theorem test_witness_FreezeFixesTheTable : Free .panel scene ∧ scene.sto.install.supervisor.get .panel = true ∧
    scene.arb.frozen = false ∧ scene.arb.pendingClaims.get .panel = none := ⟨free_panel, by decide +kernel⟩

/-! ## Witnesses: lanes, links, health -/

/-- An upstream AUDIO frame with silent slots. -/
def upBytes (n : Frame) : List Byte :=
  let body := enc32 n.toNat ++ List.replicate 104 0#8
  body ++ crcBytes body

/-- The same as a PATTERN frame. -/
def patternBytes (n : Frame) : List Byte :=
  let body := enc32 n.toNat ++ [0x80#8] ++ List.replicate 103 0#8
  body ++ crcBytes body

def upFrame (n : Frame) : UpFrame := ⟨n, false, Vector.replicate 32 0#24, 0#24, Cell.idle⟩

/-! The frames of the lanes' witnesses: AUDIO and PATTERN, of the number due at a latency of 5 in the scene. -/

set_option maxRecDepth 20000 in
theorem parse_audio : parseUp (upBytes (0#32 - 5#32)) = some (upFrame (0#32 - 5#32)) := by decide +kernel
set_option maxRecDepth 20000 in
theorem parse_pattern : (parseUp (patternBytes (0#32 - 5#32))).any (fun f =>
    f.pattern && decide (f.number = 0#32 - 5#32)) = true := by decide +kernel

def acquired (n : Frame) : LaneRec := { lane .acquiring none false with acquireRun := 4, rx := some (upFrame n) }

/-- Link A with S acquired, link B DOWN with P at the qualify length, link C in HOLDOVER with P acquired. -/
def lanes (n : Frame) : Hub :=
  { scene with links :=
      ⟨upLink (lane .active (some 5#32) true) (acquired n),
       { Link.reset with lanes := ⟨{ lane .qualifying (some 5#32) false with qualifyDue := true }, LaneRec.reset⟩ },
       { linkC with lanes := ⟨acquired n, lane .dark none false⟩ }⟩ }

/-- Link A with both lanes at the qualify length, P provisional. -/
def provisional : Hub :=
  { scene with links := ⟨
      { upLink { lane .active (some 5#32) false with qualifyDue := true }
          { lane .qualifying (some 5#32) false with qualifyDue := true } with provisional := true },
      Link.reset, Link.reset⟩ }

theorem free_lanes : Free .panel (lanes 0) := by
  refine ⟨rfl, rfl, rfl, ?_⟩
  intro d h; cases d <;> cases h

theorem test_witness_FrameResultsOfALaneInSync : (scene.lane ⟨.a, .s⟩).arrived = false ∧
    (scene.lane ⟨.a, .s⟩).latency = some 5#32 ∧ (scene.lane ⟨.a, .s⟩).state ≠ .testing ∧
    scene.hlm.tests.get .a = none ∧ scene.now = 0#32 ∧
    parseUp (upBytes (0#32 - 5#32)) = some (upFrame (0#32 - 5#32)) ∧ parseUp [] = none ∧
    verdictOf scene.sto.install.thresholds ⟨1, 0, 0, 0, 0⟩ = (laneGet scene.hlm.health ⟨.a, .s⟩).verdict :=
  ⟨by decide +kernel, by decide +kernel, by decide +kernel, rfl, rfl, parse_audio, by decide, by decide +kernel⟩
theorem test_witness_FrameResultsOfALaneInSync_acquiring (n : Frame) :
    (let r := { lane .acquiring none false with acquireRun := 3, runNumber := n }
     (scene.setLane ⟨.a, .s⟩ r).lane ⟨.a, .s⟩ = r ∧ r.arrived = false ∧ r.latency = none ∧ r.state = .acquiring ∧
       0 < r.acquireRun ∧ (upFrame (n + 1#32)).number = r.runNumber + 1#32 ∧ (upFrame (n + 1#32)).pattern = false) ∧
    ({ lane .acquiring none false with arrived := true } : LaneRec).arrived = true :=
  ⟨⟨rfl, rfl, rfl, rfl, Nat.zero_lt_succ 2, rfl, rfl⟩, rfl⟩
theorem test_witness_AcquisitionCompletes : ((lanes 0).lane ⟨.a, .s⟩).state = .acquiring ∧
    4 ≤ ((lanes 0).lane ⟨.a, .s⟩).acquireRun ∧ ((lanes 0).links.get .a).state ≠ .holdover ∧
    ((lanes 0).lane ⟨.a, .p⟩).trusted = true ∧ 32 < latencyDistance (0#32 - (0#32 - 38#32)) 5#32 ∧
    ¬(32 < latencyDistance (0#32 - (0#32 - 37#32)) 5#32) ∧ ((lanes 0).lane ⟨.c, .p⟩).state = .acquiring ∧
    ((lanes 0).links.get .c).state = .holdover ∧ ((lanes 0).lane ⟨.c, .s⟩).trusted = false := by decide +kernel
theorem test_witness_AcquisitionCompletes_orphans : (lanes 0).arb.claim 11 = .orphaned .c .shared (some 0#32) ∧
    (∀ level o, (lanes 0).arb.claim 0 ≠ .orphaned .c level o) ∧ Desk.a ≠ (⟨.c, .p⟩ : LaneId).link := by
  refine ⟨by decide +kernel, fun level o h => ?_, by decide⟩
  exact absurd ((show (lanes 0).arb.claim 0 = .opened by decide +kernel).symm.trans h) (by simp)
theorem test_witness_QualificationCompletes : ((lanes 0).lane ⟨.b, .p⟩).qualifyDue = true ∧
    ((lanes 0).links.get .b).state = .down ∧ ((lanes 0).lane ⟨.b, .p⟩).state = .qualifying ∧
    ((lanes 0).lane ⟨.b, .p⟩).latency = some 5#32 ∧ (provisional.links.get .a).state = .up ∧
    (provisional.lane ⟨.a, .s⟩).state = .qualifying ∧ (provisional.lane ⟨.a, .s⟩).qualifyDue = true ∧
    (provisional.lane ⟨.a, .p⟩).state = .active ∧ (provisional.lane ⟨.a, .p⟩).qualified = false ∧
    (provisional.lane ⟨.a, .p⟩).qualifyDue = true ∧ (provisional.links.get .a).provisional = true := by decide +kernel
theorem test_witness_QualificationCompletes_orphans : (lanes 0).arb.claim 14 = .orphaned .b .exclusive (some 0#32) ∧
    (lanes 0).hlm.tests.get .b = none ∧ provisional.hlm.tests.get .a = none := by decide +kernel
theorem test_witness_FaultOfAnIdleLane : scene.hlm.tests.get .a = none ∧
    (scene.links.get .a).activeLane ≠ some .s ∧ (scene.lane ⟨.a, .s⟩).light = true ∧
    (scene.lane ⟨.a, .s⟩).state ≠ .dark ∧ (scene.lane ⟨.a, .s⟩).latency ≠ none ∧
    8 ≤ ({ scene.lane ⟨.a, .s⟩ with badRun := 8 } : LaneRec).badRun := by decide +kernel
theorem test_witness_LossOfTheActiveLane :
    (∀ h ∈ [scene, lanes 0, provisional], h.hlm.tests.get .a = none ∧ (h.lane ⟨.a, .p⟩).light = true ∧
      (h.lane ⟨.a, .p⟩).state = .active ∧ (h.links.get .a).state = .up ∧ (h.links.get .a).activeLane = some .p) ∧
    (scene.lane ⟨.a, .s⟩).state = .ready ∧ ((lanes 0).lane ⟨.a, .s⟩).state = .acquiring ∧
    (provisional.lane ⟨.a, .s⟩).state = .qualifying := by decide +kernel

/-- Link A with a lane's record replaced. -/
def withLane (side : Side) (f : LaneRec → LaneRec) : Hub := scene.setLane ⟨.a, side⟩ (f (scene.lane ⟨.a, side⟩))

theorem test_witness_FaultOfAnIdleLane_frames :
    (∀ n ∈ [6, 7], let r := (withLane .s fun r => { r with badRun := n }).lane ⟨.a, .s⟩
      r.light = true ∧ r.state ≠ .dark ∧ r.arrived = false ∧ r.latency ≠ none ∧ r.badRun = n) ∧
    ((withLane .s fun r => { r with arrived := true }).lane ⟨.a, .s⟩).arrived = true ∧
    (withLane .s fun r => { r with badRun := 7 }).hlm.tests.get .a = none ∧
    ((withLane .p fun r => { r with arrived := true }).lane (otherLane ⟨.a, .s⟩)).arrived = true := by decide +kernel
theorem test_missing_frame_of_a_dark_lane :
    (laneGet (after (.lightLoss ⟨.a, .s⟩) (withLane .s fun r => { r with badRun := 7 })).hlm.health ⟨.a, .s⟩).counters =
      ⟨1, 1, 1, 0, 0⟩ := by decide +kernel
theorem test_witness_LossOfTheActiveLane_frame :
    ((withLane .p fun r => { r with arrived := true }).lane ⟨.a, .p⟩).arrived = true ∧
    ((withLane .p fun r => { r with arrived := true }).lane ⟨.a, .p⟩).badRun < 8 ∧
    ((withLane .s fun r => { r with arrived := true }).lane (otherLane ⟨.a, .p⟩)).arrived = true ∧
    8 ≤ ((withLane .p fun r => { r with badRun := 8 }).lane ⟨.a, .p⟩).badRun ∧
    ((withLane .p fun r => { r with badRun := 8 }).lane ⟨.a, .p⟩).latency ≠ none := by decide +kernel
theorem test_frame_loss : ((after (.frameLoss ⟨.a, .p⟩) (withLane .p fun r => { r with badRun := 8 })).links.get
    .a).activeLane = some .s := by decide +kernel
theorem test_witness_LightAppears : (scene.lane ⟨.b, .p⟩).light = false ∧ scene.hlm.tests.get .b = none ∧
    (scene.lane ⟨.b, .p⟩).state = .dark ∧
    ({ lane .ready (some 5#32) true with light := false } : LaneRec).state ≠ .dark := by decide +kernel
theorem test_witness_HoldoverExpiryTearsTheDeskDown : (scene.links.get .c).state = .holdover ∧
    (scene.links.get .c).holdoverDeadline = some 0#32 ∧ reached scene.now 0#32 = true ∧
    scene.hlm.tests.get .c = none := by decide +kernel
theorem linkC_ok : linkC.Ok := by
  refine ⟨by decide, fun side => ?_, ?_, by decide, by decide, fun side => ?_⟩
  · cases side <;> decide
  · exact ⟨fun h => absurd h (by decide), fun ⟨_, h, _⟩ => absurd h (by simp [linkC, Link.reset])⟩
  · cases side <;> decide
theorem test_witness_HoldoverExpiryTearsTheDeskDown_holds : (scene.links.get .c).Ok ∧
    scene.arb.claim 15 = .held .c .exclusive ∧ scene.arb.claim 16 = .contended 0#32 [(.c, .shared)] ∧
    scene.arb.claim 17 = .contended 0#32 [(.c, .shared), (.a, .exclusive)] ∧ scene.arb.claim 10 = .held .b .shared ∧
    (let t : TestRec := ⟨.s, 48000, 0, 0, 0, false, .suspended⟩
     (scene.setTest .c (some t)).hlm.tests.get .c = some t ∧ ((scene.setTest .c (some t)).links.get .c) = linkC) :=
  ⟨linkC_ok, by decide +kernel⟩
theorem test_witness_LaneSwitchMovesTheLink : Free .a scene ∧ Free .panel (lanes 0) ∧ Requester.a = Desk.a.req ∧
    (scene.links.get .a).state = .up ∧ (scene.links.get .a).activeLane = some .p ∧
    ((scene.links.get .a).lane .p).state = .active ∧ ((scene.links.get .a).lane .s).state = .ready ∧
    scene.hlm.tests.get .a = none ∧ Requester.a ≠ Desk.b.req ∧ (scene.links.get .b).state ≠ .up ∧
    (((lanes 0).links.get .a).lane .s).state ≠ .ready ∧ desk? 0 = none ∧ desk? 4 = none :=
  ⟨free_a, free_lanes, by decide +kernel⟩
theorem test_witness_LinkRestartBringsTheLinkDown : Free .panel scene ∧ scene.hlm.tests.get .a = none ∧
    (scene.links.get .a).state = .up ∧ (scene.links.get .b).state = .down ∧ (scene.links.get .c).state = .holdover :=
  ⟨free_panel, by decide +kernel⟩
theorem test_witness_LinkRestartBringsTheLinkDown_test : Free .panel scene ∧ scene.arb.claim 15 = .held .c .exclusive ∧
    scene.arb.claim 17 = .contended 0#32 [(.c, .shared), (.a, .exclusive)] ∧
    (let t : TestRec := ⟨.s, 48000, 0, 0, 0, false, .running⟩
     (scene.setTest .c (some t)).hlm.tests.get .c = some t) := ⟨free_panel, by decide +kernel⟩
theorem test_witness_ReturnBufferSlips : (List.replicate 14 Entry.zero).length < 15 ∧
    (List.replicate 15 Entry.zero).length = 15 ∧
    linkA.returnBuffer = Entry.zero :: Entry.zero :: List.replicate 6 Entry.zero ∧
    ({ linkA with returnBuffer := [Entry.zero] } : Link).returnBuffer = [Entry.zero] := by decide +kernel

/-- Link A one number behind: P has the frame due, S the same number. -/
def taking : Link :=
  upLink { lane .active (some 5#32) true with buffer := [upFrame (0#32 - 5#32)] }
    { lane .ready (some 5#32) true with buffer := [upFrame (0#32 - 5#32)] }

theorem test_witness_ReturnBufferSlips_takes :
    (taking.lane .p).held (0#32 - 5#32) = some (upFrame (0#32 - 5#32)) ∧ (taking.lane .p).held 3#32 = none ∧
    (linkA.lane .p).held (0#32 - 5#32) = none ∧ (taking.lane .s).held (0#32 - 5#32) ≠ none ∧
    (let k : Link := { taking with nextTake := some (0#32 - 5#32) }
     k.state = .up ∧ k.fresh = false ∧ k.activeLane = some .p ∧ (k.lane .p).latency = some 5#32 ∧
       k.nextTake = some (0#32 - 5#32) ∧ k.returnBuffer.length < 15) ∧
    (scene.links.get .b).state ≠ .up ∧ Link.reset.state ≠ .up ∧
    ({ taking with nextTake := some (0#32 - 5#32 + 1#32) } : Link).nextTake = some (0#32 - 5#32 + 1#32) ∧
    ({ taking with fresh := true } : Link).state = .up ∧
    ({ taking with returnBuffer := List.replicate 15 Entry.zero } : Link).nextTake = some 0#32 := by
  decide +kernel

/-- Link A having entered UP in this period on P, at latency 5, and moved to S, which leads by 2: it takes two numbers. -/
theorem test_takes_in_the_period_of_entry :
    (let k : Link := { upLink (lane .acquiring none false) (lane .active (some 3#32) true) with
        activeLane := some .s, nextTake := some (0#32 - 4#32), fresh := true }
     let t := (takeStep (scene.setLink .a k) .a).links.get .a
     t.nextTake = some (0#32 - 2#32) ∧ t.returnBuffer.length = 10 ∧ t.repeatedFrames = 2) := by decide +kernel
theorem test_rescue : (taking.take (0#32 - 5#32) ((upLink (lane .active (some 5#32) true) (taking.lane .s)).source
    .p true (0#32 - 5#32))).1.rescuedFrames = 1 := by decide +kernel
theorem test_witness_HealthVerdictAndClearHealth : Free .panel scene ∧ Free .a scene ∧
    (∃ c ∈ CounterName.all, (Install.defaults.thresholds.get c).fail ≤ (⟨1000, 0, 0, 0, 0⟩ : PerCounter Nat).get c) ∧
    (∃ c ∈ CounterName.all, (Install.defaults.thresholds.get c).warn ≤ (⟨999, 0, 0, 0, 0⟩ : PerCounter Nat).get c) ∧
    (∀ c ∈ CounterName.all, (⟨999, 0, 0, 0, 0⟩ : PerCounter Nat).get c < (Install.defaults.thresholds.get c).fail) ∧
    (∀ c ∈ CounterName.all, (⟨99, 3, 1, 3, 0⟩ : PerCounter Nat).get c < (Install.defaults.thresholds.get c).warn) ∧
    Requester.a ≠ (⟨.b, .p⟩ : LaneId).link.req := ⟨free_panel, free_a, by decide +kernel⟩

/-- Link A with the active lane one bad frame from FAILING, its partner READY and GOOD. -/
def failing : Hub := scene.setHealth ⟨.a, .p⟩ ⟨⟨999, 0, 0, 0, 0⟩, .worn, none⟩

theorem test_witness_HealthVerdictAndClearHealth_switch : (failing.lane ⟨.a, .p⟩).arrived = false ∧
    (failing.lane ⟨.a, .p⟩).latency = some 5#32 ∧ (failing.lane ⟨.a, .p⟩).state = .active ∧
    (failing.links.get .a).state = .up ∧ (failing.links.get .a).activeLane = some .p ∧ failing.hlm.tests.get .a = none ∧
    parseUp [] = none ∧ (failing.lane ⟨.a, .s⟩).state = .ready ∧ (laneGet failing.hlm.health ⟨.a, .s⟩).verdict = .good ∧
    (laneGet failing.hlm.health ⟨.a, .p⟩).verdict ≠ .failing ∧
    (∃ c ∈ CounterName.all, (failing.sto.install.thresholds.get c).fail ≤
      ((laneGet failing.hlm.health ⟨.a, .p⟩).counters.add ⟨1, 0, 0, 0, 0⟩).get c) := by decide +kernel
theorem test_planned_switch : ((after (.upstreamFrame ⟨.a, .p⟩ []) failing).links.get .a).activeLane = some .s := by
  decide +kernel

/-- The active lane's missing frame makes its verdict FAILING, so the link moves to S before S loses its light and comes
back to P on that. -/
theorem test_missing_frame_moves_the_link :
    (laneGet (after (.lightLoss ⟨.a, .s⟩) failing).hlm.health ⟨.a, .s⟩).capture =
      some ⟨.lightLoss, 0#32, .active⟩ ∧
    ((after (.lightLoss ⟨.a, .s⟩) failing).links.get .a).activeLane = some .p := by decide +kernel

def testRec (st : TestStatus) (n : Nat) : TestRec := ⟨.s, 48000, n, 1, 0, false, st⟩

theorem test_witness_LaneTestsStartAndEnd : Free .panel scene ∧ Free .panel (lanes 0) ∧
    scene.hlm.tests.get .a = none ∧ (scene.links.get .a).state = .up ∧ (scene.links.get .a).provisional = false ∧
    (scene.lane ⟨.a, .s⟩).state = .ready ∧ ((lanes 0).lane ⟨.a, .s⟩).state ≠ .ready ∧
    (scene.setTest .a (some (testRec .running 47999))).hlm.tests.get .a = some (testRec .running 47999) ∧
    (testRec .running 47999).framesDone < (testRec .running 47999).length ∧
    (testRec .running 48000).length ≤ (testRec .running 48000).framesDone ∧ (testRec .suspended 0).status = .suspended ∧
    ((testRec .passed 48000).status ≠ .running ∧ (testRec .passed 48000).status ≠ .suspended) :=
  ⟨free_panel, free_lanes, by decide +kernel⟩

/-- Link A with P ACTIVE, S TESTING and its test RUNNING. -/
def testing : Hub :=
  ((withLane .s fun r => { r with state := .testing, arrived := true }).setLane ⟨.a, .p⟩
    { scene.lane ⟨.a, .p⟩ with arrived := true }).setTest .a (some (testRec .running 0))

/-- The same with S QUALIFYING to its length, its test SUSPENDED. -/
def suspended : Hub :=
  (withLane .s fun r => { r with state := .qualifying, qualified := false, qualifyDue := true }).setTest .a
    (some (testRec .suspended 0))

theorem test_witness_LaneTestsStartAndEnd_faults : (testing.lane ⟨.a, .s⟩).light = true ∧
    (testing.lane ⟨.a, .s⟩).arrived = true ∧ (testing.lane ⟨.a, .s⟩).badRun < 8 ∧
    testing.hlm.tests.get .a = some (testRec .running 0) ∧ (testing.lane ⟨.a, .s⟩).state = .testing ∧
    (testing.links.get .a).activeLane ≠ some .s ∧ (testRec .running 0).lane = .s ∧
    (testing.lane ⟨.a, .p⟩).light = true ∧ (testing.lane ⟨.a, .p⟩).arrived = true ∧ (testing.lane ⟨.a, .p⟩).badRun < 8 ∧
    (testing.lane ⟨.a, .p⟩).state = .active ∧ (testing.links.get .a).state = .up ∧
    (testing.links.get .a).activeLane = some .p ∧ (testRec .running 0).framesDone < (testRec .running 0).length ∧
    (suspended.lane ⟨.a, .s⟩).state = .qualifying ∧ (suspended.lane ⟨.a, .s⟩).qualifyDue = true ∧
    suspended.hlm.tests.get .a = some (testRec .suspended 0) ∧ (suspended.links.get .a).state = .up ∧
    (suspended.lane ⟨.a, .p⟩).state = .active ∧ (suspended.lane ⟨.a, .p⟩).qualified = true := by decide +kernel
theorem test_witness_LaneTestsStartAndEnd_frame_loss :
    (let h := testing.setLane ⟨.a, .s⟩ { testing.lane ⟨.a, .s⟩ with badRun := 8 }
     (h.lane ⟨.a, .s⟩).latency ≠ none ∧ 8 ≤ (h.lane ⟨.a, .s⟩).badRun ∧ (h.lane ⟨.a, .s⟩).state = .testing ∧
       h.hlm.tests.get .a = some (testRec .running 0) ∧
       (after (.frameLoss ⟨.a, .s⟩) h).hlm.tests.get .a = some (testRec .failed 0)) ∧
    (let h := testing.setLane ⟨.a, .p⟩ { testing.lane ⟨.a, .p⟩ with badRun := 8 }
     (h.lane ⟨.a, .p⟩).latency ≠ none ∧ 8 ≤ (h.lane ⟨.a, .p⟩).badRun ∧ (h.lane ⟨.a, .p⟩).state = .active ∧
       (h.lane (otherLane ⟨.a, .p⟩)).arrived = true ∧ (h.lane (otherLane ⟨.a, .p⟩)).state = .testing ∧
       (after (.frameLoss ⟨.a, .p⟩) h).hlm.tests.get .a = some (testRec .suspended 0)) := by decide +kernel
theorem test_witness_LaneTestsStartAndEnd_turned_away : Free .panel scene ∧ Free .a scene ∧
    LaneId.num ⟨.b, .p⟩ = 3 ∧ Requester.a ≠ (⟨.b, .p⟩ : LaneId).link.req ∧ lane? 0 = none ∧ lane? 7 = none ∧
    desk? 0 = none ∧ desk? 4 = none := ⟨free_panel, free_a, by decide⟩
theorem test_witness_LaneTestsStartAndEnd_counting :
    (let h := testing.setLane ⟨.a, .s⟩ { testing.lane ⟨.a, .s⟩ with arrived := false }
     (h.lane ⟨.a, .s⟩).arrived = false ∧ (h.lane ⟨.a, .s⟩).latency = some 5#32 ∧ (h.lane ⟨.a, .s⟩).state = .testing ∧
       h.hlm.tests.get .a = some (testRec .running 0)) ∧
    (upFrame (testing.now - 5#32)).pattern = false ∧ parseUp [] = none := by decide +kernel
theorem test_witness_LaneTestsStartAndEnd_returns :
    (∀ h ∈ [withLane .s fun r => { r with state := .testing },
        { scene with links := ⟨{ linkC with lanes := ⟨lane .acquiring none false,
          lane .testing (some 5#32) true⟩ }, Link.reset, Link.reset⟩ }],
      (h.lane ⟨.a, .s⟩).arrived = false ∧ (h.lane ⟨.a, .s⟩).latency = some 5#32 ∧
        (h.lane ⟨.a, .s⟩).state = .testing ∧ h.hlm.testRunningOn ⟨.a, .s⟩ = false ∧
        (upFrame (h.now - 5#32)).pattern = false) ∧
    (scene.links.get .a).state ≠ .holdover ∧ linkC.state = .holdover := by decide +kernel
theorem test_suspension : (after (.lightLoss ⟨.a, .p⟩) testing).hlm.tests.get .a = some (testRec .suspended 0) := by
  decide +kernel
theorem test_resumption : ((after (.qualificationComplete ⟨.a, .s⟩) suspended).lane ⟨.a, .s⟩).state = .testing := by
  decide +kernel

/-! ## Witnesses: outputs and talk -/

theorem test_witness_SourceChoice : (∃ y, some (src 0) = some y ∧ (scene.links.get y.link).state = .up) ∧
    ¬(∃ y, some (⟨.b, 0⟩ : Source) = some y ∧ (scene.links.get y.link).state = .up) := by
  constructor
  · exact ⟨src 0, rfl, rfl⟩
  · rintro ⟨y, e, h⟩; cases e; exact absurd h (by decide)
theorem test_witness_RetargetTable : Output.reset.gap = 0 ∧ onFallback.gap ≠ 0 ∧ onFallback.named .none = none ∧
    onFallback.named .primary = some (src 0) ∧ onFallback.carried ≠ some (src 0) ∧
    onFallback.carried = onFallback.named .fallback ∧ (fading .gapOut .primary 1).pathState = .gapOut ∧
    (fading .gapIn .primary 0).pathState = .gapIn ∧
    (fading .silent .primary 0).named .primary = some (src 0) ∧ Output.reset.pathState = .unpatched := by decide
theorem test_witness_SetPatchTakesThePatch : Free .panel scene ∧
    patchFields? (some (1, 1)) (some (2, 32)) 1 15 = some ⟨some ⟨.a, 0⟩, some ⟨.b, 31⟩, .fallback, 15⟩ ∧
    patchFields? none none 0 0 = some ⟨none, none, .mute, 0⟩ ∧ scene.arb.permission .panel (Out.res 0) = .permitted :=
  ⟨free_panel, by decide +kernel⟩
theorem test_witness_OutputEnableSetsTheEnables : Free .panel scene ∧
    (∀ i : Out, i < 10 → scene.arb.permission .panel (Out.res i) = .permitted) ∧
    Tbl.get scene.sto.install.safeMember 0 = true ∧ ({ scene.mon with safe := true } : Mon).safe = true ∧
    scene.mon.safe = false := ⟨free_panel, by decide +kernel⟩
theorem test_witness_SafeLineMutes : scene.mon.safe = false ∧ ({ scene.mon with safe := true } : Mon).safe = true := by
  decide +kernel

/-- No link left: link A alone is UP, or in HOLDOVER at its deadline, or none is. -/
def lastLink (k : Link) : Hub := { scene with links := ⟨k, Link.reset, Link.reset⟩ }

theorem test_witness_SafeLineMutes_links : Install.defaults.allLinksLost = true ∧
    (∀ d ∈ Desk.all, ((lastLink Link.reset).links.get d).state = .down) ∧
    (Desk.all.all fun e => decide (e = .a ∨ ((lastLink linkC).links.get e).state = .down)) = true ∧
    ((lastLink linkC).links.get .a).state = .holdover ∧ ((lastLink linkC).links.get .a).holdoverDeadline = some 0#32 ∧
    reached (lastLink linkC).now 0#32 = true ∧ (scene.links.get .a).state ≠ .down ∧
    Tbl.get scene.sto.install.safeMember 0 = true := by decide +kernel
theorem test_all_links_lost : ((after (.linkRestart .panel 7 1) { lastLink linkA with mon := { scene.mon with
    outputs := Tbl.of fun i => { scene.mon.output i with enable := true } } }).mon.output 0).enable = false := by
  decide +kernel
theorem test_witness_FadesAndRevertsComplete_links :
    (onFallback.carried.any fun y => decide (y.link = .a)) = true ∧ onFallback.pathState ≠ .gapOut ∧
    (let o : Output := { fading .gapOut .fallback 0 with fallback := some ⟨.b, 1⟩ }
     o.pathState = .gapOut ∧ o.named .fallback = some ⟨.b, 1⟩ ∧
       (o.carried.any fun y => decide (y.link = .a)) = true ∧ (o.carried.any fun y => decide (y.link = .b)) = false ∧
       ((o.named .fallback).any fun y => decide (y.link = .b)) = true) ∧
    (onFallback.carried.any fun y => decide (y.link = .b)) = false ∧
    ({ Output.reset with primary := some (src 0), pathState := .silent } : Output).choice scene.linkUp ≠ .none ∧
    Output.reset.choice scene.linkUp = .none ∧ (fading .gapOut .none 1).gapTarget = some .none ∧
    onFallback.duck ≤ onFallback.duckTarget ∧ 1 ≤ onFallback.gap ∧ onFallback.gap ≤ 15 := by decide +kernel
theorem test_witness_FadesAndRevertsComplete :
    (scene.mon.output 1).fadeDone = true ∧ (scene.mon.output 1).pathState = .gapOut ∧
    (scene.mon.output 1).gapTarget = some .none ∧ (scene.mon.output 2).fadeDone = true ∧
    (scene.mon.output 2).pathState = .gapOut ∧ (scene.mon.output 2).gapTarget = some .primary ∧
    (scene.mon.output 2).named .primary = some (src 0) ∧ (scene.mon.output 3).fadeDone = true ∧
    (scene.mon.output 3).pathState = .gapIn ∧ (scene.mon.output 3).gapTarget = some .primary ∧
    (scene.mon.output 0).revertDeadline = some 0#32 ∧ reached scene.now 0#32 = true ∧
    (scene.mon.output 0).primary = some (src 0) ∧ (scene.mon.output 0).pathState = .onFallback ∧
    (scene.mon.output 0).carried ≠ some (src 0) ∧ 1 ≤ (scene.mon.output 0).gap := by decide +kernel

theorem test_witness_FadesAndRevertsComplete_reverts :
    (let o : Output := { onFallback with pathState := .gapIn, gapTarget := some .fallback, fade := 7 }
     o.revertDeadline = some 0#32 ∧ o.primary = some (src 0) ∧ o.carried ≠ some (src 0) ∧
       (∀ gap ∈ [0, 1], ({ o with gap := gap } : Output).gap = gap) ∧
       ((after (.revertExpiry 0) { scene with mon := { scene.mon with
         outputs := Tbl.set scene.mon.outputs 0 o } }).mon.output 0).fade = 7) ∧
    ({ onFallback with revertDeadline := none } : Output).startRevert 2#32 5 (fun _ => true) =
      { onFallback with revertDeadline := some 240002#32 } ∧
    Output.reset.startRevert 2#32 5 (fun _ => true) = Output.reset ∧ Output.reset.fadeStep = Output.reset := by
  decide +kernel

theorem scene_talk : scene.TalkOk := by
  refine ⟨?_, ?_, by decide +kernel, by decide +kernel, ?_⟩
  · intro d r h
    cases d
    · have e : r = talkA := by
        have : scene.tbk.records.get .a = some talkA := rfl
        rw [this] at h; exact (Option.some.inj h).symm
      subst e
      exact ⟨rfl, by decide +kernel⟩
    · exact absurd h (by intro x; cases x)
    · exact absurd h (by intro x; cases x)
  · intro o d; cases d <;> revert o <;> decide +kernel
  · intro d; cases d <;> decide +kernel

theorem test_witness_TalkOnTakesItsDestinations : Free Desk.a.req scene ∧ scene.TalkOk ∧
    Tbl.get (Tbl.set (BitSet.empty 32) 31 true) 31 = true ∧ (30 : Nat) ≤ 30 :=
  ⟨free_a, scene_talk, by decide, le_refl _⟩
/-- Desk B, its link UP, waits for the output on which desk A talks. -/
def waitB : TalkRec := { talkA with granted := BitSet.empty 32, pending := Tbl.set (BitSet.empty 32) 0 true, duck := 9 }

def waitingB : Hub :=
  { scene with
    links := ⟨linkA, linkA, linkC⟩
    tbk := { scene.tbk with records := ⟨some talkA, some waitB, none⟩, order := [.a, .b] } }

theorem waitingB_talk : waitingB.TalkOk := by
  refine ⟨?_, ?_, by decide +kernel, by decide +kernel, ?_⟩
  · intro d r h
    cases d
    · cases h; exact ⟨rfl, by decide +kernel⟩
    · cases h; exact ⟨rfl, by decide +kernel⟩
    · cases h
  · intro o d; cases d <;> revert o <;> decide +kernel
  · intro d; cases d <;> decide +kernel
theorem free_waitingB : Free Desk.a.req waitingB := by
  refine ⟨rfl, rfl, rfl, ?_⟩
  intro d h; cases d <;> first | rfl | cases h
theorem test_witness_TalkOnTakesItsDestinations_given_up : Free Desk.a.req waitingB ∧ waitingB.TalkOk ∧
    Tbl.get waitingB.tbk.grants 0 = some .a ∧ Tbl.get (Tbl.set (BitSet.empty 32) 31 true) 0 = false ∧
    (Desk.b ≠ Desk.a ∧ waitingB.tbk.records.get .b = some waitB ∧ Tbl.get waitB.pending 0 = true) ∧
    ((after (.talkOn .a 7 (Tbl.set (BitSet.empty 32) 31 true) 6) waitingB).mon.output 0).duckTarget =
      9 * Config.duckPerDb ∧
    ((after (.talkOn .a 7 (Tbl.set (BitSet.empty 32) 31 true) 6) waitingB).mon.output 0).talker = some .b ∧
    ((after (.talkOn .a 7 (Tbl.set (BitSet.empty 32) 31 true) 6) scene).mon.output 0).talker = none :=
  ⟨free_waitingB, waitingB_talk, by decide +kernel⟩
theorem test_witness_TalkEnds : scene.TalkOk ∧ Free Desk.a.req scene ∧ scene.tbk.records.get .a ≠ none ∧
    Free .panel scene ∧ scene.tbk.records.get .a = some talkA ∧ talkA.deadline = some 0#32 ∧
    reached scene.now 0#32 = true := by
  refine ⟨scene_talk, free_a, ?_, free_panel, rfl, rfl, by decide⟩
  intro h; cases h
theorem test_witness_TalkEnds_without_a_record :
    ({ scene.tbk with records := ⟨none, none, none⟩ } : Tbk).records.get .a = none := rfl
theorem test_witness_TalkEnds_waiting :
    (let q : TalkRec := { talkA with granted := BitSet.empty 32, pending := Tbl.set (BitSet.empty 32) 0 true }
     Desk.b ≠ Desk.a ∧ Tbl.get q.pending 0 = true ∧ Tbl.get scene.tbk.grants 0 = some .a) := by decide +kernel
theorem test_witness_TalkEnds_left :
    (let q : TalkRec := { talkA with granted := BitSet.empty 32, pending := Tbl.set (BitSet.empty 32) 0 true }
     let h : Hub := { scene with tbk := { scene.tbk with records := ⟨some talkA, some q, none⟩, order := [.a, .b] } }
     h.tbk.records.get .a = some talkA ∧ h.tbk.records.get .b = some q ∧
       ((after (.talkTimeout .a) h).tbk.records.get .b).map (fun r => Tbl.get r.granted 0) = some true) := by
  decide +kernel
theorem test_witness_StageTalkChanges : scene.tbk.pressed .st1 = false ∧ scene.tbk.pressed .st1 ≠ true := by decide

/-! ## Witnesses: reads, panel port, store, invariants -/

theorem test_witness_ReadsReportTheState : Free .a scene ∧ Free .panel scene ∧ resources? [1, 104] = some [0, 103] :=
  ⟨free_a, free_panel, by decide⟩

def txn : Txn := ⟨0x40#8, some ⟨0x11#8, 7#8, false, .done, []⟩, some ⟨.hubRestarted false, true⟩, true⟩

theorem test_witness_PanelTransactions : scene.pnl.notices.length ≤ 16 ∧
    (⟨0x11#8, 7#8, false, .done, []⟩ : Answer).bytes.length ≤ 64 ∧ 0 < (⟨0x11#8, 7#8, false, .done, []⟩ : Answer).bytes.length ∧
    (⟨.hubRestarted false, true⟩ : NoticeEntry).bytes.length ≤ 64 ∧
    0 < (⟨.hubRestarted false, true⟩ : NoticeEntry).bytes.length ∧ txn.noticeStands = true := by decide +kernel
theorem test_witness_PanelTransactions_irq : ({ Hub.reset.pnl with notices := [] } : Pnl).irq = false ∧
    (Hub.reset.pnl.place (.hubRestarted false)).irq = true := by decide +kernel
theorem test_witness_PanelTransactions_queue :
    (let h : Hub := { scene.setQueue .panel ⟨[⟨7#8, .readTalk⟩, ⟨8#8, .readTalk⟩], true, false⟩ with
        pnl := { scene.pnl with txn := some txn } }
     h.pnl.txn = some txn ∧ (h.req.queues.get .panel).items = ⟨7#8, .readTalk⟩ :: [⟨8#8, .readTalk⟩]) ∧
    txn.answer = some ⟨0x11#8, 7#8, false, .done, []⟩ ∧ txn.notice = some ⟨.hubRestarted false, true⟩ ∧
    ({ txn with answer := none, notice := none } : Txn).answer = none := by decide +kernel
theorem test_witness_WriteRequestHandsOnOrRejects : lengthOk (requestMessage 7 .readTalk) = true ∧
    parseMessage (requestMessage 7 .readTalk) = some ⟨7, .readTalk⟩ ∧ lengthOk [] = false ∧
    parseMessage (List.replicate 8 1#8) = none := by decide +kernel
theorem test_witness_HubRestartDropsRequestsAndTalk : Free .panel scene ∧
    (∀ d ∈ Desk.all, scene.hlm.tests.get d = none) ∧ scene.TalkOk ∧ Tbl.get scene.tbk.grants 0 = some .a ∧
    (scene.links.get .a).state = .up ∧ (scene.links.get .b).state ≠ .up :=
  ⟨free_panel, by decide +kernel, scene_talk, by decide +kernel⟩
theorem test_witness_WriteInstallTakesTheSettings : Free .panel scene ∧ Install.defaults.bytes.length = 44 ∧
    Install.ofBytes Install.defaults.bytes = some Install.defaults ∧ scene.sto.lock = false ∧ scene.sto.running = none ∧
    scene.sto.writeList = [] ∧ (List.replicate 44 0xFF#8).length = 44 ∧
    Install.ofBytes (List.replicate 44 0xFF#8) = none := ⟨free_panel, by decide +kernel⟩
theorem test_witness_WriteInstallTakesTheSettings_locked :
    Free .panel { scene with sto := { scene.sto with lock := true } } := free_panel
theorem test_witness_StoreWritesStart : Free .panel scene ∧ scene.sto.running = none ∧ scene.sto.writeList = [] ∧
    scene.sto.lock = false ∧ scene.sto.erasePrepared = false ∧ reached scene.now 0#32 = true :=
  ⟨free_panel, by decide +kernel⟩
theorem test_witness_StoreWritesStart_prepared :
    Free .panel { scene with sto := { scene.sto with erasePrepared := true, lock := true } } := free_panel

def running : RunningWrite := ⟨⟨.install, .lock, true⟩, .install ⟨Install.defaults, true⟩, 0#32⟩

theorem test_witness_StoreWriteEnds : ({ scene.sto with running := some running } : Sto).running = some running ∧
    scene.sto.writeList = [] ∧ reached scene.now running.faultDeadline = true ∧
    running.snapshot = .install ⟨Install.defaults, true⟩ ∧ running.entry.region = .install ∧
    (⟨.showData, .save, false⟩ : WriteEntry).waiting = false := by decide +kernel
theorem test_witness_StoreWriteEnds_in_time :
    (let w : RunningWrite := { running with faultDeadline := 4800#32 }
     reached scene.now w.faultDeadline = false ∧ w.entry.waiting = true ∧ scene.sto.awaited ≤ 1 ∧ scene.sto.installStatus ≠ .good ∧
       scene.pnl.notices.length < 16) ∧
    (let w : RunningWrite := ⟨⟨.showData, .save, true⟩, .showData ShowData.defaults, 4800#32⟩
     w.snapshot = .showData ShowData.defaults ∧ w.entry.region = .showData ∧ w.entry.kind = .save ∧
       ({ w with entry := ⟨.showData, .save, false⟩ } : RunningWrite).entry.waiting = false) ∧
    (let h := scene.setQueue .panel ⟨[⟨7#8, .saveNow⟩], true, false⟩
     (h.req.queues.get .panel).executing = true ∧ (h.req.queues.get .panel).items = ⟨7#8, .saveNow⟩ :: []) ∧
    ({ scene.sto with writeList := [⟨.showData, .save, false⟩] } : Sto).writeList = [⟨.showData, .save, false⟩] ∧
    scene.sto.running = none ∧ ({ scene.sto with showStatus := .good } : Sto).showStatus = .good := by decide +kernel

/-- The store with INSTALL's write running towards its deadline, and PANEL waiting on it. -/
def locking : Hub :=
  { scene.setQueue .panel ⟨[⟨7#8, .lockInstall⟩], true, false⟩ with
    sto := { scene.sto with running := some { running with faultDeadline := 4800#32 }, awaited := 1 } }

theorem test_completion : (after .storeWriteComplete locking).sto.lock = true ∧
    (after .storeWriteComplete locking).sto.awaited = 0 ∧
    (after .storeWriteComplete locking).pnl.answer = some ⟨0x1A#8, 7#8, false, .done, []⟩ := by decide +kernel
theorem test_late_completion : (after .storeWriteComplete { locking with now := 4800#32 }).pnl = locking.pnl ∧
    (after .storeWriteComplete { locking with now := 4800#32 }).sto.running = locking.sto.running := by decide +kernel
theorem test_witness_StoreWriteEnds_late : 1 < ({ scene.sto with awaited := 2 } : Sto).awaited ∧
    (Config.signalIsLate 0 = true ∨ Config.signalIsLate 0 = false) := by
  exact ⟨by decide, by cases Config.signalIsLate 0 <;> simp⟩
theorem test_witness_FramePeriodSendsTheFrames :
    (let p : DeskPort := { DeskPort.reset with notices := noticeList 2, answer := some ⟨⟨0x11#8, 7#8, false, .done, []⟩, 1⟩ }
     p.tx = none ∧ p.notices = ⟨.hubRestarted false, false⟩ :: noticeList 1 ∧
       (∀ x, p.answer = some x → x.ahead ≠ 0)) ∧
    (let p : DeskPort := { DeskPort.reset with
        tx := some ⟨[Cell.idle, Cell.idle], false⟩, answer := some ⟨⟨0x11#8, 7#8, false, .done, []⟩, 0⟩ }
     p.tx = some ⟨Cell.idle :: Cell.idle :: [], false⟩ ∧
       p.answer = some ⟨⟨0x11#8, 7#8, false, .done, []⟩, 0⟩ ∧ DeskPort.reset.answer = none ∧ DeskPort.reset.notices = []) := by
  refine ⟨⟨rfl, rfl, fun x h => ?_⟩, rfl, rfl, rfl, rfl⟩
  cases h; decide

/-! ## Witnesses: the invariants, in the scene -/

theorem scene_bounded : scene.Bounded := by
  refine ⟨?_, ?_, ?_, by decide, by decide, ?_, ?_, ?_, ?_, ⟨by decide +kernel, ?_⟩, by decide⟩
  · intro r; cases r <;> decide
  · intro d; cases d <;> decide
  · intro d a h; cases d <;> cases h
  · intro ⟨d, side⟩; cases d <;> cases side <;> decide
  · intro d t h; cases d <;> cases h
  · intro d; cases d <;> decide +kernel
  · intro ⟨d, side⟩; cases d <;> cases side <;>
      exact ⟨by decide, by decide, by decide, by decide, by decide, by decide, fun _ _ f h => absurd h (by
        simp [scene, linkA, linkC, upLink, lane, Hub.lane, Link.lane, PerDesk.get, PerSide.get, Link.reset,
          LaneRec.reset])⟩
  · intro who pc h; cases who <;> cases h

theorem test_witness_StepKeepsTheCapacities : scene.Bounded ∧ step ⟨[.safeReleased], scene⟩ = .next ⟨[], scene⟩ :=
  ⟨scene_bounded, rfl⟩

theorem test_witness_StepKeepsTheLinks : (∀ d : Desk, (scene.links.get d).Ok) ∧
    ∃ t, step ⟨[.lightLoss ⟨.a, .p⟩], scene⟩ = .next t := by
  refine ⟨fun d => ?_, _, rfl⟩
  cases d
  · refine ⟨by decide, fun side => by cases side <;> decide, ?_, by decide, by decide, fun side => by cases side <;> decide⟩
    exact ⟨fun h => absurd h (by decide), fun ⟨x, h, q⟩ => by cases x <;> revert h q <;> decide⟩
  · refine ⟨by decide, fun side => by cases side <;> decide, ?_, by decide, by decide, fun side => by cases side <;> decide⟩
    exact ⟨fun h => absurd h (by decide), fun ⟨x, h, q⟩ => by cases x <;> revert h q <;> decide⟩
  · exact linkC_ok

theorem test_witness_StepKeepsTheClaims : scene.ClaimsOk ∧ ∃ t, step ⟨[.windowExpiry], scene⟩ = .next t := by
  refine ⟨fun r => ?_, _, rfl⟩
  simp only [Arb.claim, scene, claims, Tbl.get_of]
  split_ifs
  all_goals simp [Claim.Ok]
  all_goals decide

theorem scene_gangs (g : Grp) : Tbl.get scene.pcu.gangs g = if g = 0 then some [6, 7] else none := by
  revert g; decide +kernel

theorem scene_gangsOk : scene.GangsOk := by
  refine ⟨⟨fun g ms h => ?_, fun g k ms ns hg hk _ _ _ => ?_⟩, fun c g => ?_, by decide +kernel, fun g ms h => ?_⟩
  · rw [scene_gangs] at h; split_ifs at h; cases h; decide
  · rw [scene_gangs] at hg hk; split_ifs at hg hk with x y; rw [x, y]
  · rw [scene_gangs]
    have e : ∀ c : Chan, ∀ g : Grp, (scene.pcu.channel c).gang = some g ↔ g = 0 ∧ c ∈ ([6, 7] : List Chan) := by
      decide +kernel
    rw [e]; split_ifs <;> simp_all
  · rw [scene_gangs] at h; split_ifs at h; cases h; decide +kernel

theorem scene_tracksOk : scene.TracksOk := by
  intro d c
  have e : scene.pcu.track d c = ⟨true, 0, some 40, false⟩ ∧ (scene.pcu.channel c).effectiveGain = 40 := by
    cases d <;> revert c <;> decide +kernel
  rw [e.1, e.2]
  exact ⟨by decide, by decide, by decide, by decide, fun r h => by cases h; decide⟩

theorem scene_showOk : scene.sto.ShowOk := by
  refine ⟨⟨⟨fun g ms h => ?_, fun g k ms ns h => ?_⟩, ?_⟩, fun w data h => by cases h⟩
  · revert h; revert g; simp [scene, Hub.reset, ShowData.defaults, Tbl.get]
  · revert h; revert g; simp [scene, Hub.reset, ShowData.defaults, Tbl.get]
  · intro d; cases d <;> decide +kernel

theorem scene_phantomOk : scene.PhantomOk := ⟨by decide +kernel, by decide +kernel, by decide +kernel⟩

theorem test_witness_StepKeepsThePhantomQueue : scene.PhantomOk ∧ scene.GangsOk ∧ scene.TracksOk ∧ scene.sto.ShowOk ∧
    ∃ t, step ⟨[.chargeExpiry 2], scene⟩ = .next t :=
  ⟨scene_phantomOk, scene_gangsOk, scene_tracksOk, scene_showOk, _, rfl⟩

theorem test_witness_StepKeepsTheOutputs : scene.OutputsOk ∧ ∃ t, step ⟨[.fadeComplete 2], scene⟩ = .next t := by
  refine ⟨fun i => ?_, _, rfl⟩
  have e : ∀ i : Out, scene.mon.output i =
      if i = 0 then { onFallback with talker := some .a, duckTarget := 6 * Config.duckPerDb }
      else if i = 1 then fading .gapOut .none 1 else if i = 2 then fading .gapOut .primary 1
      else if i = 3 then fading .gapIn .primary 0 else Output.reset := fun i => by simp [scene]
  rw [e]
  split_ifs
  all_goals first
    | exact ⟨⟨by decide, by decide, by decide, by decide, by decide, by decide⟩, by decide⟩
    | exact ⟨⟨by decide, by decide, by decide⟩, by decide⟩

theorem test_witness_StepKeepsTheTalkGrants : scene.TalkOk ∧ ∃ t, step ⟨[.talkTimeout .a], scene⟩ = .next t :=
  ⟨scene_talk, _, rfl⟩

end Sys2Proof.Tests
end

/-!
What the invariants of the preamps speak of, and the operations that leave it alone: every operation of the claims, the
outputs, talkback, the links, their health and the panel port changes no channel, gang, tracking entry or SHOW region.
-/
section
namespace Sys2Proof.Machine

/-- The time, the records of the preamps (chapters 1 and 2), the stored SHOW settings, and the write that runs (R181). -/
structure Preamp where
  now : Frame
  channels : Vector Channel 72
  gangs : Vector (Option (List Chan)) 12
  phantomQueue : List Chan
  tracking : PerDesk (Vector Track 72)
  showRegion : Region ShowData
  running : Option RunningWrite

/-- The preamps of the part. -/
def Hub.preamp (h : Hub) : Preamp where
  now := h.now
  channels := h.pcu.channels
  gangs := h.pcu.gangs
  phantomQueue := h.pcu.phantomQueue
  tracking := h.pcu.tracking
  showRegion := h.sto.showRegion
  running := h.sto.running

/-- What changes REQ and PNL alone leaves the preamps. -/
theorem Hub.preamp_of_core {h k : Hub} (e : h.core = k.core) : h.preamp = k.preamp := by
  obtain ⟨time, hp, -, -, -, -, -, hs, -⟩ := Hub.core_eq e
  unfold Hub.preamp
  rw [time, hp, hs]

/-! ## Updates of the part, notices and answers -/

/-- The blocks other than PCU and STO are no part of the preamps. -/
@[simp] theorem Hub.preamp_with (h : Hub) (arb : Arb) (links : PerDesk Link) (hlm : Hlm) (mon : Mon)
    (tbk : Tbk) (req : Req) (pnl : Pnl) (down : PerDesk DownFrame) :
    Hub.preamp ⟨h.now, h.pcu, arb, links, hlm, mon, tbk, req, pnl, h.sto, down⟩ = h.preamp := rfl

/-- Of STO they hold the SHOW region and the write that runs. -/
theorem Hub.preamp_sto (h : Hub) (x : Sto) (region : x.showRegion = h.sto.showRegion)
    (running : x.running = h.sto.running) : Hub.preamp { h with sto := x } = h.preamp := by
  simp [Hub.preamp, region, running]

@[simp] theorem Hub.preamp_setDesk (h : Hub) (d : Desk) (p : DeskPort) : (h.setDesk d p).preamp = h.preamp := rfl
@[simp] theorem Hub.preamp_setQueue (h : Hub) (r : Requester) (q : ReqQueue) : (h.setQueue r q).preamp = h.preamp := rfl
@[simp] theorem Hub.preamp_setLink (h : Hub) (d : Desk) (k : Link) : (h.setLink d k).preamp = h.preamp := rfl
@[simp] theorem Hub.preamp_setLane (h : Hub) (l : LaneId) (r : LaneRec) : (h.setLane l r).preamp = h.preamp := rfl
@[simp] theorem Hub.preamp_setHealth (h : Hub) (l : LaneId) (x : Health) : (h.setHealth l x).preamp = h.preamp := rfl
@[simp] theorem Hub.preamp_setTest (h : Hub) (d : Desk) (t : Option TestRec) : (h.setTest d t).preamp = h.preamp := rfl

@[simp] theorem notifyDesk_preamp (d : Desk) (n : Notice) (h : Hub) : (notifyDesk d n h).preamp = h.preamp :=
  Hub.preamp_of_core (notifyDesk_core ..)
@[simp] theorem notifyPanel_preamp (n : Notice) (h : Hub) : (notifyPanel n h).preamp = h.preamp := rfl
@[simp] theorem notifyDeskPanel_preamp (d : Desk) (n : Notice) (h : Hub) : (notifyDeskPanel d n h).preamp = h.preamp :=
  Hub.preamp_of_core (notifyDeskPanel_core ..)
@[simp] theorem notifyAll_preamp (n : Notice) (h : Hub) : (notifyAll n h).preamp = h.preamp :=
  Hub.preamp_of_core (notifyAll_core ..)
@[simp] theorem notifyEach_preamp (ns : List Notice) (h : Hub) : (notifyEach ns h).preamp = h.preamp :=
  Hub.preamp_of_core (notifyEach_core ..)
@[simp] theorem notifyRequester_preamp (r : Requester) (n : Notice) (h : Hub) :
    (notifyRequester r n h).preamp = h.preamp :=
  Hub.preamp_of_core (notifyRequester_core ..)
@[simp] theorem notifyLimits_preamp (ls : List (Desk × Notice)) (h : Hub) : (notifyLimits ls h).preamp = h.preamp :=
  Hub.preamp_of_core (notifyLimits_core ..)
@[simp] theorem answerTo_preamp (who : Requester) (code : Code) (body : List Byte) (h : Hub) :
    (answerTo who code body h).preamp = h.preamp :=
  Hub.preamp_of_core (answerTo_core ..)
@[simp] theorem showReport_preamp (h : Hub) : (showReport h).preamp = h.preamp := rfl
@[simp] theorem showReportIf_preamp (b : Bool) (h : Hub) : (showReportIf b h).preamp = h.preamp := by
  cases b <;> rfl

/-- A sequence of operations each of which leaves the preamps leaves them. -/
theorem foldl_preamp {α : Type} {f : Hub → α → Hub} (keeps : ∀ h x, (f h x).preamp = h.preamp) (l : List α) (h : Hub) :
    (l.foldl f h).preamp = h.preamp := by
  induction l generalizing h with
  | nil => rfl
  | cons x l ih => rw [List.foldl_cons, ih, keeps]

/-! ## Claims (chapter 3) -/

@[simp] theorem commitClaims_preamp (x : Arb) (h : Hub) : (commitClaims x h).preamp = h.preamp := by
  simp [commitClaims]

@[simp] theorem answerClaims_preamp (h : Hub) : (answerClaims h).preamp = h.preamp := by
  refine foldl_preamp (fun h who => ?_) _ h
  unfold answerClaim
  split
  · rfl
  · split
    · rw [answerTo_preamp]; rfl
    · rfl

@[simp] theorem arbClaim_preamp (who : Requester) (rs : List Nat) (l : Nat) (h : Hub) :
    (arbClaim who rs l h).preamp = h.preamp := by
  unfold arbClaim; dsimp only; split <;> (try split) <;> simp

@[simp] theorem arbRelease_preamp (who : Requester) (rs : List Nat) (h : Hub) :
    (arbRelease who rs h).preamp = h.preamp := by
  unfold arbRelease; dsimp only; split <;> (try split) <;> simp

@[simp] theorem arbOverride_preamp (who : Requester) (rs : List Nat) (h : Hub) :
    (arbOverride who rs h).preamp = h.preamp := by
  have lost (lost : List (Requester × Res)) (h : Hub) :
      (Requester.all.foldl (claimLostTo who lost) h).preamp = h.preamp := by
    refine foldl_preamp (fun h f => ?_) _ h
    unfold claimLostTo; dsimp only; split <;> simp
  unfold arbOverride
  split
  · simp
  · split
    · simp
    · split <;> simp [lost]

@[simp] theorem arbFreeze_preamp (who : Requester) (h : Hub) : (arbFreeze who h).preamp = h.preamp := by
  unfold arbFreeze; dsimp only; split <;> (try split) <;> simp

@[simp] theorem arbReadClaims_preamp (who : Requester) (rs : List Nat) (h : Hub) :
    (arbReadClaims who rs h).preamp = h.preamp := by
  unfold arbReadClaims; split <;> simp

@[simp] theorem windowExpiry_preamp (h : Hub) : (windowExpiry h).preamp = h.preamp := by simp [windowExpiry]
@[simp] theorem graceExpiry_preamp (d : Desk) (h : Hub) : (graceExpiry d h).preamp = h.preamp := by simp [graceExpiry]
@[simp] theorem arbDown_preamp (d : Desk) (h : Hub) : (arbDown d h).preamp = h.preamp := by simp [arbDown]
@[simp] theorem arbUp_preamp (d : Desk) (h : Hub) : (arbUp d h).preamp = h.preamp := by
  simp [arbUp]

/-! ## Outputs (chapter 6) -/

@[simp] theorem commitMon_preamp (b : Bool) (o : Vector Output 32) (h : Hub) : (commitMon b o h).preamp = h.preamp := by
  simp [commitMon]

@[simp] theorem safeMute_preamp (cause : SafeCause) (h : Hub) : (safeMute cause h).preamp = h.preamp := by
  simp [safeMute]

@[simp] theorem safeAsserted_preamp (h : Hub) : (safeAsserted h).preamp = h.preamp := by
  unfold safeAsserted
  split
  · rfl
  · simp

@[simp] theorem safeReleased_preamp (h : Hub) : (safeReleased h).preamp = h.preamp := by
  unfold safeReleased
  split
  · simp
  · rfl

@[simp] theorem monUp_preamp (h : Hub) : (monUp h).preamp = h.preamp := by simp [monUp]
@[simp] theorem monDown_preamp (h : Hub) : (monDown h).preamp = h.preamp := by unfold monDown; split <;> simp
@[simp] theorem monLeavesUp_preamp (d : Desk) (h : Hub) : (monLeavesUp d h).preamp = h.preamp := by
  unfold monLeavesUp; dsimp only; split <;> simp

@[simp] theorem fadeComplete_preamp (i : Out) (h : Hub) : (fadeComplete i h).preamp = h.preamp := by
  unfold fadeComplete; split <;> simp
@[simp] theorem revertExpiry_preamp (i : Out) (h : Hub) : (revertExpiry i h).preamp = h.preamp := by
  unfold revertExpiry; dsimp only; split <;> simp

@[simp] theorem monSetPatch_preamp (who : Requester) (out : Nat) (p f : Option (Nat × Nat)) (fa gap : Nat) (h : Hub) :
    (monSetPatch who out p f fa gap h).preamp = h.preamp := by
  unfold monSetPatch; dsimp only; split <;> (try split) <;> simp

@[simp] theorem monOutputEnable_preamp (who : Requester) (set : BitSet 32) (value : Nat) (h : Hub) :
    (monOutputEnable who set value h).preamp = h.preamp := by
  unfold monOutputEnable; dsimp only; split <;> (repeat' split) <;> simp

@[simp] theorem monReadOutput_preamp (who : Requester) (out : Nat) (h : Hub) :
    (monReadOutput who out h).preamp = h.preamp := by
  unfold monReadOutput; split <;> simp

/-! ## Talkback (chapter 7) -/

@[simp] theorem handTalk_preamp (t : Tbk) (h : Hub) : (handTalk t h).preamp = h.preamp := by simp [handTalk]
@[simp] theorem notifyTalk_preamp (t : Tbk) (cause : Desk → Option TalkCause) (h : Hub) :
    (notifyTalk t cause h).preamp = h.preamp := by simp [notifyTalk]
@[simp] theorem endTalk_preamp (d : Desk) (cause : TalkCause) (h : Hub) : (endTalk d cause h).preamp = h.preamp := by
  unfold endTalk; split <;> simp
@[simp] theorem talkTimeout_preamp (d : Desk) (h : Hub) : (talkTimeout d h).preamp = h.preamp := by
  unfold talkTimeout; split <;> (try split) <;> simp
@[simp] theorem tbkRestart_preamp (h : Hub) : (tbkRestart h).preamp = h.preamp := by simp [tbkRestart]

@[simp] theorem tbkTalkOn_preamp (who : Requester) (set : BitSet 32) (duck : Nat) (h : Hub) :
    (tbkTalkOn who set duck h).preamp = h.preamp := by
  unfold tbkTalkOn carryTalkOn; dsimp only; split <;> (repeat' split) <;> simp
@[simp] theorem tbkTalkOff_preamp (who : Requester) (h : Hub) : (tbkTalkOff who h).preamp = h.preamp := by
  unfold tbkTalkOff; split <;> simp
@[simp] theorem tbkReadTalk_preamp (who : Requester) (h : Hub) : (tbkReadTalk who h).preamp = h.preamp := by
  simp [tbkReadTalk]

@[simp] theorem stageChange_preamp (i : StageIn) (b : Bool) (h : Hub) : (stageChange i b h).preamp = h.preamp := by
  unfold stageChange
  split
  · rfl
  · dsimp only
    rw [notifyPanel_preamp, foldl_preamp]
    · simp
    · intro h d; split <;> simp

/-! ## Links and health (chapters 4 and 5) -/

@[simp] theorem tellLane_preamp (l : LaneId) (h : Hub) : (tellLane l h).preamp = h.preamp := by simp [tellLane]
@[simp] theorem tellLaneChange_preamp (b : Hub) (l : LaneId) (h : Hub) : (tellLaneChange b l h).preamp = h.preamp := by
  unfold tellLaneChange; split <;> simp
@[simp] theorem tellLinkChange_preamp (b : Link) (d : Desk) (h : Hub) : (tellLinkChange b d h).preamp = h.preamp := by
  unfold tellLinkChange; dsimp only; split <;> simp
@[simp] theorem tellTest_preamp (d : Desk) (h : Hub) : (tellTest d h).preamp = h.preamp := by
  unfold tellTest; split <;> simp
@[simp] theorem setTestStatus_preamp (d : Desk) (t : TestRec) (st : TestStatus) (h : Hub) :
    (setTestStatus d t st h).preamp = h.preamp := by simp [setTestStatus]
@[simp] theorem testComplete_preamp (d : Desk) (h : Hub) : (testComplete d h).preamp = h.preamp := by
  unfold testComplete; split <;> (try split) <;> simp
@[simp] theorem hlmDown_preamp (d : Desk) (h : Hub) : (hlmDown d h).preamp = h.preamp := by
  unfold hlmDown; split <;> (try split) <;> simp
@[simp] theorem hlmUp_preamp (d : Desk) (h : Hub) : (hlmUp d h).preamp = h.preamp := rfl
@[simp] theorem hlmRestart_preamp (h : Hub) : (hlmRestart h).preamp = h.preamp := by
  simp only [hlmRestart, Hub.preamp_with]
  exact foldl_preamp (fun h d => testComplete_preamp d h) Desk.all h
@[simp] theorem reqLeavesUp_preamp (d : Desk) (h : Hub) : (reqLeavesUp d h).preamp = h.preamp := rfl
@[simp] theorem reqDown_preamp (d : Desk) (h : Hub) : (reqDown d h).preamp = h.preamp := rfl
@[simp] theorem tbkLeavesUp_preamp (d : Desk) (h : Hub) : (tbkLeavesUp d h).preamp = h.preamp := by simp [tbkLeavesUp]
@[simp] theorem linkEvent_preamp (before : LinkState) (d : Desk) (h : Hub) : (linkEvent before d h).preamp = h.preamp := by
  unfold linkEvent; split <;> simp

@[simp] theorem settleLink_preamp (before : Hub) (d : Desk) (first : Side) (h : Hub) :
    (settleLink before d first h).preamp = h.preamp := by
  have resumed : ((resumeTest d h).getD h).preamp = h.preamp := by
    unfold resumeTest; split
    · rfl
    · split <;> simp
  unfold settleLink; dsimp only; split <;> simp [resumed]

@[simp] theorem switchLink_preamp (d : Desk) (old : Side) (h : Hub) : (switchLink d old h).preamp = h.preamp := by
  simp [switchLink]
@[simp] theorem setVerdict_preamp (l : LaneId) (v : Verdict) (h : Hub) : (setVerdict l v h).preamp = h.preamp := by
  unfold setVerdict plannedSwitch; dsimp only; split <;> (try split) <;> simp
@[simp] theorem computeVerdict_preamp (l : LaneId) (h : Hub) : (computeVerdict l h).preamp = h.preamp := by
  simp [computeVerdict]
@[simp] theorem computeVerdicts_preamp (h : Hub) : (computeVerdicts h).preamp = h.preamp :=
  foldl_preamp (fun h l => computeVerdict_preamp l h) _ h
@[simp] theorem countHealth_preamp (l : LaneId) (n : PerCounter Nat) (h : Hub) : (countHealth l n h).preamp = h.preamp := by
  simp [countHealth]
@[simp] theorem countSlip_preamp (d : Desk) (h : Hub) : (countSlip d h).preamp = h.preamp := by
  unfold countSlip; split <;> simp
@[simp] theorem hlmResult_preamp (l : LaneId) (f : Option UpFrame) (h : Hub) : (hlmResult l f h).preamp = h.preamp := by
  unfold hlmResult; dsimp only; split <;> (try split) <;> simp
@[simp] theorem testingReturns_preamp (l : LaneId) (f : UpFrame) (h : Hub) : (testingReturns l f h).preamp = h.preamp := by
  unfold testingReturns; dsimp only; split <;> (try split) <;> simp
@[simp] theorem receive_preamp (l : LaneId) (f : Option UpFrame) (h : Hub) : (receive l f h).preamp = h.preamp := by
  unfold receive goodResult badResult; dsimp only; split <;> (repeat' split) <;> simp
@[simp] theorem upstreamFrame_preamp (l : LaneId) (bytes : List Byte) (h : Hub) :
    (upstreamFrame l bytes h).preamp = h.preamp := by
  unfold upstreamFrame; split <;> simp
@[simp] theorem missingFrame_preamp (l : LaneId) (h : Hub) : (missingFrame l h).preamp = h.preamp := by
  unfold missingFrame; split <;> simp
@[simp] theorem recordLink_preamp (d : Desk) (h : Hub) : (recordLink d h).preamp = h.preamp := by simp [recordLink]
@[simp] theorem acquisitionComplete_preamp (l : LaneId) (h : Hub) : (acquisitionComplete l h).preamp = h.preamp := by
  unfold acquisitionComplete; dsimp only; split <;> (repeat' split) <;> simp
@[simp] theorem qualificationComplete_preamp (l : LaneId) (h : Hub) : (qualificationComplete l h).preamp = h.preamp := by
  unfold qualificationComplete; dsimp only; split <;> (try split) <;> simp
@[simp] theorem hlmFault_preamp (l : LaneId) (cause : FaultCause) (prior : LaneState) (a : Bool) (h : Hub) :
    (hlmFault l cause prior a h).preamp = h.preamp := by
  unfold hlmFault faultTest suspendTest writeCapture; split <;> (repeat' split) <;> simp
@[simp] theorem recordTested_preamp (l : LaneId) (h : Hub) : (recordTested l h).preamp = h.preamp := by
  unfold recordTested; split <;> simp
@[simp] theorem laneFault_preamp (l : LaneId) (cause : FaultCause) (st : LaneState) (h : Hub) :
    (laneFault l cause st h).preamp = h.preamp := by
  unfold laneFault; dsimp only; split <;> simp
@[simp] theorem frameLoss_preamp (l : LaneId) (h : Hub) : (frameLoss l h).preamp = h.preamp := by
  unfold frameLoss; split <;> simp
@[simp] theorem lightAppears_preamp (l : LaneId) (h : Hub) : (lightAppears l h).preamp = h.preamp := by
  unfold lightAppears setLight; dsimp only; split <;> (try split) <;> simp
@[simp] theorem lightLoss_preamp (l : LaneId) (h : Hub) : (lightLoss l h).preamp = h.preamp := by
  unfold lightLoss setLight; dsimp only; split <;> (try split) <;> simp
@[simp] theorem holdoverExpiry_preamp (d : Desk) (h : Hub) : (holdoverExpiry d h).preamp = h.preamp := by
  unfold holdoverExpiry; dsimp only; split <;> simp
@[simp] theorem lnkLaneSwitch_preamp (who : Requester) (link : Nat) (h : Hub) :
    (lnkLaneSwitch who link h).preamp = h.preamp := by
  unfold lnkLaneSwitch; split <;> (repeat' split) <;> simp
@[simp] theorem lnkLinkRestart_preamp (who : Requester) (link : Nat) (h : Hub) :
    (lnkLinkRestart who link h).preamp = h.preamp := by
  unfold lnkLinkRestart; split <;> simp
@[simp] theorem lnkReadLink_preamp (who : Requester) (link : Nat) (h : Hub) :
    (lnkReadLink who link h).preamp = h.preamp := by
  unfold lnkReadLink; split <;> simp
@[simp] theorem hlmClearHealth_preamp (who : Requester) (lane : Nat) (h : Hub) :
    (hlmClearHealth who lane h).preamp = h.preamp := by
  unfold hlmClearHealth; split <;> (try split) <;> simp
@[simp] theorem hlmReadHealth_preamp (who : Requester) (link : Nat) (h : Hub) :
    (hlmReadHealth who link h).preamp = h.preamp := by
  unfold hlmReadHealth; split <;> simp
@[simp] theorem hlmLaneTest_preamp (who : Requester) (lane seconds : Nat) (h : Hub) :
    (hlmLaneTest who lane seconds h).preamp = h.preamp := by
  unfold hlmLaneTest; dsimp only; split <;> (repeat' split) <;> simp
@[simp] theorem hlmLaneTestStop_preamp (who : Requester) (link : Nat) (h : Hub) :
    (hlmLaneTestStop who link h).preamp = h.preamp := by
  unfold hlmLaneTestStop; dsimp only; split <;> (repeat' split) <;> simp

/-! ## Requests in execution (chapter 8) -/

@[simp] theorem clearPrepare_preamp (who : Requester) (c : Call) (h : Hub) : (clearPrepare who c h).preamp = h.preamp := by
  unfold clearPrepare
  split
  · exact Hub.preamp_sto h _ rfl rfl
  · rfl
@[simp] theorem arrivalHold_preamp (who : Requester) (n : Nat) (h : Hub) : (arrivalHold who n h).preamp = h.preamp := by
  unfold arrivalHold; split <;> simp

/-! ## The panel port and the frames (chapter 9, R65, R76) -/

@[simp] theorem hubRestart_preamp (who : Requester) (h : Hub) : (hubRestart who h).preamp = h.preamp := by
  simp [hubRestart]
@[simp] theorem pnlReadNotices_preamp (who : Requester) (flush : Nat) (h : Hub) :
    (pnlReadNotices who flush h).preamp = h.preamp := by
  unfold pnlReadNotices
  split
  · simp
  · simp
@[simp] theorem transactionStart_preamp (h : Hub) : (transactionStart h).preamp = h.preamp := rfl
@[simp] theorem closeTxn_preamp (t : Txn) (out : List Byte) (h : Hub) : (closeTxn t out h).preamp = h.preamp := rfl
@[simp] theorem statusPoll_preamp (clocked : Nat) (h : Hub) : (statusPoll clocked h).preamp = h.preamp := rfl
@[simp] theorem setRejected_preamp (b : Bool) (h : Hub) : (setRejected b h).preamp = h.preamp := rfl
@[simp] theorem readNotice_preamp (clocked : Nat) (h : Hub) : (readNotice clocked h).preamp = h.preamp := by
  unfold readNotice; dsimp only; split
  · rfl
  · split <;> rfl
@[simp] theorem deliverStep_preamp (h : Hub) (d : Desk) : (deliverStep h d).preamp = h.preamp := by
  unfold deliverStep; dsimp only; split <;> (try split) <;> simp
@[simp] theorem outputSamples_preamp (h : Hub) : (outputSamples h).preamp = h.preamp := by
  simp [outputSamples]
@[simp] theorem sendFrames_preamp (ports : PortSamples) (h : Hub) : (sendFrames ports h).preamp = h.preamp := by
  unfold sendFrames
  exact foldl_preamp (fun h d => by simp [sendFrame, Hub.setDesk]) Desk.all h
@[simp] theorem tellBadRegion_preamp (r : RegionName) (h : Hub) : (tellBadRegion r h).preamp = h.preamp := by
  unfold tellBadRegion; split <;> simp
@[simp] theorem lightAtPowerOn_preamp (pins : Pins) (h : Hub) : (lightAtPowerOn pins h).preamp = h.preamp := by
  refine foldl_preamp (fun h l => ?_) _ h
  split <;> simp

/-! ## The settings store (chapter 9) -/

@[simp] theorem installChanged_preamp (h : Hub) : (installChanged h).preamp = h.preamp := by simp [installChanged]
@[simp] theorem setStatus_preamp (r : RegionName) (st : RegionStatus) (cause : StoreCause) (h : Hub) :
    (setStatus r st cause h).preamp = h.preamp := by
  unfold setStatus; rw [notifyAll_preamp]; cases r <;> rfl
@[simp] theorem answerWaiting_preamp (e : WriteEntry) (code : Code) (h : Hub) :
    (answerWaiting e code h).preamp = h.preamp := by
  unfold answerWaiting; split <;> simp
@[simp] theorem finishEntry_preamp (k : WriteKind) (h : Hub) : (finishEntry k h).preamp = h.preamp := by
  cases k with
  | save | lock => rfl
  | erase => exact installChanged_preamp _

/-! ## Reads of the preamps (R21, R22) -/

@[simp] theorem pcuReadInput_preamp (who : Requester) (ch : Nat) (h : Hub) : (pcuReadInput who ch h).preamp = h.preamp := by
  unfold pcuReadInput; split <;> simp
@[simp] theorem pcuReadGang_preamp (who : Requester) (g : Option Nat) (h : Hub) :
    (pcuReadGang who g h).preamp = h.preamp := by
  unfold pcuReadGang; split <;> (try split) <;> simp

end Sys2Proof.Machine
end

section
namespace Sys2Proof.Machine
/-! ## What a check that passed says -/

theorem distinct_iff {α : Type} [DecidableEq α] (l : List α) : distinct l = true ↔ l.Nodup := by
  induction l with
  | nil => simp [distinct]
  | cons x l ih => simp [distinct, ih]

/-- The items of a list that is in range, one for one. -/
theorem all?_some {α β : Type} {f : α → Option β} {l : List α} {ys : List β} (e : all? f l = some ys) :
    l.map f = ys.map some := by
  induction l generalizing ys with
  | nil => simp_all [all?]
  | cons x l ih =>
    simp only [all?] at e
    split at e
    · next y zs hy hzs =>
      cases e
      simp [hy, ih hzs]
    · cases e

theorem chan?_inj {m n : Nat} {c : Chan} (hm : chan? m = some c) (hn : chan? n = some c) : m = n := by
  simp only [chan?] at hm hn
  split at hm <;> split at hn <;> simp_all
  have := congrArg Fin.val (hm.trans hn.symm)
  simp at this
  omega

/-- The list of a SET_GANG that passed its range check (R20). -/
theorem members?_some {ns : List Nat} {ms : List Chan} (e : members? ns = some ms) :
    (ms.length = 0 ∨ (2 ≤ ms.length ∧ ms.length ≤ 8)) ∧ ms.Nodup := by
  unfold members? at e
  split at e
  · next c =>
    obtain ⟨size, apart⟩ := c
    have items := all?_some e
    have len : ns.length = ms.length := by simpa using congrArg List.length items
    refine ⟨by rwa [len] at size, ?_⟩
    have nodup : (ms.map some).Nodup := by
      rw [← items]
      refine List.Nodup.map_on (fun m hm n hn eq => ?_) ((distinct_iff ns).1 apart)
      have : chan? m ∈ ms.map some := items ▸ List.mem_map_of_mem hm
      obtain ⟨c, -, hc⟩ := List.mem_map.1 this
      exact chan?_inj hc.symm (eq ▸ hc.symm)
    exact nodup.of_map
  · cases e

theorem trim?_some {x t : Int} (e : trim? x = some t) : -48 ≤ t ∧ t ≤ 48 := by
  unfold trim? at e
  split at e
  · cases e; assumption
  · cases e

theorem Pcu.phantomDue_state {p : Pcu} {now : Frame} {c : Chan} {st : PhantomState} (d : p.phantomDue now c st = true) :
    (p.channel c).phantomState = st := by
  simp only [Pcu.phantomDue, Bool.and_eq_true, decide_eq_true_eq] at d
  exact d.1

/-! ## Tracking entries (R26, R27) -/

/-- The trim and mark of R27, in one line: the distance limited to -24.0 to +24.0 dB. -/
theorem Track.derive_reference {eff r : Int} {t : Track} (e : t.reference = some r) :
    t.derive eff = ⟨t.tracking, max (-48) (min 48 (r - eff)), some r, decide (r - eff < -48 ∨ 48 < r - eff)⟩ := by
  unfold Track.derive
  simp only [e]
  split
  · next h => simp [h]; omega
  · split
    · next h => simp [h]; omega
    · next h => simp [h]; omega

theorem Track.derive_ok {eff r : Int} {t : Track} (e : t.reference = some r) (on : t.tracking = true) :
    (t.derive eff).Ok eff := by
  rw [Track.derive_reference e]
  refine ⟨by simp [on], ?_, ?_, by simp [on], ?_⟩ <;> simp

/-- An entry whose tracking is ON has a reference (R26). -/
theorem Track.Ok.reference {eff : Int} {t : Track} (ok : t.Ok eff) (on : t.tracking = true) :
    ∃ r, t.reference = some r :=
  Option.isSome_iff_exists.1 (ok.1.2 on)

/-- A transfer leaves the entry in agreement with the new effective gain (R29). -/
theorem Track.transfer_ok {eff old delta : Int} {credited : Bool} {t : Track} (ok : t.Ok old) :
    (t.transfer eff delta credited).Ok eff := by
  unfold Track.transfer
  split
  · next on =>
    obtain ⟨r, hr⟩ := ok.reference on
    split
    · exact Track.derive_ok (r := clampReference (r + delta)) (by simp [hr]) on
    · exact Track.derive_ok hr on
  · next off =>
    obtain ⟨ref, lo, hi, mark, -⟩ := ok
    refine ⟨ref, lo, hi, mark, fun r hr => ?_⟩
    exact absurd (ref.1 (by simp_all)) off

/-- Tracking turned ON or OFF keeps the entry in agreement (R32, R33). -/
theorem Track.setTracking_ok {eff : Int} {on : Bool} {t : Track} (ok : t.Ok eff) : (t.setTracking eff on).Ok eff := by
  unfold Track.setTracking
  split
  · exact ok
  · split
    · exact Track.derive_ok (r := eff + t.trim) rfl rfl
    · obtain ⟨-, lo, hi, -, -⟩ := ok
      exact ⟨by simp, lo, hi, by simp, by simp⟩

/-- A trim within its range keeps the entry in agreement (R34). -/
theorem Track.setTrim_ok {eff trim : Int} {t : Track} (range : -48 ≤ trim ∧ trim ≤ 48) (ok : t.Ok eff) :
    (t.setTrim eff trim).Ok eff := by
  unfold Track.setTrim
  split
  · next on =>
    refine ⟨by simp [on], range.1, range.2, by simp, ?_⟩
    rintro r hr
    cases hr
    simp
    omega
  · next off =>
    obtain ⟨ref, -, -, -, -⟩ := ok
    refine ⟨ref, range.1, range.2, by simp, fun r hr => ?_⟩
    exact absurd (ref.1 (by simp_all)) off
end Sys2Proof.Machine
end

/-!
An invariant of the preamps along every command: what an event of PCU, a write of STO and the power-on keep, every step
keeps, since the other operations leave the preamps alone.
-/
section
namespace Sys2Proof.Machine

/-- What one event of PCU can make of its records: a request of chapters 1 and 2 that passed its checks, a transfer, or
the expiry of a phantom timer. -/
inductive Pcu.Becomes (now : Frame) (p : Pcu) : Pcu → Prop where
  | setInput (who : Requester) (c : Chan) (f : InputFields) : Becomes now p ((PcuEvent.start p).setInput now who c f).pcu
  | setGang (g : Grp) (ms : List Chan) (size : ms.length = 0 ∨ (2 ≤ ms.length ∧ ms.length ≤ 8)) (nodup : ms.Nodup)
      (free : p.freeFor g ms = true) : Becomes now p (((PcuEvent.start p).forceGang g ms).pcu.takeGang g ms)
  | change (d : Desk) (f : Int → Track → Track) (cs : List Chan) (ok : ∀ eff t, t.Ok eff → (f eff t).Ok eff) :
      Becomes now p (cs.foldl (PcuEvent.change d f) (PcuEvent.start p)).pcu
  | transfer (c : Chan) : Becomes now p ((PcuEvent.start p).transferGroup c).pcu
  | charged (c : Chan) (state : (p.channel c).phantomState = .charging) :
      Becomes now p (((PcuEvent.start p).endTransition c .on).serveQueue now).pcu
  | discharged (c : Chan) (state : (p.channel c).phantomState = .discharging) :
      Becomes now p ((PcuEvent.start p).endTransition c .off).pcu

/-- A property of the part that depends on the preamps and the time alone, and that every event of PCU and every start and
end of a write keep: it is kept until the period ends. -/
structure Within (I : Hub → Prop) : Prop where
  same : ∀ {h k : Hub}, k.preamp = h.preamp → I h → I k
  becomes : ∀ {h : Hub} {q : Pcu}, h.pcu.Becomes h.now q → I h → I { h with pcu := q }
  starts : ∀ {h : Hub} (e : WriteEntry), I h → I (startWrite e h)
  completes : ∀ {h : Hub} {w : RunningWrite}, h.sto.running = some w → I h →
    I { h with sto := { h.sto.commit w.snapshot with running := none } }
  stops : ∀ {h : Hub}, I h → I { h with sto := { h.sto with running := none } }

/-- Such a property that the start of a period and the power-on keep too. -/
structure Kept (I : Hub → Prop) : Prop extends Within I where
  advances : ∀ {h : Hub} (ports : PortSamples), I h → I (advance ports h)
  restored : ∀ {h : Hub} (pins : Pins) (ports : PortSamples), I h → I (h.restored pins ports)

namespace Within
variable {I : Hub → Prop}

/-- A sequence of operations each of which keeps the property keeps it. -/
theorem foldl {α : Type} {f : Hub → α → Hub} (keeps : ∀ h x, I h → I (f h x)) (l : List α) {h : Hub} (i : I h) :
    I (l.foldl f h) := by
  induction l generalizing h with
  | nil => exact i
  | cons x l ih => exact ih (keeps h x i)

variable (K : Within I)
include K

theorem answerTo {h : Hub} (i : I h) (who : Requester) (code : Code) (body : List Byte) : I (answerTo who code body h) :=
  K.same (by simp) i

/-! ## Requests and events of PCU -/

theorem commitPcu {h : Hub} {e : PcuEvent} (b : h.pcu.Becomes h.now e.pcu) (i : I h) : I (commitPcu e h) := by
  refine K.same ?_ (K.becomes b i)
  unfold Machine.commitPcu
  dsimp only
  split <;> simp

theorem pcuSetInput {h : Hub} (i : I h) (who : Requester) (ch : Nat) (gain pad hpf phantom : Option Nat) :
    I (pcuSetInput who ch gain pad hpf phantom h) := by
  unfold Machine.pcuSetInput
  split
  · next c f _ _ =>
    have done := K.commitPcu (.setInput who c f) i
    repeat' split
    · exact K.answerTo i ..
    · exact K.answerTo i ..
    · exact K.answerTo done ..
    · exact K.answerTo i ..
  · exact K.answerTo i ..

theorem pcuSetGang {h : Hub} (i : I h) (who : Requester) (group : Nat) (members : List Nat) :
    I (pcuSetGang who group members h) := by
  unfold Machine.pcuSetGang
  split
  · next g ms _ listed =>
    obtain ⟨size, nodup⟩ := members?_some listed
    split
    · exact K.answerTo i ..
    · next free =>
      split
      · exact K.answerTo (K.commitPcu (.setGang g ms size nodup (by simpa using free)) i) ..
      · exact K.answerTo i ..
  · exact K.answerTo i ..

theorem pcuSetTracking {h : Hub} (i : I h) (who : Requester) (desk : Nat) (channels : BitSet 72) (value : Nat) :
    I (pcuSetTracking who desk channels value h) := by
  unfold Machine.pcuSetTracking
  repeat' split
  · exact K.answerTo i ..
  · exact K.answerTo (K.commitPcu (.change _ _ _ fun _ _ ok => Track.setTracking_ok ok) i) ..
  · exact K.answerTo i ..
  · exact K.answerTo i ..

theorem pcuSetTrim {h : Hub} (i : I h) (who : Requester) (desk ch : Nat) (trim : Int) :
    I (pcuSetTrim who desk ch trim h) := by
  unfold Machine.pcuSetTrim
  split
  · next d c t _ _ ranged =>
    split
    · exact K.answerTo (K.commitPcu (e := PcuEvent.change ..)
        (.change d (fun eff => Track.setTrim eff t) [c] fun _ _ ok => Track.setTrim_ok (trim?_some ranged) ok) i) ..
    · exact K.answerTo i ..
  · exact K.answerTo i ..

theorem zeroCrossing {h : Hub} (i : I h) (c : Chan) : I (zeroCrossing c h) := by
  unfold Machine.zeroCrossing
  split
  · exact K.commitPcu (.transfer c) i
  · exact i

theorem transferTimeout {h : Hub} (i : I h) (c : Chan) : I (transferTimeout c h) := by
  unfold Machine.transferTimeout
  split
  · exact K.commitPcu (.transfer c) i
  · exact i

theorem chargeExpiry {h : Hub} (i : I h) (c : Chan) : I (chargeExpiry c h) := by
  unfold Machine.chargeExpiry
  split
  · next d => exact K.commitPcu (.charged c (Pcu.phantomDue_state d)) i
  · exact i

theorem dischargeExpiry {h : Hub} (i : I h) (c : Chan) : I (dischargeExpiry c h) := by
  unfold Machine.dischargeExpiry
  split
  · next d => exact K.commitPcu (.discharged c (Pcu.phantomDue_state d)) i
  · exact i

/-! ## Requests and events of STO -/

theorem startNext {h : Hub} (i : I h) : I (startNext h) := by
  unfold Machine.startNext
  split
  · exact K.starts _ (K.same (h := h) rfl i)
  · exact i
  · exact i

theorem addEntry {h : Hub} (i : I h) (e : WriteEntry) : I (addEntry e h) := K.startNext (K.same (h := h) rfl i)

theorem completeWrite {h : Hub} {w : RunningWrite} (run : h.sto.running = some w) (i : I h) : I (completeWrite w h) := by
  refine K.startNext (K.same ?_ (K.completes run i))
  dsimp only
  split <;> simp

theorem storeWriteComplete {h : Hub} (i : I h) : I (storeWriteComplete h) := by
  have i1 : I { h with sto := h.sto.signalTaken } := K.same (h := h) rfl i
  unfold Machine.storeWriteComplete
  dsimp only
  split
  · exact i1
  · next w run =>
    split
    · exact K.completeWrite (h := { h with sto := h.sto.signalTaken }) run i1
    · exact i1

theorem storeWriteFault {h : Hub} (i : I h) : I (storeWriteFault h) := by
  unfold Machine.storeWriteFault
  split
  · exact i
  · split
    · exact K.startNext (K.same (by simp) (K.stops i))
    · exact i

theorem settleExpiry {h : Hub} (i : I h) : I (settleExpiry h) := by
  unfold Machine.settleExpiry
  split
  · refine K.addEntry (K.same (Hub.preamp_sto h _ ?_ ?_) i) _ <;> rfl
  · exact i

theorem stoWriteInstall {h : Hub} (i : I h) (who : Requester) (settings : List Byte) :
    I (stoWriteInstall who settings h) := by
  unfold Machine.stoWriteInstall
  repeat' split
  · exact K.answerTo i ..
  · exact K.answerTo i ..
  · refine K.addEntry (K.same (installChanged_preamp _) (K.same (Hub.preamp_sto h _ ?_ ?_) i)) _ <;> rfl

theorem stoLockInstall {h : Hub} (i : I h) (who : Requester) : I (stoLockInstall who h) := by
  unfold Machine.stoLockInstall
  split
  · exact K.answerTo i ..
  · exact K.addEntry i _

theorem stoEraseInstall {h : Hub} (i : I h) (who : Requester) (prepared : Bool) : I (stoEraseInstall who prepared h) := by
  unfold Machine.stoEraseInstall
  split
  · exact K.addEntry i _
  · exact K.answerTo i ..

/-! ## Requests in execution (R159) -/

theorem handOver {h : Hub} (i : I h) (who : Requester) (prepared : Bool) (c : Call) : I (handOver who prepared c h) := by
  cases c with
  | setInput ch gain pad hpf phantom => exact K.pcuSetInput i ..
  | setGang group members => exact K.pcuSetGang i ..
  | setTracking desk channels value => exact K.pcuSetTracking i ..
  | setTrim desk ch trim => exact K.pcuSetTrim i ..
  | writeInstall settings => exact K.stoWriteInstall i ..
  | lockInstall => exact K.stoLockInstall i ..
  | eraseInstall => exact K.stoEraseInstall i ..
  | saveNow => exact K.addEntry i _
  | readInstall => exact K.answerTo i ..
  | erasePrepare => refine K.answerTo (K.same (Hub.preamp_sto h _ ?_ ?_) i) .. <;> rfl
  | readInput | readGang | claim | release | override | freeze | readClaims | setPatch | outputEnable | readOutput |
    talkOn | talkOff | readTalk | readLink | readHealth | clearHealth | laneSwitch | laneTest | laneTestStop |
    hubRestart | linkRestart | readNotices | unknown | malformed =>
    exact K.same (by simp [Machine.handOver]) i

theorem carryOut {h : Hub} (i : I h) (who : Requester) (prepared : Bool) (c : Call) : I (carryOut who prepared c h) := by
  unfold Machine.carryOut
  repeat' split
  · exact K.answerTo i ..
  · exact K.answerTo i ..
  · exact K.handOver i ..

theorem takeHead {h : Hub} (i : I h) (who : Requester) : I (takeHead who h) := by
  unfold Machine.takeHead
  dsimp only
  split
  · exact i
  · split
    · exact K.carryOut (K.same (by simp) i) ..
    · exact i

theorem arrive {h : Hub} (i : I h) (who : Requester) (e : QEntry) : I (arrive who e h) := by
  unfold Machine.arrive
  dsimp only
  split
  · exact K.takeHead (K.same (by simp) i) who
  · exact K.same (by simp) i

theorem messageArrives {h : Hub} (i : I h) (d : Desk) (bytes : List Byte) : I (messageArrives d bytes h) := by
  unfold Machine.messageArrives
  repeat' split
  · exact i
  · exact K.arrive i ..
  · exact i

theorem requestArrival {h : Hub} (i : I h) (d : Desk) (bytes : List Byte) : I (requestArrival d bytes h) := by
  unfold Machine.requestArrival
  split
  · exact K.messageArrives i ..
  · exact i

theorem submit {h : Hub} (i : I h) (who : Requester) (tag : Byte) (c : Call) : I (submit who tag c h) := by
  unfold Machine.submit
  repeat' split
  · exact K.arrive i ..
  · exact K.arrive i ..
  · exact i

theorem answerDelivery {h : Hub} (i : I h) (d : Desk) : I (answerDelivery d h) := by
  unfold Machine.answerDelivery
  split
  · exact K.takeHead (K.same (by simp) i) _
  · exact i

theorem takeCell {h : Hub} (i : I h) (d : Desk) (c : Option Cell) : I (takeCell d c h) := by
  unfold Machine.takeCell
  dsimp only
  split
  · exact K.same (by simp) i
  · exact K.messageArrives (K.same (by simp) i) ..

/-! ## The panel port -/

theorem writeRequest {h : Hub} (i : I h) (bytes : List Byte) : I (writeRequest bytes h) := by
  unfold Machine.writeRequest
  split
  · exact K.same (by simp) i
  · dsimp only
    split
    · exact K.same (by simp) i
    · exact K.arrive (K.same (by simp) i) ..

theorem readAnswer {h : Hub} (i : I h) (clocked : Nat) : I (readAnswer clocked h) := by
  unfold Machine.readAnswer
  dsimp only
  repeat' split
  · exact K.same (by simp) i
  · refine K.takeHead (K.same (h := h) ?_ i) _; simp
  · exact K.same (by simp) i

/-! ## The frame period and the power-on -/

theorem takeStep {h : Hub} (i : I h) (d : Desk) : I (takeStep h d) := by
  have one {h : Hub} (i : I h) (d : Desk) (side : Side) (r : Bool) : I (takeOne d side r h) := by
    unfold takeOne
    dsimp only
    split
    · exact i
    · refine K.takeCell (K.same ?_ i) ..
      split <;> simp
  have many (d : Desk) (side : Side) (r : Bool) : ∀ (n : Nat) {h : Hub}, I h → I (takeMany d side r n h) := by
    intro n
    induction n with
    | zero => exact fun i => i
    | succ n ih => exact fun i => ih (one i d side r)
  unfold Machine.takeStep
  dsimp only
  repeat' split
  · exact i
  · exact many d _ _ _ i
  · exact i

theorem sweep {h : Hub} (i : I h) : I (sweep h) := by
  have lanes : I (sweepLanes h) := K.same (by
    unfold sweepLanes
    rw [foldl_preamp (fun h d => testComplete_preamp d h)]
    exact foldl_preamp (f := sweepLane) (fun h l => by simp [sweepLane]) LaneId.all h) i
  have channels : I (sweepChannels (sweepLanes h)) := by
    have i1 := foldl (I := I)
      (f := fun h c => Machine.zeroCrossing c h) (fun h c i => K.zeroCrossing i c) (List.finRange 72) lanes
    have i2 := foldl (I := I)
      (f := fun h c => Machine.transferTimeout c h) (fun h c i => K.transferTimeout i c) (List.finRange 72) i1
    have i3 := foldl (I := I)
      (f := fun h c => Machine.chargeExpiry c h) (fun h c i => K.chargeExpiry i c) (List.finRange 72) i2
    unfold sweepChannels
    exact foldl (I := I)
      (f := fun h c => Machine.dischargeExpiry c h) (fun h c i => K.dischargeExpiry i c) (List.finRange 72) i3
  have claims : I (sweepClaims (sweepChannels (sweepLanes h))) := K.same (by
    unfold sweepClaims
    dsimp only
    rw [foldl_preamp (fun h d => holdoverExpiry_preamp d h), foldl_preamp (fun h d => graceExpiry_preamp d h),
      windowExpiry_preamp]) channels
  have outputs : I (sweepOutputs (sweepClaims (sweepChannels (sweepLanes h)))) := K.same (by
    unfold sweepOutputs
    dsimp only
    rw [foldl_preamp (fun h d => talkTimeout_preamp d h), foldl_preamp (fun h j => revertExpiry_preamp j h),
      foldl_preamp (fun h j => fadeComplete_preamp j h)]) claims
  exact foldl (I := I) (fun h d i => K.answerDelivery i d) _ (K.storeWriteFault (K.settleExpiry outputs))

/-- What is left of a period that ends. -/
theorem endPeriod {h : Hub} (i : I h) : I (endPeriod h) := by
  have missing : I (missingFrames h) := K.same (foldl_preamp (fun h d => recordLink_preamp d h) Desk.all h) i
  have taken := foldl (I := I) (f := Machine.takeStep) (fun h d i => K.takeStep i d) Desk.all (K.sweep missing)
  have delivered := foldl (I := I) (f := deliverStep) (fun h d i => K.same (deliverStep_preamp h d) i) Desk.all taken
  exact K.same (outputSamples_preamp _) delivered

end Within

namespace Kept
variable {I : Hub → Prop} (K : Kept I)
include K

theorem framePeriod {h : Hub} (i : I h) (ports : PortSamples) : I (framePeriod ports h) :=
  K.same (sendFrames_preamp ..) (K.advances ports (K.endPeriod i))

theorem powerOnReset {h : Hub} (i : I h) (pins : Pins) (ports : PortSamples) : I (powerOnReset pins ports h) := by
  unfold Machine.powerOnReset
  exact K.same (by simp) (K.restored pins ports i)

/-! ## Every command -/

omit K in
theorem next {s t : State} {i : Instr} {k : Hub} (e : exec i s = .next t) (x : exec i s = .next (s.withHub k))
    (ik : I k) : I t.hub := by
  rw [x] at e
  cases e
  exact ik

theorem exec {s t : State} {i : Instr} (is : I s.hub) (e : exec i s = .next t) : I t.hub := by
  cases i with
  | powerOnReset pins ports => exact next e rfl (K.powerOnReset is pins ports)
  | framePeriod ports => exact next e rfl (K.framePeriod is ports)
  | zeroCrossing c => exact next e rfl (K.zeroCrossing is c)
  | transferTimeout c => exact next e rfl (K.transferTimeout is c)
  | chargeExpiry c => exact next e rfl (K.chargeExpiry is c)
  | dischargeExpiry c => exact next e rfl (K.dischargeExpiry is c)
  | requestArrival d bytes => exact next e rfl (K.requestArrival is d bytes)
  | answerDelivery d => exact next e rfl (K.answerDelivery is d)
  | writeRequest bytes => exact next e rfl (K.writeRequest is bytes)
  | readAnswer clocked => exact next e rfl (K.readAnswer is clocked)
  | settleExpiry => exact next e rfl (K.settleExpiry is)
  | storeWriteComplete => exact next e rfl (K.storeWriteComplete is)
  | storeWriteFault => exact next e rfl (K.storeWriteFault is)
  | upstreamFrame l bytes => exact next e rfl (K.same (upstreamFrame_preamp l bytes _) is)
  | acquisitionComplete l => exact next e rfl (K.same (acquisitionComplete_preamp l _) is)
  | qualificationComplete l => exact next e rfl (K.same (qualificationComplete_preamp l _) is)
  | frameLoss l => exact next e rfl (K.same (frameLoss_preamp l _) is)
  | lightAppears l => exact next e rfl (K.same (lightAppears_preamp l _) is)
  | lightLoss l => exact next e rfl (K.same (lightLoss_preamp l _) is)
  | holdoverExpiry d => exact next e rfl (K.same (holdoverExpiry_preamp d _) is)
  | testComplete d => exact next e rfl (K.same (testComplete_preamp d _) is)
  | windowExpiry => exact next e rfl (K.same (windowExpiry_preamp _) is)
  | graceExpiry d => exact next e rfl (K.same (graceExpiry_preamp d _) is)
  | fadeComplete o => exact next e rfl (K.same (fadeComplete_preamp o _) is)
  | revertExpiry o => exact next e rfl (K.same (revertExpiry_preamp o _) is)
  | safeAsserted => exact next e rfl (K.same (safeAsserted_preamp _) is)
  | safeReleased => exact next e rfl (K.same (safeReleased_preamp _) is)
  | talkTimeout d => exact next e rfl (K.same (talkTimeout_preamp d _) is)
  | stageTalkPress x => exact next e rfl (K.same (stageChange_preamp x true _) is)
  | stageTalkRelease x => exact next e rfl (K.same (stageChange_preamp x false _) is)
  | readNotice clocked => exact next e rfl (K.same (readNotice_preamp clocked _) is)
  | statusPoll clocked => exact next e rfl (K.same (statusPoll_preamp clocked _) is)
  | transactionStart => exact next e rfl (K.same (transactionStart_preamp _) is)
  | setInput | readInput | setGang | readGang | setTracking | setTrim | claim | release | override | freeze | readClaims |
    setPatch | outputEnable | readOutput | talkOn | talkOff | readTalk | readLink | laneSwitch | linkRestart |
    readHealth | clearHealth | laneTest | laneTestStop | readNotices | hubRestart | writeInstall | readInstall |
    lockInstall | erasePrepare | eraseInstall | saveNow => exact next e rfl (K.submit is ..)

theorem step {s t : State} (is : I s.hub) (e : step s = .next t) : I t.hub := by
  unfold Machine.step at e
  split at e
  · cases e; exact is
  · next i rest _ => exact K.exec (s := { s with pending := rest }) is e

end Kept
end Sys2Proof.Machine
end

/-!
What the operations of PCU do to its records, said once: changes of a list of channels, transfers of a list of channels
in one event (R9, R19, R29, R30), staging (R4, R18), the gang fields (R20), and the steps of the phantom supply (R10, R12).
-/
section
namespace Sys2Proof.Machine

/-! ## Readers of records and events -/

@[simp] theorem Pcu.channel_with (p : Pcu) (gangs : Vector (Option (List Chan)) 12) (queue : List Chan)
    (tracking : PerDesk (Vector Track 72)) (before samples : Vector Sample 72) (c : Chan) :
    Pcu.channel ⟨p.channels, gangs, queue, tracking, before, samples⟩ c = p.channel c := rfl

@[simp] theorem Pcu.track_with (p : Pcu) (channels : Vector Channel 72) (gangs : Vector (Option (List Chan)) 12)
    (queue : List Chan) (before samples : Vector Sample 72) (d : Desk) (c : Chan) :
    Pcu.track ⟨channels, gangs, queue, p.tracking, before, samples⟩ d c = p.track d c := rfl

@[simp] theorem Pcu.track_setChannel (p : Pcu) (c : Chan) (x : Channel) (d : Desk) (m : Chan) :
    (p.setChannel c x).track d m = p.track d m := rfl

@[simp] theorem Pcu.channel_setTrack (p : Pcu) (d : Desk) (c : Chan) (t : Track) (m : Chan) :
    (p.setTrack d c t).channel m = p.channel m := rfl

@[simp] theorem PcuEvent.start_pcu (p : Pcu) : (PcuEvent.start p).pcu = p := rfl

@[simp] theorem PcuEvent.setChannel_pcu (e : PcuEvent) (c : Chan) (x : Channel) :
    (e.setChannel c x).pcu = e.pcu.setChannel c x := rfl

@[simp] theorem PcuEvent.setTrack_pcu (e : PcuEvent) (d : Desk) (c : Chan) (t : Track) :
    (e.setTrack d c t).pcu = e.pcu.setTrack d c t := rfl

@[simp] theorem PcuEvent.notePhantom_pcu (e : PcuEvent) (c : Chan) : (e.notePhantom c).pcu = e.pcu := by
  unfold PcuEvent.notePhantom; split <;> rfl

/-! ## A list of channels changed -/

/-- The channels of a list changed, each in its own way. -/
def Pcu.mapChannels (p : Pcu) (l : List Chan) (f : Chan → Channel → Channel) : Pcu :=
  { p with channels := Tbl.of fun m => if m ∈ l then f m (p.channel m) else p.channel m }

@[simp] theorem Pcu.mapChannels_channel (p : Pcu) (l : List Chan) (f : Chan → Channel → Channel) (m : Chan) :
    (p.mapChannels l f).channel m = if m ∈ l then f m (p.channel m) else p.channel m := by
  simp [Pcu.mapChannels, Pcu.channel]

@[simp] theorem Pcu.mapChannels_other (p : Pcu) (l : List Chan) (f : Chan → Channel → Channel) :
    (p.mapChannels l f).gangs = p.gangs ∧ (p.mapChannels l f).phantomQueue = p.phantomQueue ∧
    (p.mapChannels l f).tracking = p.tracking ∧ (p.mapChannels l f).before = p.before ∧
    (p.mapChannels l f).samples = p.samples := by simp [Pcu.mapChannels]

/-- Two records of PCU with the same channels, gangs, queue, tracking and samples. -/
theorem Pcu.ext_channel {p q : Pcu} (channels : ∀ c, p.channel c = q.channel c) (gangs : p.gangs = q.gangs)
    (queue : p.phantomQueue = q.phantomQueue) (tracking : p.tracking = q.tracking)
    (samples : p.before = q.before ∧ p.samples = q.samples) : p = q := by
  obtain ⟨before, now⟩ := samples
  have : p.channels = q.channels := Tbl.ext_get channels
  cases p; cases q; simp_all

@[simp] theorem Pcu.mapChannels_nil (p : Pcu) (f : Chan → Channel → Channel) : p.mapChannels [] f = p :=
  Pcu.ext_channel (by simp) (by simp) (by simp) (by simp) (by simp)

/-- A channel replaced is a list of one changed. -/
theorem Pcu.setChannel_eq (p : Pcu) (c : Chan) (f : Channel → Channel) :
    p.setChannel c (f (p.channel c)) = p.mapChannels [c] fun _ => f := by
  refine Pcu.ext_channel (fun m => ?_) (by simp) (by simp) (by simp) (by simp)
  by_cases h : m = c <;> simp [h]

/-- Changes made one channel after another, where changing a channel twice is changing it once. -/
theorem Pcu.foldl_setChannel (f : Chan → Channel → Channel) (idem : ∀ m x, f m (f m x) = f m x) (l : List Chan) (p : Pcu) :
    l.foldl (fun p m => p.setChannel m (f m (p.channel m))) p = p.mapChannels l f := by
  induction l generalizing p with
  | nil => simp
  | cons c l ih =>
    rw [List.foldl_cons, ih]
    refine Pcu.ext_channel (fun m => ?_) (by simp) (by simp) (by simp) (by simp)
    by_cases hc : m = c
    · subst hc; by_cases hl : m ∈ l <;> simp [hl, idem]
    · by_cases hl : m ∈ l <;> simp [hl, hc]

theorem PcuEvent.foldl_setChannel (f : Chan → Channel → Channel) (idem : ∀ m x, f m (f m x) = f m x) (l : List Chan)
    (e : PcuEvent) :
    l.foldl (fun e m => e.setChannel m (f m (e.pcu.channel m))) e = { e with pcu := e.pcu.mapChannels l f } := by
  rw [← Pcu.foldl_setChannel f idem]
  induction l generalizing e with
  | nil => rfl
  | cons c l ih => rw [List.foldl_cons, List.foldl_cons, ih]; rfl

/-! ## Transfers (R9, R19, R29, R30) -/

/-- The tracking entry of a desk after the transfer of a channel credited to a requester (R29). -/
def Pcu.followed (p : Pcu) (by_ : Requester) (d : Desk) (m : Chan) : Track :=
  let x := p.channel m
  (p.track d m).transfer x.transferred.effectiveGain (x.transferred.effectiveGain - x.effectiveGain)
    (decide (by_ = d.req))

/-- The TRACK_LIMIT notices of the transfer of a channel, in the order A, B, C (R30). -/
def Pcu.limitsOf (p : Pcu) (by_ : Requester) (m : Chan) : List (Desk × Notice) :=
  (Desk.all.filter fun d => !decide ((p.track d m).limitMark = (p.followed by_ d m).limitMark)).map fun d =>
    let t := p.followed by_ d m
    (d, .trackLimit m t.limitMark t.trim t.reference (p.channel m).transferred.effectiveGain)

/-- PCU's records after the transfer of a list of channels. -/
def Pcu.moved (p : Pcu) (credited : Chan → Requester) (ms : List Chan) : Pcu :=
  { p.mapChannels ms fun _ => Channel.transferred with
    tracking := PerDesk.of fun d => Tbl.of fun m => if m ∈ ms then p.followed (credited m) d m else p.track d m }

@[simp] theorem Pcu.moved_channel (p : Pcu) (credited : Chan → Requester) (ms : List Chan) (m : Chan) :
    (p.moved credited ms).channel m = if m ∈ ms then (p.channel m).transferred else p.channel m := by
  simp [Pcu.moved, Pcu.channel, Pcu.mapChannels]

@[simp] theorem Pcu.moved_track (p : Pcu) (credited : Chan → Requester) (ms : List Chan) (d : Desk) (m : Chan) :
    (p.moved credited ms).track d m = if m ∈ ms then p.followed (credited m) d m else p.track d m := by
  simp [Pcu.moved, Pcu.track]

@[simp] theorem Pcu.moved_other (p : Pcu) (credited : Chan → Requester) (ms : List Chan) :
    (p.moved credited ms).gangs = p.gangs ∧ (p.moved credited ms).phantomQueue = p.phantomQueue ∧
    (p.moved credited ms).before = p.before ∧ (p.moved credited ms).samples = p.samples := by
  simp [Pcu.moved]

/-- Two records of PCU with the same channels, gangs, queue, tracking entries and samples. -/
theorem Pcu.ext_track {p q : Pcu} (channels : ∀ c, p.channel c = q.channel c) (gangs : p.gangs = q.gangs)
    (queue : p.phantomQueue = q.phantomQueue) (track : ∀ d c, p.track d c = q.track d c)
    (samples : p.before = q.before ∧ p.samples = q.samples) : p = q :=
  Pcu.ext_channel channels gangs queue (PerDesk.ext_get fun d => Tbl.ext_get (track d)) samples

/-- An event after the transfer of a list of channels. -/
def PcuEvent.moved (e : PcuEvent) (credited : Chan → Requester) (ms : List Chan) : PcuEvent :=
  { e with
    pcu := e.pcu.moved credited ms
    limits := e.limits ++ ms.flatMap fun m => e.pcu.limitsOf (credited m) m
    changed := e.changed ++ ms.map fun m => (e.pcu.channel m).transferred.inputChanged m (credited m)
    report := e.report || !ms.isEmpty }

@[simp] theorem PcuEvent.moved_nil (e : PcuEvent) (credited : Chan → Requester) : e.moved credited [] = e := by
  have : e.pcu.moved credited [] = e.pcu := Pcu.ext_track (by simp) (by simp) (by simp) (by simp) (by simp)
  simp [PcuEvent.moved, this]

/-- The entries and notices of a transfer depend on the channel's own record and entries alone. -/
theorem Pcu.followed_congr {p q : Pcu} {m : Chan} (channel : q.channel m = p.channel m)
    (track : ∀ d, q.track d m = p.track d m) (by_ : Requester) (d : Desk) : q.followed by_ d m = p.followed by_ d m := by
  simp [Pcu.followed, channel, track]

theorem Pcu.limitsOf_congr {p q : Pcu} {m : Chan} (channel : q.channel m = p.channel m)
    (track : ∀ d, q.track d m = p.track d m) (by_ : Requester) : q.limitsOf by_ m = p.limitsOf by_ m := by
  simp [Pcu.limitsOf, channel, track, Pcu.followed_congr channel track]

/-- The transfer of a channel, then of others, is the transfer of them all. -/
theorem PcuEvent.moved_cons (e : PcuEvent) (credited : Chan → Requester) {c : Chan} {ms : List Chan} (apart : c ∉ ms) :
    (e.moved credited [c]).moved credited ms = e.moved credited (c :: ms) := by
  have ne {m : Chan} (hm : m ∈ ms) : m ≠ c := fun h => apart (h ▸ hm)
  have channel {m : Chan} (hm : m ∈ ms) : (e.pcu.moved credited [c]).channel m = e.pcu.channel m := by simp [ne hm]
  have track {m : Chan} (hm : m ∈ ms) (d : Desk) : (e.pcu.moved credited [c]).track d m = e.pcu.track d m := by
    simp [ne hm]
  have pcu : (e.pcu.moved credited [c]).moved credited ms = e.pcu.moved credited (c :: ms) := by
    refine Pcu.ext_track (fun m => ?_) (by simp) (by simp) (fun d m => ?_) (by simp)
    · by_cases hm : m ∈ ms
      · simp [hm, channel hm]
      · by_cases hc : m = c
        · subst hc; simp [hm]
        · simp [hm, hc]
    · by_cases hm : m ∈ ms
      · simp [hm, Pcu.followed_congr (channel hm) (track hm)]
      · by_cases hc : m = c
        · subst hc; simp [hm]
        · simp [hm, hc]
  have limits : ms.map (fun m => (e.pcu.moved credited [c]).limitsOf (credited m) m) =
      ms.map fun m => e.pcu.limitsOf (credited m) m :=
    List.map_congr_left fun m hm => Pcu.limitsOf_congr (channel hm) (track hm) _
  have changed : ms.map (fun m => ((e.pcu.moved credited [c]).channel m).transferred.inputChanged m (credited m)) =
      ms.map fun m => (e.pcu.channel m).transferred.inputChanged m (credited m) :=
    List.map_congr_left fun m hm => by rw [channel hm]
  simp only [PcuEvent.moved, pcu, List.flatMap_def, limits, changed]
  simp

/-- The three entries of a channel at its transfer, with their notices (R29, R30). -/
theorem PcuEvent.trackTransfer_eq (e : PcuEvent) (c : Chan) (delta : Int) (by_ : Requester) :
    let entry := fun d : Desk =>
      (e.pcu.track d c).transfer (e.pcu.channel c).effectiveGain delta (decide (by_ = d.req))
    e.trackTransfer c delta by_ =
      { e with
        pcu := { e.pcu with tracking := PerDesk.of fun d => Tbl.set (e.pcu.tracking.get d) c (entry d) }
        limits := e.limits ++ (Desk.all.filter fun d => !decide ((e.pcu.track d c).limitMark = (entry d).limitMark)).map
          fun d => (d, .trackLimit c (entry d).limitMark (entry d).trim (entry d).reference
            (e.pcu.channel c).effectiveGain) } := by
  have one (e : PcuEvent) (d : Desk) (t : Track) : e.setTrack d c t =
      { e with
        pcu := e.pcu.setTrack d c t
        limits := e.limits ++ if (e.pcu.track d c).limitMark = t.limitMark then []
          else [(d, .trackLimit c t.limitMark t.trim t.reference (e.pcu.channel c).effectiveGain)] } := by
    unfold PcuEvent.setTrack
    dsimp only
    split <;> simp
  have channel (p : Pcu) (d : Desk) (t : Track) : (p.setTrack d c t).channel c = p.channel c := rfl
  have tracking (p : Pcu) (f : Desk → Track) : ((p.setTrack .a c (f .a)).setTrack .b c (f .b)).setTrack .c c (f .c) =
      { p with tracking := PerDesk.of fun d => Tbl.set (p.tracking.get d) c (f d) } := rfl
  have pick (l : List (Desk × Notice)) (f : Desk → Prop) [DecidablePred f] (n : Desk → Desk × Notice) :
      ((l ++ if f .a then [] else [n .a]) ++ if f .b then [] else [n .b]) ++ (if f .c then [] else [n .c]) =
        l ++ (Desk.all.filter fun d => !decide (f d)).map n := by
    by_cases ha : f .a <;> by_cases hb : f .b <;> by_cases hc : f .c <;> simp [Desk.all, ha, hb, hc]
  intro entry
  unfold PcuEvent.trackTransfer Desk.all
  simp only [List.foldl_cons, List.foldl_nil, one, channel, Pcu.track_setTrack, reduceCtorEq, false_and, if_false]
  rw [tracking e.pcu entry]
  congr 1
  exact pick e.limits (fun d => (e.pcu.track d c).limitMark = (entry d).limitMark) fun d =>
    (d, .trackLimit c (entry d).limitMark (entry d).trim (entry d).reference (e.pcu.channel c).effectiveGain)

/-- A channel with nothing staged is left as it is (R9). -/
theorem PcuEvent.transfer_idle {e : PcuEvent} {c : Chan} (idle : (e.pcu.channel c).isStaged = false) : e.transfer c = e := by
  unfold PcuEvent.transfer
  simp [idle]

/-- The transfer of a channel with staged values (R9). -/
theorem PcuEvent.transfer_staged {e : PcuEvent} {c : Chan} {credited : Chan → Requester}
    (staged : (e.pcu.channel c).isStaged = true) (by_ : (e.pcu.channel c).stagedBy = some (credited c)) :
    e.transfer c = e.moved credited [c] := by
  unfold PcuEvent.transfer
  simp only [staged, by_]
  rw [PcuEvent.trackTransfer_eq]
  unfold PcuEvent.moved PcuEvent.setChannel Pcu.limitsOf Pcu.followed
  have pcu : { e.pcu.setChannel c (e.pcu.channel c).transferred with
      tracking := PerDesk.of fun d => Tbl.set (e.pcu.tracking.get d) c (e.pcu.followed (credited c) d c) } =
        e.pcu.moved credited [c] := by
    refine Pcu.ext_track (fun m => ?_) (by simp) (by simp) (fun d m => ?_) (by simp)
    · by_cases hm : m = c <;> simp [hm, Pcu.channel, Pcu.moved, Pcu.mapChannels, Pcu.setChannel]
    · by_cases hm : m = c <;> simp [hm, Pcu.track, Pcu.moved]
  rw [← pcu]
  simp [Pcu.followed, Pcu.channel_setChannel, Pcu.track]
  rfl

/-- The transfers of a list of channels in one event, in list order: those that have staged values move (R19). -/
theorem PcuEvent.foldl_transfer {credited : Chan → Requester} {l : List Chan} (nodup : l.Nodup) (e : PcuEvent)
    (by_ : ∀ m ∈ l, (e.pcu.channel m).isStaged = true → (e.pcu.channel m).stagedBy = some (credited m)) :
    l.foldl PcuEvent.transfer e = e.moved credited (l.filter fun m => (e.pcu.channel m).isStaged) := by
  induction l generalizing e with
  | nil => simp
  | cons c l ih =>
    obtain ⟨apart, nodup⟩ := List.nodup_cons.1 nodup
    rw [List.foldl_cons]
    by_cases staged : (e.pcu.channel c).isStaged = true
    · have moved := PcuEvent.transfer_staged staged (by_ c (by simp) staged)
      have same {m : Chan} (hm : m ∈ l) : (e.moved credited [c]).pcu.channel m = e.pcu.channel m := by
        have : m ≠ c := fun h => apart (h ▸ hm)
        simp [PcuEvent.moved, this]
      have pick : (l.filter fun m => ((e.moved credited [c]).pcu.channel m).isStaged) =
          l.filter fun m => (e.pcu.channel m).isStaged :=
        List.filter_congr fun m hm => by rw [same hm]
      rw [moved, ih nodup _ fun m hm => by rw [same hm]; exact by_ m (by simp [hm]), pick,
        PcuEvent.moved_cons e credited (fun hm => apart (List.mem_of_mem_filter hm))]
      simp [staged]
    · rw [PcuEvent.transfer_idle (by simpa using staged), ih nodup _ fun m hm => by_ m (by simp [hm])]
      simp [staged]

/-! ## The channels that transfer together (R19) -/

theorem Pcu.MovesWith.groupOf {p : Pcu} {c : Chan} {ms : List Chan} (m : p.MovesWith c ms) : p.groupOf c = ms := by
  unfold Pcu.groupOf
  obtain ⟨alone, rfl⟩ | ⟨g, member, list, -⟩ := m
  · simp [alone]
  · simp [member, list]

theorem Pcu.MovesWith.nodup {p : Pcu} {c : Chan} {ms : List Chan} (m : p.MovesWith c ms) : ms.Nodup := by
  obtain ⟨-, rfl⟩ | ⟨-, -, -, -, nodup⟩ := m
  · simp
  · exact nodup

theorem Pcu.MovesWith.mem {p : Pcu} {c : Chan} {ms : List Chan} (m : p.MovesWith c ms) : c ∈ ms := by
  obtain ⟨-, rfl⟩ | ⟨-, -, -, mem, -⟩ := m
  · simp
  · exact mem

/-- The group of a channel depends on the gang fields and the Gang Table alone. -/
theorem Pcu.groupOf_congr {p q : Pcu} {c : Chan} (gang : (q.channel c).gang = (p.channel c).gang)
    (gangs : q.gangs = p.gangs) : q.groupOf c = p.groupOf c := by
  simp [Pcu.groupOf, gang, gangs]

/-! ## Staging (R4, R18) -/

/-- A channel's record with values staged; `deadline` stands where nothing was staged before. -/
def Channel.stagedWith (x : Channel) (who : Requester) (deadline : Option Frame) (gain : Option Nat) (pad : Option Bool) :
    Channel :=
  { x with
    stagedGain := gain.or x.stagedGain
    stagedPad := pad.or x.stagedPad
    stagedBy := some who
    transferDeadline := deadline.or x.transferDeadline }

/-- The values staged on the channels of a group, each member's gain moved by the named channel's delta (R17). -/
def Pcu.stagedOn (p : Pcu) (now : Frame) (who : Requester) (c : Chan) (f : InputFields) : Pcu :=
  p.mapChannels (p.groupOf c) fun m x =>
    x.stagedWith who (if p.groupStaged c then none else some (later now Config.zeroCrossFrames))
      (f.gain.map fun g => (p.memberGain c m g).toNat) f.pad

@[simp] theorem Pcu.stagedOn_channel (p : Pcu) (now : Frame) (who : Requester) (c : Chan) (f : InputFields) (m : Chan) :
    (p.stagedOn now who c f).channel m = if m ∈ p.groupOf c
      then (p.channel m).stagedWith who (if p.groupStaged c then none else some (later now Config.zeroCrossFrames))
        (f.gain.map fun g => (p.memberGain c m g).toNat) f.pad
      else p.channel m :=
  Pcu.mapChannels_channel ..

@[simp] theorem Pcu.stagedOn_other (p : Pcu) (now : Frame) (who : Requester) (c : Chan) (f : InputFields) :
    (p.stagedOn now who c f).gangs = p.gangs ∧ (p.stagedOn now who c f).phantomQueue = p.phantomQueue ∧
    (p.stagedOn now who c f).tracking = p.tracking ∧ (p.stagedOn now who c f).before = p.before ∧
    (p.stagedOn now who c f).samples = p.samples := by simp [Pcu.stagedOn]

@[simp] theorem Pcu.stagedOn_track (p : Pcu) (now : Frame) (who : Requester) (c : Chan) (f : InputFields) (d : Desk)
    (m : Chan) : (p.stagedOn now who c f).track d m = p.track d m := by simp [Pcu.track]

@[simp] theorem PcuEvent.moved_pcu (e : PcuEvent) (credited : Chan → Requester) (ms : List Chan) :
    (e.moved credited ms).pcu = e.pcu.moved credited ms := rfl

/-- Gain and pad staged, and transferred at once where a member is in phantom transition. -/
theorem PcuEvent.stage_eq (e : PcuEvent) (now : Frame) (who : Requester) (c : Chan) (f : InputFields) :
    e.stage now who c f =
      if (e.pcu.groupOf c).any fun m => (e.pcu.channel m).inTransition
      then { e with pcu := e.pcu.stagedOn now who c f }.transferGroup c
      else { e with pcu := e.pcu.stagedOn now who c f } := by
  have or_or {α : Type} (a b : Option α) : a.or (a.or b) = a.or b := by cases a <;> rfl
  have fold := PcuEvent.foldl_setChannel
    (fun m x => x.stagedWith who (if e.pcu.groupStaged c then none else some (later now Config.zeroCrossFrames))
      (f.gain.map fun g => (e.pcu.memberGain c m g).toNat) f.pad)
    (fun m x => by simp [Channel.stagedWith, or_or]) (e.pcu.groupOf c) e
  unfold PcuEvent.stage Pcu.stagedOn
  rw [← fold]
  rfl

/-! ## The gang fields (R20) -/

theorem Pcu.takeGang_eq (p : Pcu) (g : Grp) (ms : List Chan) :
    p.takeGang g ms =
      { p with
        gangs := Tbl.set p.gangs g (if ms.isEmpty then none else some ms)
        channels := Tbl.of fun m =>
          let x := p.channel m
          if m ∈ ms then { x with gang := some g } else if m ∈ p.members g then { x with gang := none } else x } := by
  have fields (k : Option Grp) (l : List Chan) (p : Pcu) :
      l.foldl (Pcu.setGangField k) p = p.mapChannels l fun _ x => { x with gang := k } :=
    Pcu.foldl_setChannel (fun _ x => { x with gang := k }) (fun _ _ => rfl) l p
  unfold Pcu.takeGang
  simp only [fields]
  refine Pcu.ext_channel (fun m => ?_) (by simp) (by simp) (by simp) (by simp)
  have with_gangs (q : Pcu) (t : Vector (Option (List Chan)) 12) : Pcu.channel { q with gangs := t } m = q.channel m := rfl
  rw [with_gangs, Pcu.mapChannels_channel, Pcu.mapChannels_channel]
  by_cases hm : m ∈ ms <;> by_cases ho : m ∈ p.members g <;> simp [hm, ho, Pcu.channel]

@[simp] theorem Pcu.takeGang_track (p : Pcu) (g : Grp) (ms : List Chan) (d : Desk) (c : Chan) :
    (p.takeGang g ms).track d c = p.track d c := by
  rw [Pcu.takeGang_eq, Pcu.track_with]

end Sys2Proof.Machine
end

/-!
The invariants of PCU along its events: the Phantom Queue and the count of charging channels (R10, R12), the Gang Table
with the staged values (R16, R18, R19), the tracking entries (R26, R27), and what the store holds of them (R178).
-/
section
namespace Sys2Proof.Machine

/-! ## Phantom (R10, R12) -/

/-- At most 8 channels are CHARGING, and the Phantom Queue lists the QUEUED channels once each. -/
def Pcu.PhantomOk (p : Pcu) : Prop :=
  p.charging ≤ 8 ∧ p.phantomQueue.Nodup ∧ ∀ c : Chan, c ∈ p.phantomQueue ↔ (p.channel c).phantomState = .queued

/-- The phantom states and the Phantom Queue are those of another record. -/
def Pcu.SamePhantom (q p : Pcu) : Prop :=
  q.phantomQueue = p.phantomQueue ∧ ∀ c, (q.channel c).phantomState = (p.channel c).phantomState

theorem Pcu.SamePhantom.refl (p : Pcu) : p.SamePhantom p := ⟨rfl, fun _ => rfl⟩

theorem Pcu.SamePhantom.trans {p q r : Pcu} (a : r.SamePhantom q) (b : q.SamePhantom p) : r.SamePhantom p :=
  ⟨a.1.trans b.1, fun c => (a.2 c).trans (b.2 c)⟩

theorem Pcu.charging_congr {p q : Pcu}
    (state : ∀ c, (q.channel c).phantomState = .charging ↔ (p.channel c).phantomState = .charging) :
    q.charging = p.charging := by
  unfold Pcu.charging
  simp only [state]

theorem Pcu.SamePhantom.ok {p q : Pcu} (same : q.SamePhantom p) (ok : p.PhantomOk) : q.PhantomOk := by
  obtain ⟨queue, state⟩ := same
  have count : q.charging = p.charging := Pcu.charging_congr fun c => by rw [state c]
  unfold Pcu.PhantomOk at ok ⊢
  simpa only [queue, count, state] using ok

/-- A list in which one more item passes a test. -/
theorem length_filter_gain {α : Type} {p q : α → Bool} {c : α} {l : List α} (nodup : l.Nodup) (mem : c ∈ l)
    (others : ∀ x, x ≠ c → q x = p x) (off : p c = false) (on : q c = true) :
    (l.filter q).length = (l.filter p).length + 1 := by
  induction l with
  | nil => cases mem
  | cons x l ih =>
    obtain ⟨apart, nodup⟩ := List.nodup_cons.1 nodup
    by_cases hx : x = c
    · subst hx
      have rest : l.filter q = l.filter p := List.filter_congr fun y hy => others y fun h => apart (h ▸ hy)
      simp [off, on, rest]
    · have tail := ih nodup ((List.mem_cons.1 mem).resolve_left (Ne.symm hx))
      rw [List.filter_cons, List.filter_cons, others x hx]
      split <;> simp [tail]

/-- One more channel is CHARGING. -/
theorem Pcu.charging_gain {p q : Pcu} {c : Chan}
    (others : ∀ m, m ≠ c → (q.channel m).phantomState = (p.channel m).phantomState)
    (off : (p.channel c).phantomState ≠ .charging) (on : (q.channel c).phantomState = .charging) :
    q.charging = p.charging + 1 := by
  refine length_filter_gain (List.nodup_finRange 72) (List.mem_finRange c) (fun m hm => ?_) ?_ ?_
  · rw [others m hm]
  · simpa using off
  · simpa using on

theorem Pcu.charging_le {p q : Pcu} {c : Chan}
    (others : ∀ m, m ≠ c → (q.channel m).phantomState = (p.channel m).phantomState)
    (off : (q.channel c).phantomState ≠ .charging) : q.charging ≤ p.charging := by
  by_cases on : (p.channel c).phantomState = .charging
  · have := Pcu.charging_gain (fun m hm => (others m hm).symm) off on
    omega
  · refine (Pcu.charging_congr fun m => ?_).le
    by_cases hm : m = c
    · subst hm; simp [on, off]
    · rw [others m hm]

/-- A channel that was not QUEUED takes another state than QUEUED and CHARGING. -/
theorem Pcu.PhantomOk.steady {p q : Pcu} {c : Chan} (ok : p.PhantomOk) (queue : q.phantomQueue = p.phantomQueue)
    (others : ∀ m, m ≠ c → (q.channel m).phantomState = (p.channel m).phantomState)
    (old : (p.channel c).phantomState ≠ .queued) (new : (q.channel c).phantomState ≠ .queued)
    (rest : (q.channel c).phantomState ≠ .charging) : q.PhantomOk := by
  obtain ⟨count, nodup, listed⟩ := ok
  refine ⟨(Pcu.charging_le others rest).trans count, queue ▸ nodup, fun m => ?_⟩
  rw [queue, listed m]
  by_cases hm : m = c
  · subst hm; simp [old, new]
  · rw [others m hm]

/-- A channel that was not QUEUED joins the tail of the queue. -/
theorem Pcu.PhantomOk.enqueue {p q : Pcu} {c : Chan} (ok : p.PhantomOk) (queue : q.phantomQueue = p.phantomQueue ++ [c])
    (others : ∀ m, m ≠ c → (q.channel m).phantomState = (p.channel m).phantomState)
    (old : (p.channel c).phantomState ≠ .queued) (new : (q.channel c).phantomState = .queued) : q.PhantomOk := by
  obtain ⟨count, nodup, listed⟩ := ok
  have apart : c ∉ p.phantomQueue := fun h => old ((listed c).1 h)
  refine ⟨(Pcu.charging_le others (by simp [new])).trans count, ?_, fun m => ?_⟩
  · rw [queue]; exact List.Nodup.append nodup (by simp) (by simpa using apart)
  · rw [queue]
    by_cases hm : m = c
    · subst hm; simp [new]
    · simp [hm, listed m, others m hm]

/-- A channel leaves the queue for another state than CHARGING. -/
theorem Pcu.PhantomOk.dequeue {p q : Pcu} {c : Chan} (ok : p.PhantomOk)
    (queue : q.phantomQueue = p.phantomQueue.filter fun m => !decide (m = c))
    (others : ∀ m, m ≠ c → (q.channel m).phantomState = (p.channel m).phantomState)
    (new : (q.channel c).phantomState ≠ .queued) (rest : (q.channel c).phantomState ≠ .charging) : q.PhantomOk := by
  obtain ⟨count, nodup, listed⟩ := ok
  refine ⟨(Pcu.charging_le others rest).trans count, queue ▸ nodup.filter _, fun m => ?_⟩
  rw [queue]
  by_cases hm : m = c
  · subst hm; simp [new]
  · simp [hm, listed m, others m hm]

/-- The head of the queue starts charging, where fewer than 8 channels charge. -/
theorem Pcu.PhantomOk.charge {p q : Pcu} {c : Chan} (ok : p.PhantomOk) (room : p.charging < 8)
    (queue : p.phantomQueue = c :: q.phantomQueue)
    (others : ∀ m, m ≠ c → (q.channel m).phantomState = (p.channel m).phantomState)
    (new : (q.channel c).phantomState = .charging) : q.PhantomOk := by
  obtain ⟨-, nodup, listed⟩ := ok
  have head : (p.channel c).phantomState = .queued := (listed c).1 (by simp [queue])
  rw [queue] at nodup
  obtain ⟨apart, nodup⟩ := List.nodup_cons.1 nodup
  refine ⟨by rw [Pcu.charging_gain others (by simp [head]) new]; omega, nodup, fun m => ?_⟩
  by_cases hm : m = c
  · subst hm; simp [new, apart]
  · rw [others m hm, ← listed m, queue]; simp [hm]

/-- Transfers leave the phantom supply (R9). -/
theorem PcuEvent.transfer_phantom (e : PcuEvent) (c : Chan) : (e.transfer c).pcu.SamePhantom e.pcu := by
  cases staged : (e.pcu.channel c).isStaged with
  | false => rw [PcuEvent.transfer_idle staged]; exact .refl _
  | true =>
    cases by_ : (e.pcu.channel c).stagedBy with
    | none => simp [PcuEvent.transfer, staged, by_, Pcu.SamePhantom.refl]
    | some r =>
      rw [PcuEvent.transfer_staged (credited := fun _ => r) staged by_]
      refine ⟨by simp, fun m => ?_⟩
      rw [PcuEvent.moved_pcu, Pcu.moved_channel]
      split <;> rfl

theorem PcuEvent.foldl_transfer_phantom (l : List Chan) (e : PcuEvent) :
    (l.foldl PcuEvent.transfer e).pcu.SamePhantom e.pcu := by
  induction l generalizing e with
  | nil => exact .refl _
  | cons c l ih => exact (ih _).trans (e.transfer_phantom c)

theorem PcuEvent.transferGroup_phantom (e : PcuEvent) (c : Chan) : (e.transferGroup c).pcu.SamePhantom e.pcu :=
  PcuEvent.foldl_transfer_phantom _ _

/-- Staging leaves the phantom supply (R4). -/
theorem PcuEvent.stage_phantom (e : PcuEvent) (now : Frame) (who : Requester) (c : Chan) (f : InputFields) :
    (e.stage now who c f).pcu.SamePhantom e.pcu := by
  have staged : (e.pcu.stagedOn now who c f).SamePhantom e.pcu := by
    refine ⟨by simp, fun m => ?_⟩
    rw [Pcu.stagedOn_channel]
    split <;> rfl
  rw [PcuEvent.stage_eq]
  split
  · exact (PcuEvent.transferGroup_phantom { e with pcu := e.pcu.stagedOn now who c f } c).trans staged
  · exact staged

/-- What an entry into a phantom transition does to the phantom supply: the channel takes the state. -/
theorem PcuEvent.enterTransition_phantom (e : PcuEvent) (now : Frame) (c : Chan) (st : PhantomState) (frames : Nat) :
    let q := (e.enterTransition now c st frames).pcu
    q.phantomQueue = e.pcu.phantomQueue ∧ (q.channel c).phantomState = st ∧
      ∀ m, m ≠ c → (q.channel m).phantomState = (e.pcu.channel m).phantomState := by
  intro q
  have same : q.SamePhantom
      (e.pcu.setChannel c { e.pcu.channel c with phantomState := st, phantomTimer := some (later now frames) }) := by
    simp only [q, PcuEvent.enterTransition]
    split
    · refine (PcuEvent.transferGroup_phantom _ c).trans ?_
      rw [PcuEvent.notePhantom_pcu]; exact .refl _
    · rw [PcuEvent.notePhantom_pcu]; exact .refl _
  obtain ⟨queue, state⟩ := same
  refine ⟨by simpa using queue, by simp [state], fun m hm => by simp [state, hm]⟩

/-- Serving the Phantom Queue keeps it (R12). -/
theorem PcuEvent.serve_phantomOk (now : Frame) (fuel : Nat) {e : PcuEvent} (ok : e.pcu.PhantomOk) :
    (e.serve now fuel).pcu.PhantomOk := by
  induction fuel generalizing e with
  | zero => exact ok
  | succ fuel ih =>
    unfold PcuEvent.serve
    split
    · next room =>
      split
      · exact ok
      · next c cs queue =>
        obtain ⟨left, new, others⟩ := PcuEvent.enterTransition_phantom
          { e with pcu := { e.pcu with phantomQueue := cs } } now c .charging Config.chargeFrames
        exact ih (ok.charge room (by rw [queue, left]) others new)
    · exact ok

/-- The phantom field of a SET_INPUT keeps the Phantom Queue (Table 1-2). -/
theorem PcuEvent.phantomField_phantomOk {e : PcuEvent} (now : Frame) (c : Chan) (on : Bool) (ok : e.pcu.PhantomOk) :
    (e.phantomField now c on).pcu.PhantomOk := by
  unfold PcuEvent.phantomField
  dsimp only
  split
  · next state =>
    refine PcuEvent.serve_phantomOk now _ (ok.enqueue (c := c) (by simp) (fun m hm => ?_) (by simp [state]) (by simp))
    simp [hm]
  · refine ok.dequeue (c := c) (by simp) (fun m hm => ?_) (by simp) (by simp)
    simp [hm]
  · next state =>
    obtain ⟨queue, new, others⟩ := PcuEvent.enterTransition_phantom
      (e.setChannel c { e.pcu.channel c with phantomTarget := false }) now c .discharging Config.dischargeFrames
    refine ok.steady (c := c) (queue.trans (by simp)) (fun m hm => ?_) (by simp [state])
      (by simp [new]) (by simp [new])
    rw [others m hm]; simp [hm]
  · exact ok

/-- Every event of PCU keeps the Phantom Queue. -/
theorem Pcu.Becomes.phantomOk {now : Frame} {p q : Pcu} (b : Pcu.Becomes now p q) (ok : p.PhantomOk) : q.PhantomOk := by
  cases b with
  | setInput who c f =>
    have staged : (if f.stages then (PcuEvent.start p).stage now who c f else PcuEvent.start p).pcu.PhantomOk := by
      split
      · exact (PcuEvent.stage_phantom _ now who c f).ok ok
      · exact ok
    unfold PcuEvent.setInput
    dsimp only
    generalize (if f.stages then (PcuEvent.start p).stage now who c f else PcuEvent.start p) = e at staged
    have filtered (v : Hpf) : (e.hpfField who c v).pcu.PhantomOk := by
      unfold PcuEvent.hpfField
      dsimp only
      split
      · exact staged
      · refine Pcu.SamePhantom.ok ⟨by simp, fun m => ?_⟩ staged
        by_cases hm : m = c <;> simp [hm]
    cases f.hpf with
    | none => cases f.phantom with
      | none => exact staged
      | some on => exact PcuEvent.phantomField_phantomOk now c on staged
    | some v => cases f.phantom with
      | none => exact filtered v
      | some on => exact PcuEvent.phantomField_phantomOk now c on (filtered v)
  | setGang g ms =>
    rw [Pcu.takeGang_eq]
    have forced : ((PcuEvent.start p).forceGang g ms).pcu.SamePhantom p :=
      (PcuEvent.foldl_transfer_phantom _ _).trans (PcuEvent.foldl_transfer_phantom _ _)
    refine (Pcu.SamePhantom.trans ⟨by simp, fun m => ?_⟩ forced).ok ok
    simp only [Pcu.channel, Tbl.get_of]
    split
    · rfl
    · split <;> rfl
  | change d f cs =>
    have same (e : PcuEvent) : (cs.foldl (PcuEvent.change d f) e).pcu.SamePhantom e.pcu := by
      induction cs generalizing e with
      | nil => exact .refl _
      | cons c cs ih => exact (ih _).trans ⟨by simp [PcuEvent.change], by simp [PcuEvent.change]⟩
    exact (same _).ok ok
  | transfer c => exact (PcuEvent.transferGroup_phantom _ c).ok ok
  | charged c state =>
    refine PcuEvent.serve_phantomOk now _ (ok.steady (c := c) ?_ ?_ (by simp [state]) ?_ ?_) <;>
      simp +contextual [PcuEvent.endTransition]
  | discharged c state =>
    refine ok.steady (c := c) ?_ ?_ (by simp [state]) ?_ ?_ <;>
      simp +contextual [PcuEvent.endTransition]

/-! ## The Gang Table, the staged values and the tracking entries (R16, R18, R19, R26, R27) -/

/-- The Gang Table is well formed, the gang fields and the staged values follow it, and every tracking entry agrees with
its channel. -/
def Pcu.SettingsOk (p : Pcu) : Prop :=
  gangsOk p.gangs ∧
  (∀ c g, (p.channel c).gang = some g ↔ ∃ ms, Tbl.get p.gangs g = some ms ∧ c ∈ ms) ∧
  (∀ c, (p.channel c).stagedBy.isSome = (p.channel c).isStaged ∧
    (p.channel c).transferDeadline.isSome = (p.channel c).isStaged) ∧
  (∀ g ms, Tbl.get p.gangs g = some ms → ∀ c ∈ ms, ∀ e ∈ ms,
    (p.channel c).stagedBy = (p.channel e).stagedBy ∧
    (p.channel c).transferDeadline = (p.channel e).transferDeadline) ∧
  ∀ d c, (p.track d c).Ok (p.channel c).effectiveGain

/-- The settings of a channel that the Gang Table, the staging and the tracking speak of. -/
def Channel.SameSettings (y x : Channel) : Prop :=
  y.gain = x.gain ∧ y.pad = x.pad ∧ y.stagedGain = x.stagedGain ∧ y.stagedPad = x.stagedPad ∧ y.stagedBy = x.stagedBy ∧
    y.transferDeadline = x.transferDeadline ∧ y.gang = x.gang

/-- A change of nothing but the filter and the phantom supply keeps the settings in agreement. -/
theorem Pcu.SettingsOk.congr {p q : Pcu} (ok : p.SettingsOk) (gangs : q.gangs = p.gangs)
    (track : ∀ d c, q.track d c = p.track d c) (channels : ∀ c, (q.channel c).SameSettings (p.channel c)) :
    q.SettingsOk := by
  have eff (c : Chan) : (q.channel c).effectiveGain = (p.channel c).effectiveGain := by
    obtain ⟨gain, pad, -⟩ := channels c
    simp [Channel.effectiveGain, gain, pad]
  have staged (c : Chan) : (q.channel c).isStaged = (p.channel c).isStaged := by
    obtain ⟨-, -, gain, pad, -⟩ := channels c
    simp [Channel.isStaged, gain, pad]
  have by_ (c : Chan) : (q.channel c).stagedBy = (p.channel c).stagedBy := (channels c).2.2.2.2.1
  have deadline (c : Chan) : (q.channel c).transferDeadline = (p.channel c).transferDeadline := (channels c).2.2.2.2.2.1
  have gang (c : Chan) : (q.channel c).gang = (p.channel c).gang := (channels c).2.2.2.2.2.2
  unfold Pcu.SettingsOk at ok ⊢
  simpa only [gangs, track, eff, staged, by_, deadline, gang] using ok

/-- The channels that transfer with a channel are itself, or the list of its gang. -/
theorem Pcu.SettingsOk.movesWith {p : Pcu} (ok : p.SettingsOk) (c : Chan) : p.MovesWith c (p.groupOf c) := by
  obtain ⟨⟨lists, -⟩, fields, -⟩ := ok
  unfold Pcu.groupOf
  cases member : (p.channel c).gang with
  | none => exact .inl ⟨member, rfl⟩
  | some g =>
    obtain ⟨ms, list, mem⟩ := (fields c g).1 member
    simp only [list, Option.getD_some]
    exact .inr ⟨g, member, list, mem, (lists g ms list).2.2⟩

/-- A list of channels that holds the whole of every gang of which it holds a member. -/
def Pcu.Whole (p : Pcu) (l : List Chan) : Prop :=
  ∀ g ms, Tbl.get p.gangs g = some ms → ∀ c ∈ ms, ∀ e ∈ ms, c ∈ l → e ∈ l

theorem Pcu.SettingsOk.whole_group {p : Pcu} (ok : p.SettingsOk) (c : Chan) : p.Whole (p.groupOf c) := by
  intro g ms list a ha b hb mem
  have gang {m : Chan} (hm : m ∈ ms) : (p.channel m).gang = some g := (ok.2.1 m g).2 ⟨ms, list, hm⟩
  obtain ⟨alone, single⟩ | ⟨k, member, own, -, -⟩ := ok.movesWith c
  · rw [single] at mem
    rw [List.mem_singleton.1 mem] at ha
    simp [gang ha] at alone
  · have : (p.channel a).gang = some k := (ok.2.1 a k).2 ⟨_, own, mem⟩
    rw [gang ha] at this
    cases this
    rw [list] at own
    cases own
    exact hb

/-- The requester to whom a channel's staged values are credited. -/
def Pcu.creditedTo (p : Pcu) (m : Chan) : Requester := (p.channel m).stagedBy.getD .panel

/-- The transfers of a list of channels in one event, where staged values have their requester (R9, R19). -/
theorem Pcu.SettingsOk.foldl_transfer {e : PcuEvent} (ok : e.pcu.SettingsOk) {l : List Chan} (nodup : l.Nodup) :
    l.foldl PcuEvent.transfer e = e.moved e.pcu.creditedTo (l.filter fun m => (e.pcu.channel m).isStaged) := by
  refine PcuEvent.foldl_transfer nodup e fun m _ staged => ?_
  have some_ : (e.pcu.channel m).stagedBy.isSome = true := by rw [(ok.2.2.1 m).1, staged]
  obtain ⟨r, hr⟩ := Option.isSome_iff_exists.1 some_
  simp [Pcu.creditedTo, hr]

/-- A channel with nothing staged has neither requester nor deadline. -/
theorem Pcu.SettingsOk.idle {p : Pcu} (ok : p.SettingsOk) {m : Chan} (idle : (p.channel m).isStaged = false) :
    (p.channel m).stagedBy = none ∧ (p.channel m).transferDeadline = none := by
  obtain ⟨by_, deadline⟩ := ok.2.2.1 m
  rw [idle] at by_ deadline
  exact ⟨by simpa using by_, by simpa using deadline⟩

/-- What transfers of a list of channels leave: the channels of the list have nothing staged, the others are as they
were, and every entry agrees with its channel. -/
theorem Pcu.SettingsOk.transferred {e : PcuEvent} (ok : e.pcu.SettingsOk) {l : List Chan} (nodup : l.Nodup) :
    let q := (l.foldl PcuEvent.transfer e).pcu
    q.gangs = e.pcu.gangs ∧ (∀ c, (q.channel c).gang = (e.pcu.channel c).gang) ∧
    (∀ c ∈ l, (q.channel c).isStaged = false ∧ (q.channel c).stagedBy = none ∧ (q.channel c).transferDeadline = none) ∧
    (∀ c, c ∉ l → q.channel c = e.pcu.channel c) ∧ ∀ d c, (q.track d c).Ok (q.channel c).effectiveGain := by
  intro q
  have eq : q = e.pcu.moved e.pcu.creditedTo (l.filter fun m => (e.pcu.channel m).isStaged) := by
    simp only [q]; rw [ok.foldl_transfer nodup]; rfl
  rw [eq]
  refine ⟨by simp, fun c => ?_, fun c hc => ?_, fun c hc => ?_, fun d c => ?_⟩
  · rw [Pcu.moved_channel]; split <;> rfl
  · rw [Pcu.moved_channel]
    cases staged : (e.pcu.channel c).isStaged with
    | true => rw [if_pos (by simp [hc, staged])]; simp [Channel.transferred, Channel.isStaged]
    | false => simpa [hc, staged] using ok.idle staged
  · simp [hc]
  · rw [Pcu.moved_channel, Pcu.moved_track]
    split
    · exact Track.transfer_ok (ok.2.2.2.2 d c)
    · exact ok.2.2.2.2 d c

/-- The transfers of whole gangs keep the settings in agreement (R19). -/
theorem Pcu.SettingsOk.foldl_transfer_ok {e : PcuEvent} (ok : e.pcu.SettingsOk) {l : List Chan} (nodup : l.Nodup)
    (whole : e.pcu.Whole l) : (l.foldl PcuEvent.transfer e).pcu.SettingsOk := by
  obtain ⟨gangs, gang, moved, rest, tracks⟩ := ok.transferred nodup
  obtain ⟨table, fields, staging, together, -⟩ := ok
  refine ⟨by rwa [gangs], fun c g => by rw [gang, gangs]; exact fields c g, fun c => ?_, fun g ms list c hc d hd => ?_,
    tracks⟩
  · by_cases mem : c ∈ l
    · simp [moved c mem]
    · rw [rest c mem]; exact staging c
  · rw [gangs] at list
    by_cases mem : c ∈ l
    · simp [moved c mem, moved d (whole g ms list c hc d hd mem)]
    · rw [rest c mem, rest d fun h => mem (whole g ms list d hd c hc h)]
      exact together g ms list c hc d hd

theorem Pcu.SettingsOk.transferGroup {e : PcuEvent} (ok : e.pcu.SettingsOk) (c : Chan) :
    (e.transferGroup c).pcu.SettingsOk :=
  ok.foldl_transfer_ok (ok.movesWith c).nodup (ok.whole_group c)

/-- An entry into a phantom transition keeps the settings in agreement (R8). -/
theorem Pcu.SettingsOk.enterTransition {e : PcuEvent} (ok : e.pcu.SettingsOk) (now : Frame) (c : Chan) (st : PhantomState)
    (frames : Nat) : (e.enterTransition now c st frames).pcu.SettingsOk := by
  have entered : ((e.setChannel c { e.pcu.channel c with
      phantomState := st, phantomTimer := some (later now frames) }).notePhantom c).pcu.SettingsOk := by
    refine ok.congr (by simp) (by simp) fun m => ?_
    by_cases hm : m = c <;> simp [hm, Channel.SameSettings]
  unfold PcuEvent.enterTransition
  dsimp only
  split
  · exact entered.transferGroup c
  · exact entered

theorem Pcu.SettingsOk.serve {e : PcuEvent} (ok : e.pcu.SettingsOk) (now : Frame) (fuel : Nat) :
    (e.serve now fuel).pcu.SettingsOk := by
  induction fuel generalizing e with
  | zero => exact ok
  | succ fuel ih =>
    unfold PcuEvent.serve
    split
    · split
      · exact ok
      · next c cs _ =>
        refine ih (Pcu.SettingsOk.enterTransition ?_ now c _ _)
        exact ok.congr (by simp) (by simp) (by simp [Channel.SameSettings])
    · exact ok

/-- A change of a channel's filter or phantom supply within an event. -/
theorem Pcu.SettingsOk.setChannel {p : Pcu} (ok : p.SettingsOk) {c : Chan} {x : Channel}
    (same : x.SameSettings (p.channel c)) : (p.setChannel c x).SettingsOk := by
  refine ok.congr (by simp) (by simp) fun m => ?_
  by_cases hm : m = c
  · subst hm; simpa using same
  · simp [hm, Channel.SameSettings]

theorem Pcu.SettingsOk.phantomField {e : PcuEvent} (ok : e.pcu.SettingsOk) (now : Frame) (c : Chan) (on : Bool) :
    (e.phantomField now c on).pcu.SettingsOk := by
  have set {x : Channel} (same : x.SameSettings (e.pcu.channel c)) (queue : List Chan) :
      Pcu.SettingsOk { e.pcu.setChannel c x with phantomQueue := queue } :=
    (ok.setChannel same).congr (by simp) (by simp) (by simp [Channel.SameSettings])
  unfold PcuEvent.phantomField
  simp only [PcuEvent.notePhantom_pcu, PcuEvent.setChannel_pcu]
  split
  · exact Pcu.SettingsOk.serve (set (by simp [Channel.SameSettings]) _) now _
  · exact set (by simp [Channel.SameSettings]) _
  · refine Pcu.SettingsOk.enterTransition (e := e.setChannel c _) ?_ now c _ _
    exact ok.setChannel (by simp [Channel.SameSettings])
  · exact ok

/-- Values staged on a channel or its gang keep the settings in agreement (R18). -/
theorem Pcu.SettingsOk.stagedOn {p : Pcu} (ok : p.SettingsOk) (now : Frame) (who : Requester) (c : Chan)
    {f : InputFields} (stages : f.stages = true) : (p.stagedOn now who c f).SettingsOk := by
  have moves := ok.movesWith c
  have whole := ok.whole_group c
  obtain ⟨table, fields, staging, together, tracks⟩ := ok
  have staged (m : Chan) : (p.groupStaged c = true) → m ∈ p.groupOf c → (p.channel m).transferDeadline.isSome = true := by
    intro any hm
    obtain ⟨n, hn, sn⟩ := List.any_eq_true.1 any
    rw [← (staging n).2] at sn
    obtain ⟨-, single⟩ | ⟨g, -, list, -, -⟩ := moves
    · rw [single] at hm hn
      rwa [List.mem_singleton.1 hm, ← List.mem_singleton.1 hn]
    · rwa [(together g _ list m hm n hn).2]
  refine ⟨by simpa using table, fun m g => ?_, fun m => ?_, fun g ms list a ha b hb => ?_, fun d m => ?_⟩
  · rw [Pcu.stagedOn_channel, (Pcu.stagedOn_other ..).1, ← fields m g]
    split <;> rfl
  · rw [Pcu.stagedOn_channel]
    split
    · next hm =>
      have carried : (f.gain.isSome || f.pad.isSome) = true := stages
      have present : ((p.channel m).stagedWith who
          (if p.groupStaged c then none else some (later now Config.zeroCrossFrames))
          (f.gain.map fun g => (p.memberGain c m g).toNat) f.pad).isStaged = true := by
        cases hg : f.gain <;> cases hp : f.pad <;> simp_all [Channel.isStaged, Channel.stagedWith]
      rw [present]
      refine ⟨rfl, ?_⟩
      by_cases any : p.groupStaged c = true
      · simpa [Channel.stagedWith, any] using staged m any hm
      · simp [Channel.stagedWith, any]
    · exact staging m
  · rw [(Pcu.stagedOn_other ..).1] at list
    rw [Pcu.stagedOn_channel, Pcu.stagedOn_channel]
    have both : a ∈ p.groupOf c ↔ b ∈ p.groupOf c := ⟨whole g ms list a ha b hb, whole g ms list b hb a ha⟩
    obtain ⟨-, deadline⟩ := together g ms list a ha b hb
    by_cases mem : b ∈ p.groupOf c
    · simp [mem, both, Channel.stagedWith, deadline]
    · simpa [mem, both] using together g ms list a ha b hb
  · have channel : ((p.stagedOn now who c f).channel m).effectiveGain = (p.channel m).effectiveGain := by
      rw [Pcu.stagedOn_channel]
      split <;> rfl
    rw [channel, Pcu.stagedOn_track]
    exact tracks d m

/-- What the forced transfer of SET_GANG leaves: nothing staged on the group's members and on the listed channels that
belong to no group (R20, step 3). -/
theorem Pcu.SettingsOk.forceGang {p : Pcu} (ok : p.SettingsOk) (g : Grp) {ms : List Chan} (nodup : ms.Nodup) :
    let q := ((PcuEvent.start p).forceGang g ms).pcu
    q.gangs = p.gangs ∧ (∀ c, (q.channel c).gang = (p.channel c).gang) ∧
    (∀ c, (p.channel c).gang = some g ∨ (c ∈ ms ∧ (p.channel c).gang = none) →
      (q.channel c).isStaged = false ∧ (q.channel c).stagedBy = none ∧ (q.channel c).transferDeadline = none) ∧
    (∀ c, (p.channel c).gang ≠ some g → c ∉ ms → q.channel c = p.channel c) ∧
    ∀ d c, (q.track d c).Ok (q.channel c).effectiveGain := by
  intro q
  have mem_members (c : Chan) : c ∈ p.members g ↔ (p.channel c).gang = some g := by
    rw [ok.2.1 c g, Pcu.members]
    cases Tbl.get p.gangs g <;> simp
  have members_nodup : (p.members g).Nodup := by
    unfold Pcu.members
    cases list : Tbl.get p.gangs g with
    | none => simp
    | some l => exact (ok.1.1 g l list).2.2
  obtain ⟨nodup, eq⟩ : ((p.members g) ++ ms.filter fun m => (p.channel m).gang.isNone).Nodup ∧
      q = (((p.members g) ++ ms.filter fun m => (p.channel m).gang.isNone).foldl PcuEvent.transfer
        (PcuEvent.start p)).pcu := by
    refine ⟨List.Nodup.append members_nodup (nodup.filter _) fun c hc hn => ?_, ?_⟩
    · have own := (mem_members c).1 hc
      simp [own] at hn
    · rw [List.foldl_append]; rfl
  obtain ⟨gangs, gang, moved, rest, tracks⟩ := Pcu.SettingsOk.transferred (e := PcuEvent.start p) ok nodup
  rw [← eq] at gangs gang moved rest tracks
  refine ⟨gangs, gang, fun c hc => moved c ?_, fun c hg hm => rest c ?_, tracks⟩
  · rcases hc with hc | ⟨hm, hc⟩
    · simp [mem_members, hc]
    · simp [hm, hc]
  · simp [mem_members, hg, hm]

/-- The gang field after SET_GANG: the listed channels have the group, its former members none (R20). -/
theorem newGang_iff {g : Grp} {ms : List Chan} {c : Chan} {old : Option Grp}
    (free : c ∈ ms → old = none ∨ old = some g) (k : Grp) :
    (if c ∈ ms then some g else if old = some g then none else old) = some k ↔
      if k = g then c ∈ ms else old = some k := by
  by_cases hk : k = g
  · subst hk
    by_cases hm : c ∈ ms
    · simp [hm]
    · by_cases hg : old = some k <;> simp [hm, hg]
  · by_cases hm : c ∈ ms
    · rcases free hm with h | h <;> simp [hm, h, hk, Ne.symm hk]
    · by_cases hg : old = some g
      · simp [hm, hg, hk, Ne.symm hk]
      · simp [hm, hg, hk]

/-- A list taken by a group keeps the settings in agreement: what was staged has been transferred (R20). -/
theorem Pcu.SettingsOk.takeGang {p : Pcu} (ok : p.SettingsOk) (g : Grp) {ms : List Chan}
    (size : ms.length = 0 ∨ (2 ≤ ms.length ∧ ms.length ≤ 8)) (nodup : ms.Nodup) (free : p.freeFor g ms = true) :
    (((PcuEvent.start p).forceGang g ms).pcu.takeGang g ms).SettingsOk := by
  have forced := ok.forceGang g nodup
  generalize ((PcuEvent.start p).forceGang g ms).pcu = q at forced
  obtain ⟨gangs, gang, moved, rest, tracks⟩ := forced
  obtain ⟨⟨lists, apart⟩, fields, staging, together, -⟩ := ok
  have members : q.members g = p.members g := by simp [Pcu.members, gangs]
  have mem_members (c : Chan) : c ∈ p.members g ↔ (p.channel c).gang = some g := by
    rw [fields c g, Pcu.members]
    cases Tbl.get p.gangs g <;> simp
  have free (m : Chan) (hm : m ∈ ms) : (p.channel m).gang = none ∨ (p.channel m).gang = some g := by
    have := List.all_eq_true.1 free m hm
    cases h : (p.channel m).gang <;> simp_all
  have channel (c : Chan) : (q.takeGang g ms).channel c =
      { q.channel c with gang :=
          if c ∈ ms then some g else if (p.channel c).gang = some g then none else (p.channel c).gang } := by
    rw [Pcu.takeGang_eq, members]
    simp only [Pcu.channel, Tbl.get_of]
    simp only [← Pcu.channel.eq_def, mem_members, ← gang c]
    split
    · rfl
    · split <;> rfl
  have table (k : Grp) : Tbl.get (q.takeGang g ms).gangs k =
      if k = g then (if ms = [] then none else some ms) else Tbl.get p.gangs k := by
    rw [Pcu.takeGang_eq]; simp [gangs]
  have listed (k : Grp) (c : Chan) : (∃ ns, Tbl.get (q.takeGang g ms).gangs k = some ns ∧ c ∈ ns) ↔
      if k = g then c ∈ ms else (p.channel c).gang = some k := by
    rw [table]
    by_cases hk : k = g
    · by_cases empty : ms = [] <;> simp [hk, empty]
    · simp [hk, fields c k]
  have field (c : Chan) (k : Grp) : ((q.takeGang g ms).channel c).gang = some k ↔
      ∃ ns, Tbl.get (q.takeGang g ms).gangs k = some ns ∧ c ∈ ns := by
    rw [listed, channel]
    exact newGang_iff (free c) k
  have clear {x : Channel} (h : x.isStaged = false ∧ x.stagedBy = none ∧ x.transferDeadline = none) :
      x.stagedBy.isSome = x.isStaged ∧ x.transferDeadline.isSome = x.isStaged := by
    obtain ⟨idle, by_, deadline⟩ := h
    simp [idle, by_, deadline]
  have idle (c : Chan) (hm : c ∈ ms) := moved c ((free c hm).elim (fun h => .inr ⟨hm, h⟩) .inl)
  have other {k : Grp} (ne : k ≠ g) {c : Chan} (own : (p.channel c).gang = some k) : q.channel c = p.channel c :=
    rest c (by simp [own, ne]) fun hm => by
      rcases free c hm with h | h
      · simp [own] at h
      · rw [own] at h; exact ne (Option.some.inj h)
  refine ⟨⟨fun k ns list => ?_, fun k l ns os hk hl c hn ho => ?_⟩, fun c k => ?_, fun c => ?_,
    fun k ns list c hc d hd => ?_, fun d c => ?_⟩
  · rw [table] at list
    split at list
    · split at list
      · cases list
      · next ne =>
        cases list
        have : ms.length ≠ 0 := by simpa using ne
        exact ⟨by omega, by omega, nodup⟩
    · exact lists k ns list
  · have inK := (field c k).2 ⟨ns, hk, hn⟩
    have inL := (field c l).2 ⟨os, hl, ho⟩
    exact Option.some.inj (inK.symm.trans inL)
  · exact field c k
  · rw [channel]
    by_cases hm : c ∈ ms
    · exact clear (idle c hm)
    · by_cases hg : (p.channel c).gang = some g
      · exact clear (moved c (.inl hg))
      · rw [rest c hg hm]; exact staging c
  · have inC := (listed k c).1 ⟨ns, list, hc⟩
    have inD := (listed k d).1 ⟨ns, list, hd⟩
    rw [channel, channel]
    by_cases hk : k = g
    · simp only [hk, if_true] at inC inD
      simp [idle c inC, idle d inD]
    · simp only [hk, if_false] at inC inD
      rw [other hk inC, other hk inD]
      obtain ⟨os, own, mem⟩ := (fields c k).1 inC
      obtain ⟨os', own', mem'⟩ := (fields d k).1 inD
      rw [own] at own'
      cases own'
      exact together k os own c mem d mem'
  · rw [channel, Pcu.takeGang_track]
    exact tracks d c

theorem Pcu.SettingsOk.change {e : PcuEvent} (ok : e.pcu.SettingsOk) (d : Desk) {f : Int → Track → Track}
    (keeps : ∀ eff t, t.Ok eff → (f eff t).Ok eff) (cs : List Chan) :
    (cs.foldl (PcuEvent.change d f) e).pcu.SettingsOk := by
  induction cs generalizing e with
  | nil => exact ok
  | cons c cs ih =>
    refine ih ?_
    obtain ⟨table, fields, staging, together, tracks⟩ := ok
    refine ⟨table, fields, staging, together, fun k m => ?_⟩
    have track : (PcuEvent.change d f e c).pcu.track k m =
        if k = d ∧ m = c then f (e.pcu.channel c).effectiveGain (e.pcu.track d c) else e.pcu.track k m :=
      Pcu.track_setTrack ..
    rw [track]
    split
    · next h => obtain ⟨rfl, rfl⟩ := h; exact keeps _ _ (tracks k m)
    · exact tracks k m

/-- Every event of PCU keeps the settings in agreement. -/
theorem Pcu.Becomes.settingsOk {now : Frame} {p q : Pcu} (b : Pcu.Becomes now p q) (ok : p.SettingsOk) :
    q.SettingsOk := by
  have ended (c : Chan) (st : PhantomState) : ((PcuEvent.start p).endTransition c st).pcu.SettingsOk := by
    rw [PcuEvent.endTransition, PcuEvent.notePhantom_pcu]
    exact ok.setChannel (by simp [Channel.SameSettings])
  cases b with
  | setInput who c f =>
    have staged : (if f.stages then (PcuEvent.start p).stage now who c f else PcuEvent.start p).pcu.SettingsOk := by
      split
      · next stages =>
        rw [PcuEvent.stage_eq]
        split
        · exact Pcu.SettingsOk.transferGroup (e := { PcuEvent.start p with pcu := p.stagedOn now who c f })
            (ok.stagedOn now who c stages) c
        · exact ok.stagedOn now who c stages
      · exact ok
    unfold PcuEvent.setInput
    dsimp only
    generalize (if f.stages then (PcuEvent.start p).stage now who c f else PcuEvent.start p) = e at staged
    have filtered (v : Hpf) : (e.hpfField who c v).pcu.SettingsOk := by
      unfold PcuEvent.hpfField
      dsimp only
      split
      · exact staged
      · exact staged.setChannel (by simp [Channel.SameSettings])
    cases f.hpf with
    | none => cases f.phantom with
      | none => exact staged
      | some on => exact staged.phantomField now c on
    | some v => cases f.phantom with
      | none => exact filtered v
      | some on => exact (filtered v).phantomField now c on
  | setGang g ms size nodup free => exact ok.takeGang g size nodup free
  | change d f cs keeps => exact Pcu.SettingsOk.change (e := PcuEvent.start p) ok d keeps cs
  | transfer c => exact Pcu.SettingsOk.transferGroup (e := PcuEvent.start p) ok c
  | charged c => exact (ended c .on).serve now _
  | discharged c => exact ended c .off

/-! ## The whole part -/

/-- The settings of PCU and the stored SHOW settings are well formed. -/
def Hub.SettingsOk (h : Hub) : Prop := h.pcu.SettingsOk ∧ h.sto.ShowOk

theorem Hub.settingsOk_iff (h : Hub) : h.SettingsOk ↔ h.GangsOk ∧ h.TracksOk ∧ h.sto.ShowOk := by
  unfold Hub.SettingsOk Pcu.SettingsOk Hub.GangsOk Hub.TracksOk
  simp only [and_assoc]

/-- The running SHOW values can be restored (R178). -/
theorem Pcu.SettingsOk.showData {h : Hub} (ok : h.pcu.SettingsOk) : h.showData.Ok := by
  obtain ⟨table, -, -, -, tracks⟩ := ok
  refine ⟨table, fun d c => ?_⟩
  simp only [Hub.showData, PerDesk.get_of, Tbl.get_of]
  obtain ⟨ref, lo, hi, -⟩ := tracks d c
  exact ⟨ref, lo, hi⟩

/-- The SHOW defaults can be restored. -/
theorem ShowData.defaults_ok : ShowData.defaults.Ok := by
  refine ⟨⟨fun g ms h => ?_, fun g k ms ns h => ?_⟩, fun d c => ?_⟩
  · simp [ShowData.defaults] at h
  · simp [ShowData.defaults] at h
  · simp [ShowData.defaults]

/-- A Gang Table in which no channel stands twice gives each channel the group whose list has it (R24). -/
theorem gangOf_iff {gangs : Vector (Option (List Chan)) 12} (ok : gangsOk gangs) (c : Chan) (g : Grp) :
    gangOf gangs c = some g ↔ ∃ ms, Tbl.get gangs g = some ms ∧ c ∈ ms := by
  have lists (k : Grp) : ((Tbl.get gangs k).getD []).contains c = true ↔ ∃ ms, Tbl.get gangs k = some ms ∧ c ∈ ms := by
    cases Tbl.get gangs k <;> simp
  unfold gangOf
  constructor
  · intro h
    exact (lists g).1 (List.find?_some (p := fun k => ((Tbl.get gangs k).getD []).contains c) h)
  · intro h
    cases found : (List.finRange 12).find? fun k => ((Tbl.get gangs k).getD []).contains c with
    | none => exact absurd ((lists g).2 h) (by simpa using List.find?_eq_none.1 found g (List.mem_finRange g))
    | some k =>
      obtain ⟨ms, list, mem⟩ := h
      obtain ⟨ns, list', mem'⟩ := (lists k).1
        (List.find?_some (p := fun k => ((Tbl.get gangs k).getD []).contains c) found)
      rw [ok.2 g k ms ns list list' c mem mem']

/-- What power-on restores from SHOW settings that can be restored is in agreement (R24, R37). -/
theorem ShowData.Ok.pcu {x : ShowData} (ok : x.Ok) (restore : Bool) (samples : Vector Sample 72) :
    (x.pcu restore samples).SettingsOk := by
  obtain ⟨table, entries⟩ := ok
  have channel (c : Chan) : (x.pcu restore samples).channel c = x.channel restore c := by
    simp [ShowData.pcu, Pcu.channel]
  have track (d : Desk) (c : Chan) : (x.pcu restore samples).track d c =
      x.track d c (x.channel restore c).effectiveGain := by
    simp [ShowData.pcu, Pcu.track]
  refine ⟨table, fun c g => ?_, fun c => ?_, fun g ms _ c _ d _ => ?_, fun d c => ?_⟩
  · rw [channel]; exact gangOf_iff table c g
  · rw [channel]; exact ⟨rfl, rfl⟩
  · rw [channel, channel]; exact ⟨rfl, rfl⟩
  · rw [channel, track]
    obtain ⟨ref, lo, hi⟩ := entries d c
    unfold ShowData.track
    dsimp only
    split
    · next on =>
      obtain ⟨r, hr⟩ := Option.isSome_iff_exists.1 (ref.2 on)
      exact Track.derive_ok hr rfl
    · exact ⟨by simp, lo, hi, by simp, by simp⟩

/-- The restored Phantom Queue (R24). -/
theorem ShowData.pcu_queue (x : ShowData) (restore : Bool) (samples : Vector Sample 72) :
    (x.pcu restore samples).phantomQueue =
      (List.finRange 72).filter fun c => (x.channel restore c).phantomState = .queued := by
  simp only [ShowData.pcu, Tbl.get_of]

/-- PCU at power-on: the restored records, the Phantom Queue served. -/
theorem Hub.restored_pcu (h : Hub) (pins : Pins) (ports : PortSamples) :
    (h.restored pins ports).pcu = ((PcuEvent.start (h.sto.readShow.pcu h.sto.readInstall.settings.phantomRestore
      ports.inputs)).serveQueue 0#32).pcu := by
  simp only [Hub.restored, Pcu.powerOn]

theorem Hub.restored_sto (h : Hub) (pins : Pins) (ports : PortSamples) :
    (h.restored pins ports).sto.showRegion = h.sto.showRegion ∧ (h.restored pins ports).sto.running = none := by
  simp [Hub.restored, Sto.powerOn]

/-- The start of a write leaves PCU. -/
@[simp] theorem startWrite_pcu (e : WriteEntry) (h : Hub) : (startWrite e h).pcu = h.pcu := by simp only [startWrite]

/-- The start of a write leaves what the SHOW region holds, and takes the snapshot of its entry (R181). -/
theorem startWrite_sto (e : WriteEntry) (h : Hub) :
    (startWrite e h).sto.showRegion.contents = h.sto.showRegion.contents ∧
      (startWrite e h).sto.running = some ⟨e, h.snapshot e, later h.now Config.writeFaultFrames⟩ := by
  simp [startWrite]

/-- Power-on restores a Phantom Queue of the queued channels, none of which charges yet (R24). -/
theorem ShowData.pcu_phantomOk (x : ShowData) (restore : Bool) (samples : Vector Sample 72) :
    (x.pcu restore samples).PhantomOk := by
  have channel (c : Chan) : (x.pcu restore samples).channel c = x.channel restore c := by
    simp [ShowData.pcu, Pcu.channel]
  refine ⟨?_, by rw [x.pcu_queue]; exact (List.nodup_finRange 72).filter _, fun c => ?_⟩
  · have none_ : (List.finRange 72).filter (fun c => ((x.pcu restore samples).channel c).phantomState = .charging) = [] := by
      refine List.filter_eq_nil_iff.2 fun c _ => ?_
      rw [channel]
      unfold ShowData.channel
      dsimp only
      split <;> simp
    unfold Pcu.charging
    rw [none_]
    exact Nat.zero_le 8
  · rw [channel, x.pcu_queue]
    simp

/-- The Phantom Queue is kept by all that can change the preamps. -/
theorem kept_phantomOk : Kept fun h => h.pcu.PhantomOk where
  same := by
    intro h k e ok
    refine Pcu.SamePhantom.ok ⟨congrArg Preamp.phantomQueue e, fun c => ?_⟩ ok
    have : k.pcu.channels = h.pcu.channels := congrArg Preamp.channels e
    simp [Pcu.channel, this]
  becomes b ok := b.phantomOk ok
  starts e ok := by rwa [startWrite_pcu]
  completes _ ok := ok
  stops ok := ok
  advances _ ok := ok
  restored pins ports _ := by
    rw [Hub.restored_pcu]
    exact PcuEvent.serve_phantomOk 0#32 _ (ShowData.pcu_phantomOk ..)

/-- The settings are kept in agreement by all that can change the preamps or the stored SHOW settings. -/
theorem kept_settingsOk : Kept Hub.SettingsOk where
  same := by
    rintro h k e ⟨settings, region, running⟩
    have channels : k.pcu.channels = h.pcu.channels := congrArg Preamp.channels e
    have tracking : k.pcu.tracking = h.pcu.tracking := congrArg Preamp.tracking e
    have stored : k.sto.showRegion = h.sto.showRegion := congrArg Preamp.showRegion e
    have run : k.sto.running = h.sto.running := congrArg Preamp.running e
    refine ⟨settings.congr (congrArg Preamp.gangs e) (fun d c => by simp [Pcu.track, tracking]) fun c => ?_,
      by rwa [stored], by rwa [run]⟩
    simp [Pcu.channel, channels, Channel.SameSettings]
  becomes b ok := ⟨b.settingsOk ok.1, ok.2⟩
  starts := by
    rintro h e ⟨settings, region, running⟩
    refine ⟨by rwa [startWrite_pcu], ?_, fun w data run snap => ?_⟩
    · rwa [(startWrite_sto e h).1]
    · rw [(startWrite_sto e h).2] at run
      obtain rfl := Option.some.inj run
      unfold Hub.snapshot at snap
      split at snap
      · rw [← Snapshot.showData.inj snap]; exact settings.showData
      · split at snap <;> exact Snapshot.noConfusion snap
  completes := by
    rintro h w run ⟨settings, region, running⟩
    refine ⟨settings, ?_, by simp⟩
    cases snap : w.snapshot with
    | install image => exact region
    | showData data => exact running w data run snap
  stops := by
    rintro h ⟨settings, region, -⟩
    exact ⟨settings, region, by simp⟩
  advances := by
    rintro h ports ⟨settings, stored⟩
    exact ⟨settings.congr rfl (fun _ _ => rfl) fun _ => ⟨rfl, rfl, rfl, rfl, rfl, rfl, rfl⟩, stored⟩
  restored := by
    rintro h pins ports ⟨-, region, -⟩
    have shown : h.sto.readShow.Ok := by
      unfold Sto.readShow Region.read
      split
      · exact region
      · exact ShowData.defaults_ok
    obtain ⟨stored, idle⟩ := h.restored_sto pins ports
    refine ⟨?_, by rwa [stored], by simp [idle]⟩
    rw [Hub.restored_pcu]
    exact Pcu.SettingsOk.serve (e := PcuEvent.start _) (shown.pcu _ _) 0#32 _

/-- Settles O57: the Phantom Queue, the Gang Table, the tracking entries and the stored SHOW settings are kept by every
event of PCU and STO, and the other operations leave them alone. -/
theorem stepKeepsThePhantomQueue : Obligations.StepKeepsThePhantomQueue := by
  unfold Obligations.StepKeepsThePhantomQueue
  refine ⟨fun s t ok e => kept_phantomOk.step ok e, fun s t gangs tracks show_ e => ?_⟩
  exact t.hub.settingsOk_iff.1 (kept_settingsOk.step (s.hub.settingsOk_iff.2 ⟨gangs, tracks, show_⟩) e)

end Sys2Proof.Machine
end

/-!
What a request of PCU does, said once: a request of a free requester reaches its owner, a SET_INPUT that passes its checks
commits its event and is answered DONE, and a committed event sends its notices in the order of R8, R19 and R30.
-/
section
namespace Sys2Proof.Machine

/-! ## A request reaches its owner (R157, R159) -/

/-- A request that the requester may make is handed to its owner in the event of its arrival. -/
theorem submit_handOver {who : Requester} {h : Hub} (free : Free who h) (tag : Byte) {c : Call}
    (known : knownKind c.kind = true) (open_ : panelOnly c.kind = false ∨ who = .panel) :
    submit who tag c h = handOver who h.sto.erasePrepared c (h.taken who tag c) := by
  rw [submit_free free]
  unfold carryOut
  rcases open_ with h | h <;> simp [known, h]

/-- A channel's own number names it (Table 8-5). -/
@[simp] theorem chan?_num (c : Chan) : chan? (c.1 + 1) = some c := by
  have := c.2
  simp only [chan?]
  rw [dif_pos (by omega)]
  rfl

@[simp] theorem grp?_num (g : Grp) : grp? (g.1 + 1) = some g := by
  have := g.2
  simp only [grp?]
  rw [dif_pos (by omega)]
  rfl

/-- A request that did nothing but be answered. -/
theorem Hub.answered_eq (h : Hub) (who : Requester) (tag : Byte) (c : Call) (code : Code) (body : List Byte) :
    answerTo who code body (h.taken who tag c) = h.answered who tag c code body := rfl

/-! ## Committing an event of PCU -/

/-- An event that has only changed records sends nothing. -/
theorem commitPcu_quiet {e : PcuEvent} (h : Hub) (phantom : e.phantom = []) (limits : e.limits = [])
    (changed : e.changed = []) (report : e.report = false) : commitPcu e h = { h with pcu := e.pcu } := by
  unfold commitPcu PcuEvent.phantomNotices
  simp only [phantom, limits, changed, report]
  split <;> rfl

/-- An event that did nothing leaves the part. -/
theorem commitPcu_start (h : Hub) : commitPcu (PcuEvent.start h.pcu) h = h := commitPcu_quiet h rfl rfl rfl rfl

/-- An event without a transfer that changes phantom states: PHANTOM_STATE and the report (R15, R23). -/
theorem commitPcu_phantom {e : PcuEvent} (h : Hub) (limits : e.limits = []) (changed : e.changed = [])
    (report : e.report = true) :
    commitPcu e h = showReport (notifyEach e.phantomNotices { h with pcu := e.pcu }) := by
  unfold commitPcu
  simp only [limits, changed, report]
  split <;> rfl

/-- An event with a transfer: PHANTOM_STATE of the entry that forced it, TRACK_LIMIT, INPUT_CHANGED, the report (R8, R9). -/
theorem commitPcu_transfer {e : PcuEvent} (h : Hub) (first : e.forced = true ∨ e.phantom = []) (report : e.report = true) :
    commitPcu e h = showReport (notifyEach e.changed (notifyLimits e.limits (notifyEach e.phantomNotices
      { h with pcu := e.pcu }))) := by
  unfold commitPcu PcuEvent.phantomNotices
  simp only [report]
  rcases first with f | f
  · simp only [f, if_true]; rfl
  · simp only [f]
    split <;> rfl

@[simp] theorem Channel.settled_commanded (x : Channel) : x.settled x.commandedGain x.commandedPad = x.transferred := rfl

/-- What an event with a transfer leaves is `Hub.transferred` of it: `p` are PCU's records before the transfer, `q` those
that the event leaves. -/
theorem Hub.transferred_eq {h : Hub} {ms : List Chan} {credited : Chan → Requester} {y : Chan → Channel} {p q : Pcu}
    (first : List Notice) (track : ∀ d m, p.track d m = h.pcu.track d m)
    (eff : ∀ m ∈ ms, (p.channel m).effectiveGain = (h.pcu.channel m).effectiveGain)
    (applied : ∀ m ∈ ms, (y m).gain = (p.channel m).transferred.gain ∧ (y m).pad = (p.channel m).transferred.pad ∧
      (y m).hpf = (p.channel m).hpf ∧ (y m).phantomTarget = (p.channel m).phantomTarget)
    (channels : ∀ m, q.channel m = y m) (tracks : ∀ d m, q.track d m = (p.moved credited ms).track d m)
    (others : q.gangs = h.pcu.gangs ∧ q.phantomQueue = h.pcu.phantomQueue ∧ q.before = h.pcu.before ∧
      q.samples = h.pcu.samples) :
    h.transferred ms credited y first =
      showReport (notifyEach (ms.map fun m => (p.channel m).transferred.inputChanged m (credited m))
        (notifyLimits (ms.flatMap fun m => p.limitsOf (credited m) m) (notifyEach first { h with pcu := q }))) := by
  have gain {m : Chan} (hm : m ∈ ms) : (y m).effectiveGain = (p.channel m).transferred.effectiveGain := by
    obtain ⟨gain, pad, -⟩ := applied m hm
    simp [Channel.effectiveGain, gain, pad]
  have entry {m : Chan} (hm : m ∈ ms) (d : Desk) :
      (h.pcu.track d m).transfer (y m).effectiveGain ((y m).effectiveGain - (h.pcu.channel m).effectiveGain)
        (decide (credited m = d.req)) = p.followed (credited m) d m := by
    simp only [Pcu.followed, gain hm, eff m hm, track]
  have limits : (ms.flatMap fun m => p.limitsOf (credited m) m) = ms.flatMap fun m =>
      (Desk.all.filter fun d => !decide ((h.pcu.track d m).limitMark = (p.followed (credited m) d m).limitMark)).map
        fun d => (d, Notice.trackLimit m (p.followed (credited m) d m).limitMark (p.followed (credited m) d m).trim
          (p.followed (credited m) d m).reference (y m).effectiveGain) := by
    refine List.flatMap_congr fun m hm => ?_
    simp only [Pcu.limitsOf, track, gain hm]
  have changed : (ms.map fun m => (p.channel m).transferred.inputChanged m (credited m)) = ms.map fun m =>
      Notice.inputChanged m (y m).gain (y m).pad (y m).hpf (y m).phantomTarget (credited m) := by
    refine List.map_congr_left fun m hm => ?_
    obtain ⟨gain, pad, hpf, target⟩ := applied m hm
    simp only [Channel.inputChanged, gain, pad, hpf, target]
    rfl
  have pcu : { h.pcu with
      channels := Tbl.of y
      tracking := PerDesk.of fun d => Tbl.of fun m =>
        if m ∈ ms then (h.pcu.track d m).transfer (y m).effectiveGain
          ((y m).effectiveGain - (h.pcu.channel m).effectiveGain) (decide (credited m = d.req))
        else h.pcu.track d m } = q := by
    obtain ⟨gangs, queue, samples⟩ := others
    refine Pcu.ext_track (fun m => ?_) gangs.symm queue.symm (fun d m => ?_) ⟨samples.1.symm, samples.2.symm⟩
    · rw [channels]; simp [Pcu.channel]
    · rw [tracks, Pcu.moved_track]
      simp only [Pcu.track, PerDesk.get_of, Tbl.get_of]
      split
      · next hm => exact entry hm d
      · exact (track d m).symm
  unfold Hub.transferred
  dsimp only
  rw [limits, changed, ← pcu]
  refine congrArg showReport (congrArg (notifyEach _) (congrArg (notifyLimits · _) ?_))
  refine List.flatMap_congr fun m hm => ?_
  simp only [entry hm]

end Sys2Proof.Machine
end

/-!
SET_INPUT (R3 to R5, R8, R11, R17 to R19): its checks, its event on a channel and on a gang.
-/
section
namespace Sys2Proof.Machine

/-! ## The checks (R3, R17) -/

/-- SET_INPUT's row is the arrival of the request at PCU (log entry 2). -/
theorem exec_setInput {who : Requester} {s : State} (free : Free who s.hub) (tag : Byte) (ch : Nat)
    (gain pad hpf phantom : Option Nat) :
    exec (.setInput who tag ch gain pad hpf phantom) s = .next (s.withHub
      (pcuSetInput who ch gain pad hpf phantom (s.hub.taken who tag (.setInput ch gain pad hpf phantom)))) := by
  have := submit_handOver free tag (c := .setInput ch gain pad hpf phantom) rfl (.inl rfl)
  exact congrArg (fun k => Host.Outcome.next (s.withHub k)) this

/-- The permission check reads the claims and the gangs alone. -/
theorem inputPermission_congr {h k : Hub} (arb : k.arb = h.arb) (pcu : k.pcu = h.pcu) (who : Requester) (c : Chan)
    (f : InputFields) : inputPermission k who c f = inputPermission h who c f := by
  simp [inputPermission, arb, pcu]

/-- A SET_INPUT that passes its checks is carried out and answered DONE. -/
theorem setInput_done {who : Requester} {c : Chan} {gain pad hpf phantom : Option Nat} {f : InputFields} {s : State}
    (free : Free who s.hub) (fields : inputFields? gain pad hpf phantom = some f)
    (fits : s.hub.pcu.gainFits c f.gain = true) (permitted : inputPermission s.hub who c f = none)
    (agrees : phantomOpposes (s.hub.pcu.channel c).phantomState f.phantom = false) (tag : Byte) :
    exec (.setInput who tag (c.1 + 1) gain pad hpf phantom) s = .next (s.withHub (answerTo who .done []
      (commitPcu ((PcuEvent.start s.hub.pcu).setInput s.hub.now who c f)
        (s.hub.taken who tag (.setInput (c.1 + 1) gain pad hpf phantom))))) := by
  rw [exec_setInput free]
  simp [pcuSetInput, fields, fits, inputPermission_congr (h := s.hub), permitted, agrees]

/-- The fields of a SET_INPUT with gain and pad alone. -/
theorem inputFields?_stages {gain : Option Nat} {pad : Option Bool} (range : ∀ g, gain = some g → g ≤ 127) :
    inputFields? gain (pad.map fun b => if b then 1 else 0) none none = some ⟨gain, pad, none, none⟩ := by
  have g : opt? gain? gain = some gain := by
    cases gain with
    | none => rfl
    | some g => simp [opt?, gain?, range g rfl]
  have p : opt? offOn? (pad.map fun b => if b then 1 else 0) = some pad := by
    rcases pad with _ | _ | _ <;> rfl
  unfold inputFields?
  rw [g, p]
  rfl

theorem inputFields?_hpf (v : Hpf) : inputFields? none none (some v.pos) none = some ⟨none, none, some v, none⟩ := by
  cases v <;> rfl

theorem inputFields?_phantom (on : Bool) :
    inputFields? none none none (some (if on then 1 else 0)) = some ⟨none, none, none, some on⟩ := by
  cases on <;> rfl

/-- A request for gain or pad stages. -/
theorem stages_of {gain : Option Nat} {pad : Option Bool} (carried : gain ≠ none ∨ pad ≠ none) :
    (InputFields.mk gain pad none none).stages = true := by
  rcases carried with h | h
  · simp [InputFields.stages, Option.isSome_iff_ne_none.2 h]
  · simp [InputFields.stages, Option.isSome_iff_ne_none.2 h]

/-- Permission to stage on a channel or its gang (R17). -/
theorem inputPermission_stages {h : Hub} {who : Requester} {c : Chan} {f : InputFields} (stages : f.stages = true)
    (permitted : ∀ m ∈ h.pcu.groupOf c, h.arb.permission who (Chan.res m) = .permitted) :
    inputPermission h who c f = none := by
  have all : (h.pcu.groupOf c).all (fun m => h.arb.permits who (Chan.res m)) = true := by
    simpa [Arb.permits] using permitted
  unfold inputPermission
  rw [all, stages]
  cases gang : (h.pcu.channel c).gang with
  | none =>
    have : h.arb.permission who (Chan.res c) = .permitted := permitted c (by simp [Pcu.groupOf, gang])
    rw [this]
    split <;> rfl
  | some g => split <;> rfl

/-- Permission for the filter or the phantom field, which concern the channel alone. -/
theorem inputPermission_single {h : Hub} {who : Requester} {c : Chan} {f : InputFields} (single : f.stages = false)
    (permitted : h.arb.permission who (Chan.res c) = .permitted) : inputPermission h who c f = none := by
  unfold inputPermission
  rw [single, permitted]
  split <;> rfl

/-- The range check of a gang's gains, by the delta of the named channel (R17). -/
theorem gainFits_of {p : Pcu} {c : Chan} {gain : Option Nat}
    (range : ∀ m ∈ p.groupOf c, gain ≠ none →
      0 ≤ ((p.channel m).commandedGain : Int) + ((gain.getD (p.channel c).commandedGain : Int) - (p.channel c).commandedGain) ∧
      ((p.channel m).commandedGain : Int) + ((gain.getD (p.channel c).commandedGain : Int) - (p.channel c).commandedGain)
        ≤ 127) :
    p.gainFits c gain = true := by
  cases gain with
  | none => rfl
  | some g =>
    simp only [Pcu.gainFits, List.all_eq_true, decide_eq_true_eq]
    intro m hm
    simpa [Pcu.memberGain] using range m hm (by simp)

/-- A channel alone takes a gain in range. -/
theorem gainFits_alone {p : Pcu} {c : Chan} {gain : Option Nat} (alone : (p.channel c).gang = none)
    (range : ∀ g, gain = some g → g ≤ 127) : p.gainFits c gain = true := by
  refine gainFits_of fun m hm carried => ?_
  have hm : m ∈ [c] := by simpa [Pcu.groupOf, alone] using hm
  obtain ⟨g, rfl⟩ := Option.ne_none_iff_exists'.1 carried
  have := range g rfl
  simp only [List.mem_singleton.1 hm, Option.getD_some]
  omega

/-! ## Staging (R4, R17, R18) -/

/-- What a SET_INPUT for gain or pad commits: the values staged, and transferred at once in phantom transition. -/
theorem setInput_stages (p : Pcu) (now : Frame) (who : Requester) (c : Chan) {gain : Option Nat} {pad : Option Bool}
    (carried : gain ≠ none ∨ pad ≠ none) :
    (PcuEvent.start p).setInput now who c ⟨gain, pad, none, none⟩ =
      (PcuEvent.start p).stage now who c ⟨gain, pad, none, none⟩ := by
  simp [PcuEvent.setInput, stages_of carried]

/-- A member's new commanded gain, by the delta of the named channel (R17). -/
theorem memberGain_eq (p : Pcu) (c m : Chan) (gain : Option Nat) :
    (gain.map fun g => (p.memberGain c m g).toNat) =
      if gain = none then none else some (((p.channel m).commandedGain : Int) +
        ((gain.getD (p.channel c).commandedGain : Int) - (p.channel c).commandedGain)).toNat := by
  cases gain <;> simp [Pcu.memberGain]

/-- The named channel's new commanded gain is the one given. -/
theorem memberGain_self (p : Pcu) (c : Chan) (gain : Option Nat) :
    (gain.map fun g => (p.memberGain c c g).toNat) = gain := by
  cases gain with
  | none => rfl
  | some g =>
    have : (p.memberGain c c g).toNat = g := by simp only [Pcu.memberGain]; omega
    simp [this]

/-- Staging outside phantom transition. -/
theorem stage_waits {p : Pcu} {c : Chan} (still : ∀ m ∈ p.groupOf c, (p.channel m).inTransition = false) (now : Frame)
    (who : Requester) (f : InputFields) :
    (PcuEvent.start p).stage now who c f = { PcuEvent.start p with pcu := p.stagedOn now who c f } := by
  rw [PcuEvent.stage_eq, if_neg]
  · rfl
  · simpa using still

/-- A SET_INPUT for gain or pad outside phantom transition stages its values on the channels that move together. -/
theorem setInput_stages_done {who : Requester} {c : Chan} {gain : Option Nat} {pad : Option Bool}
    {s : State} (free : Free who s.hub) (range : ∀ g, gain = some g → g ≤ 127) (carried : gain ≠ none ∨ pad ≠ none)
    (fits : s.hub.pcu.gainFits c gain = true)
    (still : ∀ m ∈ s.hub.pcu.groupOf c, (s.hub.pcu.channel m).inTransition = false)
    (permitted : ∀ m ∈ s.hub.pcu.groupOf c, s.hub.arb.permission who (Chan.res m) = .permitted) (tag : Byte) :
    let padField := pad.map fun b => if b then 1 else 0
    exec (.setInput who tag (c.1 + 1) gain padField none none) s = .next (s.withHub (answerTo who .done []
      { s.hub.taken who tag (.setInput (c.1 + 1) gain padField none none) with
        pcu := s.hub.pcu.stagedOn s.hub.now who c ⟨gain, pad, none, none⟩ })) := by
  intro padField
  have none_opposes (st : PhantomState) : phantomOpposes st none = false := by cases st <;> rfl
  rw [setInput_done free (inputFields?_stages range) fits (inputPermission_stages (stages_of carried) permitted)
    (none_opposes _), setInput_stages _ _ _ _ carried, stage_waits still, commitPcu_quiet _ rfl rfl rfl rfl]

/-- Settles O10: on one channel and on a gang, the staged records are those that staging on the channels that move
together gives. -/
theorem setInputStagesGainAndPad : Obligations.SetInputStagesGainAndPad := by
  unfold Obligations.SetInputStagesGainAndPad
  constructor
  · intro who tag c gain pad s free range carried alone still permitted x padField
    have group : s.hub.pcu.groupOf c = [c] := by simp [Pcu.groupOf, alone]
    rw [setInput_stages_done free range carried (gainFits_alone alone range) (by simpa [group] using still)
      (by simpa [group] using permitted)]
    have staged : s.hub.pcu.stagedOn s.hub.now who c ⟨gain, pad, none, none⟩ = s.hub.pcu.setChannel c { x with
        stagedGain := gain.or x.stagedGain
        stagedPad := pad.or x.stagedPad
        stagedBy := some who
        transferDeadline := if x.isStaged then x.transferDeadline else some (later s.hub.now 2400) } := by
      have any : s.hub.pcu.groupStaged c = x.isStaged := by simp [Pcu.groupStaged, group, x]
      refine Pcu.ext_channel (fun m => ?_) (by simp) (by simp) (by simp) (by simp)
      rw [Pcu.stagedOn_channel, group, Pcu.channel_setChannel, any]
      by_cases hm : m = c
      · subst hm
        simp only [List.mem_singleton, if_true, Channel.stagedWith, memberGain_self, x, Config.zeroCrossFrames]
        split <;> rfl
      · simp [hm]
    rw [staged]
  · intro who tag c g ms gain pad s free range carried member list each delta fits padField staged
    have group : s.hub.pcu.groupOf c = ms := by simp [Pcu.groupOf, member, list]
    rw [setInput_stages_done free range carried (gainFits_of (by rwa [group])) (by simpa [group] using fun m hm => (each m hm).1)
      (by simpa [group] using fun m hm => (each m hm).2)]
    have any : s.hub.pcu.groupStaged c = staged := by simp [Pcu.groupStaged, group, staged]
    have records : s.hub.pcu.stagedOn s.hub.now who c ⟨gain, pad, none, none⟩ = { s.hub.pcu with
        channels := Tbl.of fun m =>
          let x := s.hub.pcu.channel m
          if m ∈ ms then { x with
            stagedGain := if gain = none then x.stagedGain else some (x.commandedGain + delta).toNat
            stagedPad := pad.or x.stagedPad
            stagedBy := some who
            transferDeadline := if staged then x.transferDeadline else some (later s.hub.now 2400) }
          else x } := by
      refine Pcu.ext_channel (fun m => ?_) (by simp) (by simp) (by simp) (by simp)
      rw [Pcu.stagedOn_channel, group, any]
      simp only [Pcu.channel, Tbl.get_of]
      simp only [← Pcu.channel.eq_def, memberGain_eq, Channel.stagedWith]
      by_cases hg : gain = none <;> cases staged <;> simp [hg, delta, Config.zeroCrossFrames]
    rw [records]

end Sys2Proof.Machine
end

/-!
The filter and the phantom supply (R5, R10 to R15, Table 1-2): the fields of SET_INPUT, and the expiry of a phantom timer.
-/
section
namespace Sys2Proof.Machine

/-- A SET_INPUT for the filter or the phantom supply alone is carried out and answered DONE. -/
theorem setInput_single_done {who : Requester} {c : Chan} {hpf phantom : Option Nat} {f : InputFields} {s : State}
    (free : Free who s.hub) (fields : inputFields? none none hpf phantom = some f) (gain : f.gain = none)
    (single : f.stages = false) (permitted : s.hub.arb.permission who (Chan.res c) = .permitted)
    (agrees : phantomOpposes (s.hub.pcu.channel c).phantomState f.phantom = false) (tag : Byte) :
    exec (.setInput who tag (c.1 + 1) none none hpf phantom) s = .next (s.withHub (answerTo who .done []
      (commitPcu ((PcuEvent.start s.hub.pcu).setInput s.hub.now who c f)
        (s.hub.taken who tag (.setInput (c.1 + 1) none none hpf phantom))))) :=
  setInput_done free fields (by rw [gain]; rfl) (inputPermission_single single permitted) agrees tag

/-- A phantom field that opposes a transition is answered BUSY (R3, check 3). -/
theorem setInput_busy {who : Requester} {c : Chan} {on : Bool} {s : State} (free : Free who s.hub)
    (permitted : s.hub.arb.permission who (Chan.res c) = .permitted)
    (opposes : phantomOpposes (s.hub.pcu.channel c).phantomState (some on) = true) (tag : Byte) :
    let call := Call.setInput (c.1 + 1) none none none (some (if on then 1 else 0))
    exec (.setInput who tag (c.1 + 1) none none none (some (if on then 1 else 0))) s =
      .next (s.withHub (s.hub.answered who tag call .busy [])) := by
  intro call
  have allowed : inputPermission (s.hub.taken who tag call) who c ⟨none, none, none, some on⟩ = none := by
    rw [inputPermission_congr (h := s.hub) (by simp) (by simp)]
    exact inputPermission_single rfl permitted
  rw [exec_setInput free]
  simp only [pcuSetInput, chan?_num, inputFields?_phantom, Hub.taken_other]
  rw [if_pos (by rfl), allowed]
  simp only [opposes, if_true]
  rfl

/-! ## Entries into a phantom transition (R8, R10) -/

/-- Staging in a group depends on the gangs and the staged values alone. -/
theorem Pcu.groupStaged_congr {p q : Pcu} {c : Chan} (gangs : q.gangs = p.gangs)
    (gang : (q.channel c).gang = (p.channel c).gang)
    (staged : ∀ m, (q.channel m).isStaged = (p.channel m).isStaged) : q.groupStaged c = p.groupStaged c := by
  simp [Pcu.groupStaged, Pcu.groupOf_congr gang gangs, staged]

/-- A change of a channel's phantom supply leaves what is staged. -/
theorem Pcu.groupStaged_setChannel {p : Pcu} {b c : Chan} {x : Channel} (gang : x.gang = (p.channel b).gang)
    (staged : x.isStaged = (p.channel b).isStaged) : (p.setChannel b x).groupStaged c = p.groupStaged c := by
  refine Pcu.groupStaged_congr (by simp) ?_ fun m => ?_
  · by_cases h : c = b
    · subst h; simpa using gang
    · simp [h]
  · by_cases h : m = b
    · subst h; simpa using staged
    · simp [h]

/-- A channel enters a transition: its state, its timer and its note, before what is staged transfers. -/
def PcuEvent.entering (e : PcuEvent) (now : Frame) (c : Chan) (st : PhantomState) (frames : Nat) : PcuEvent :=
  (e.setChannel c { e.pcu.channel c with phantomState := st, phantomTimer := some (later now frames) }).notePhantom c

@[simp] theorem PcuEvent.entering_pcu (e : PcuEvent) (now : Frame) (c : Chan) (st : PhantomState) (frames : Nat) :
    (e.entering now c st frames).pcu =
      e.pcu.setChannel c { e.pcu.channel c with phantomState := st, phantomTimer := some (later now frames) } := by
  simp [PcuEvent.entering]

theorem PcuEvent.groupStaged_entering (e : PcuEvent) (now : Frame) (c : Chan) (st : PhantomState) (frames : Nat) :
    (e.entering now c st frames).pcu.groupStaged c = e.pcu.groupStaged c := by
  rw [PcuEvent.entering_pcu]
  exact Pcu.groupStaged_setChannel (p := e.pcu) (b := c) rfl rfl

/-- An entry into a phantom transition with nothing staged. -/
theorem PcuEvent.enterTransition_idle {e : PcuEvent} {c : Chan} (idle : e.pcu.groupStaged c = false) (now : Frame)
    (st : PhantomState) (frames : Nat) : e.enterTransition now c st frames = e.entering now c st frames := by
  have : (e.entering now c st frames).pcu.groupStaged c = false := by rw [PcuEvent.groupStaged_entering, idle]
  exact if_neg (Bool.eq_false_iff.1 this)

/-- The channels that move together, staged by one requester, transfer together (R19). -/
theorem PcuEvent.transferGroup_staged {e : PcuEvent} {c : Chan} {ms : List Chan} {credited : Requester}
    (group : e.pcu.groupOf c = ms) (nodup : ms.Nodup)
    (staged : ∀ m ∈ ms, (e.pcu.channel m).isStaged = true ∧ (e.pcu.channel m).stagedBy = some credited) :
    e.transferGroup c = e.moved (fun _ => credited) ms := by
  have all : (ms.filter fun m => (e.pcu.channel m).isStaged) = ms :=
    List.filter_eq_self.2 fun m hm => (staged m hm).1
  unfold PcuEvent.transferGroup
  rw [group, PcuEvent.foldl_transfer (credited := fun _ => credited) nodup e fun m hm _ => (staged m hm).2, all]

/-- An entry into a phantom transition with values staged: they transfer in the same event (R8, R10). -/
theorem PcuEvent.enterTransition_staged {e : PcuEvent} {c : Chan} {ms : List Chan} {credited : Requester}
    (together : e.pcu.MovesWith c ms)
    (staged : ∀ m ∈ ms, (e.pcu.channel m).isStaged = true ∧ (e.pcu.channel m).stagedBy = some credited)
    (now : Frame) (st : PhantomState) (frames : Nat) :
    e.enterTransition now c st frames =
      { (e.entering now c st frames).moved (fun _ => credited) ms with forced := true } := by
  have some_ : (e.entering now c st frames).pcu.groupStaged c = true := by
    rw [PcuEvent.groupStaged_entering]
    exact List.any_eq_true.2 ⟨c, by rw [together.groupOf]; exact together.mem, (staged c together.mem).1⟩
  have group : (e.entering now c st frames).pcu.groupOf c = ms := by
    rw [← together.groupOf]
    exact Pcu.groupOf_congr (by simp) (by simp)
  have kept : ∀ m ∈ ms, ((e.entering now c st frames).pcu.channel m).isStaged = true ∧
      ((e.entering now c st frames).pcu.channel m).stagedBy = some credited := by
    intro m hm
    by_cases h : m = c
    · subst h; simpa [Channel.isStaged] using staged m hm
    · simpa [h] using staged m hm
  have := PcuEvent.transferGroup_staged group together.nodup kept
  rw [← this]
  exact if_pos some_

/-- With 8 channels charging, the queue is not served (R12). -/
theorem PcuEvent.serve_full {e : PcuEvent} (full : 8 ≤ e.pcu.charging) (now : Frame) (fuel : Nat) :
    e.serve now fuel = e := by
  cases fuel with
  | zero => rfl
  | succ n => simp [PcuEvent.serve, Nat.not_lt.2 full]

/-- An empty queue has nothing to serve. -/
theorem PcuEvent.serve_empty {e : PcuEvent} (empty : e.pcu.phantomQueue = []) (now : Frame) : e.serveQueue now = e := by
  simp [PcuEvent.serveQueue, empty, PcuEvent.serve]

/-- With room for one, the head of the queue starts charging (R12). -/
theorem PcuEvent.serve_one {e : PcuEvent} {c : Chan} {cs : List Chan} (room : e.pcu.charging < 8)
    (queue : e.pcu.phantomQueue = c :: cs) (now : Frame) :
    e.serveQueue now = PcuEvent.serve now cs.length
      (PcuEvent.enterTransition { e with pcu := { e.pcu with phantomQueue := cs } } now c .charging Config.chargeFrames) := by
  simp [PcuEvent.serveQueue, queue, PcuEvent.serve, room]

/-- Another record of a channel that does not charge, in a state other than CHARGING, leaves the count. -/
theorem Pcu.charging_setChannel {p : Pcu} {c : Chan} {x : Channel} (old : (p.channel c).phantomState ≠ .charging)
    (new : x.phantomState ≠ .charging) : (p.setChannel c x).charging = p.charging := by
  refine Pcu.charging_congr fun m => ?_
  by_cases h : m = c
  · subst h; simp [old, new]
  · simp [h]

theorem Pcu.charging_with (p : Pcu) (queue : List Chan) : Pcu.charging { p with phantomQueue := queue } = p.charging := rfl

/-! ## The rows of Table 1-2 -/

/-- The two parts of one change of a channel's phantom supply. -/
theorem Pcu.setChannel_setChannel (p : Pcu) (c : Chan) (x y : Channel) :
    (p.setChannel c x).setChannel c y = p.setChannel c y := by
  refine Pcu.ext_channel (fun m => ?_) (by simp) (by simp) (by simp) (by simp)
  by_cases h : m = c <;> simp [h]

/-- A channel that is noted is not noted again (R15). -/
theorem PcuEvent.notePhantom_again {e : PcuEvent} {c : Chan} (noted : c ∈ e.phantom) : e.notePhantom c = e := by
  simp [PcuEvent.notePhantom, noted]

/-- OFF asked ON: the channel joins the queue, which is served (R11, R12). -/
theorem phantomField_off {p : Pcu} {c : Chan} (off : (p.channel c).phantomState = .off) (now : Frame) :
    (PcuEvent.start p).phantomField now c true =
      PcuEvent.serveQueue { PcuEvent.start p with
        pcu := { p.setChannel c { p.channel c with phantomTarget := true, phantomState := .queued } with
          phantomQueue := p.phantomQueue ++ [c] }
        phantom := [c], report := true } now := by
  unfold PcuEvent.phantomField
  simp only [PcuEvent.start_pcu, off]
  rfl

/-- OFF asked ON, with an empty queue and room: the channel starts charging at once. -/
theorem phantomField_starts {p : Pcu} {c : Chan} (off : (p.channel c).phantomState = .off) (empty : p.phantomQueue = [])
    (room : p.charging < 8) (now : Frame) :
    (PcuEvent.start p).phantomField now c true = PcuEvent.enterTransition
      { PcuEvent.start p with
        pcu := p.setChannel c { p.channel c with phantomTarget := true, phantomState := .queued }
        phantom := [c], report := true } now c .charging Config.chargeFrames := by
  have same : p.phantomQueue = (p.setChannel c { p.channel c with phantomTarget := true, phantomState := .queued }).phantomQueue :=
    by simp
  have count := Pcu.charging_setChannel (p := p) (c := c)
    (x := { p.channel c with phantomTarget := true, phantomState := .queued }) (by simp [off]) (by simp)
  rw [phantomField_off off, PcuEvent.serve_one (c := c) (cs := []) (by rw [Pcu.charging_with, count]; exact room)
    (by simp [empty])]
  show PcuEvent.enterTransition _ _ _ _ _ = _
  rw [← empty, same]

/-- QUEUED asked OFF: the channel leaves the queue. -/
theorem phantomField_queued {p : Pcu} {c : Chan} (queued : (p.channel c).phantomState = .queued) (now : Frame) :
    (PcuEvent.start p).phantomField now c false =
      { PcuEvent.start p with
        pcu := { p.setChannel c { p.channel c with phantomTarget := false, phantomState := .off } with
          phantomQueue := p.phantomQueue.filter fun q => !decide (q = c) }
        phantom := [c], report := true } := by
  unfold PcuEvent.phantomField
  simp only [PcuEvent.start_pcu, queued]
  rfl

/-- ON asked OFF: the channel starts discharging. -/
theorem phantomField_on {p : Pcu} {c : Chan} (on : (p.channel c).phantomState = .on) (now : Frame) :
    (PcuEvent.start p).phantomField now c false =
      { (PcuEvent.enterTransition
          { PcuEvent.start p with pcu := p.setChannel c { p.channel c with phantomTarget := false } }
          now c .discharging Config.dischargeFrames) with report := true } := by
  unfold PcuEvent.phantomField
  simp only [PcuEvent.start_pcu, on]
  rfl

/-- A phantom field that asks for what the channel has, or is on its way to, changes nothing. -/
theorem phantomField_kept {p : Pcu} {c : Chan} {on : Bool}
    (kept : on = true ∧ ((p.channel c).phantomState = .queued ∨ (p.channel c).phantomState = .charging ∨
        (p.channel c).phantomState = .on) ∨
      on = false ∧ ((p.channel c).phantomState = .off ∨ (p.channel c).phantomState = .discharging)) (now : Frame) :
    (PcuEvent.start p).phantomField now c on = PcuEvent.start p := by
  unfold PcuEvent.phantomField
  simp only [PcuEvent.start_pcu]
  rcases kept with ⟨rfl, h | h | h⟩ | ⟨rfl, h | h⟩ <;> simp only [h]

/-! ## The filter and the phantom field alone (R5, R11) -/

/-- The requests of one field, with the part as it stands when they are carried out. -/
theorem exec_hpf {who : Requester} {c : Chan} {v : Hpf} {s : State} (free : Free who s.hub)
    (permitted : s.hub.arb.permission who (Chan.res c) = .permitted) (tag : Byte) :
    exec (.setInput who tag (c.1 + 1) none none (some v.pos) none) s = .next (s.withHub (answerTo who .done []
      (commitPcu ((PcuEvent.start s.hub.pcu).hpfField who c v)
        (s.hub.taken who tag (.setInput (c.1 + 1) none none (some v.pos) none))))) := by
  have none_opposes : phantomOpposes (s.hub.pcu.channel c).phantomState none = false := by
    cases (s.hub.pcu.channel c).phantomState <;> rfl
  exact setInput_single_done free (inputFields?_hpf v) rfl rfl permitted none_opposes tag

theorem exec_phantom {who : Requester} {c : Chan} {on : Bool} {s : State} (free : Free who s.hub)
    (permitted : s.hub.arb.permission who (Chan.res c) = .permitted)
    (agrees : phantomOpposes (s.hub.pcu.channel c).phantomState (some on) = false) (tag : Byte) :
    exec (.setInput who tag (c.1 + 1) none none none (some (if on then 1 else 0))) s = .next (s.withHub (answerTo who .done []
      (commitPcu ((PcuEvent.start s.hub.pcu).phantomField s.hub.now c on)
        (s.hub.taken who tag (.setInput (c.1 + 1) none none none (some (if on then 1 else 0))))))) :=
  setInput_single_done free (inputFields?_phantom on) rfl rfl permitted agrees tag

/-- The filter takes a new value at once (R5). -/
theorem hpfField_new {p : Pcu} {c : Chan} {v : Hpf} (new : (p.channel c).hpf ≠ v) (who : Requester) :
    (PcuEvent.start p).hpfField who c v =
      { PcuEvent.start p with
        pcu := p.setChannel c { p.channel c with hpf := v }
        changed := [.inputChanged c (p.channel c).gain (p.channel c).pad v (p.channel c).phantomTarget who]
        report := true } := by
  unfold PcuEvent.hpfField
  simp only [PcuEvent.start_pcu, new, if_false]
  rfl

theorem hpfField_same {p : Pcu} {c : Chan} {v : Hpf} (same : (p.channel c).hpf = v) (who : Requester) :
    (PcuEvent.start p).hpfField who c v = PcuEvent.start p := by
  simp [PcuEvent.hpfField, same]

/-- An event that changes one channel's phantom supply: one PHANTOM_STATE and the report (R15, R23). -/
theorem commitPcu_phantom_one {e : PcuEvent} {c : Chan} {st : PhantomState} {target : Bool} {p : Pcu} (h : Hub)
    (limits : e.limits = []) (changed : e.changed = []) (report : e.report = true) (noted : e.phantom = [c])
    (pcu : e.pcu = p) (state : (p.channel c).phantomState = st) (wanted : (p.channel c).phantomTarget = target) :
    commitPcu e h = showReport (notifyAll (.phantomState c st target) { h with pcu := p }) := by
  rw [commitPcu_phantom h limits changed report]
  subst pcu state wanted
  rw [PcuEvent.phantomNotices, noted]
  rfl

/-- Settles O11: each row of Table 1-2 is what its case of the phantom field commits. -/
theorem setInputAppliesFilterAndPhantom : Obligations.SetInputAppliesFilterAndPhantom := by
  unfold Obligations.SetInputAppliesFilterAndPhantom
  constructor
  · intro who tag c v s free permitted x call
    rw [exec_hpf free permitted]
    by_cases same : x.hpf = v
    · have pcu : (s.hub.taken who tag call).pcu = s.hub.pcu := by simp
      rw [if_pos same, hpfField_same same, ← pcu, commitPcu_start]
      rfl
    · rw [if_neg same, hpfField_new same, commitPcu_transfer _ (.inr rfl) rfl]
      rfl
  · intro who tag c s free permitted idle h x phantomCall result changed
    have run {on : Bool} (a : phantomOpposes x.phantomState (some on) = false) {p : Pcu} {st : PhantomState}
        (commit : commitPcu ((PcuEvent.start h.pcu).phantomField h.now c on) (h.taken who tag (phantomCall on)) =
          showReport (notifyAll (.phantomState c st on) { h.taken who tag (phantomCall on) with pcu := p })) :
        result on = changed on p st :=
      (exec_phantom free permitted a tag).trans
        (congrArg (fun k => Host.Outcome.next (s.withHub (answerTo who .done [] k))) commit)
    have stays {on : Bool} (a : phantomOpposes x.phantomState (some on) = false)
        (same : (PcuEvent.start h.pcu).phantomField h.now c on = PcuEvent.start h.pcu) :
        result on = .next (s.withHub (h.answered who tag (phantomCall on) .done [])) := by
      refine (exec_phantom free permitted a tag).trans ?_
      have pcu : (h.taken who tag (phantomCall on)).pcu = h.pcu := by simp
      rw [same, ← pcu, commitPcu_start]
      rfl
    refine ⟨fun off empty room => ?_, fun off full => ?_, fun queued => ?_, fun on => ?_, fun kept => ?_, fun kept => ?_,
      fun charging => ?_, fun discharging => ?_⟩
    · have still : (h.pcu.setChannel c { x with phantomTarget := true, phantomState := .queued }).groupStaged c = false :=
        (Pcu.groupStaged_setChannel (p := h.pcu) (b := c) (by rfl) (by rfl)).trans idle
      refine run (by rw [off]; rfl) ?_
      rw [phantomField_starts off empty room, PcuEvent.enterTransition_idle still, PcuEvent.entering,
        PcuEvent.notePhantom_again (by simp [PcuEvent.setChannel])]
      exact commitPcu_phantom_one _ rfl rfl rfl rfl (by simp [Pcu.setChannel_setChannel, x, Config.chargeFrames])
        (by simp) (by simp)
    · have count : (h.pcu.setChannel c { x with phantomTarget := true, phantomState := .queued }).charging = h.pcu.charging :=
        Pcu.charging_setChannel (by rw [off]; simp) (by simp)
      refine run (by rw [off]; rfl) ?_
      rw [phantomField_off off, PcuEvent.serveQueue, PcuEvent.serve_full (by rw [Pcu.charging_with, count]; exact full)]
      exact commitPcu_phantom_one _ rfl rfl rfl rfl rfl (by simp) (by simp)
    · refine run (by rw [queued]; rfl) ?_
      rw [phantomField_queued queued]
      exact commitPcu_phantom_one _ rfl rfl rfl rfl rfl (by simp) (by simp)
    · have still : (h.pcu.setChannel c { x with phantomTarget := false }).groupStaged c = false :=
        (Pcu.groupStaged_setChannel (p := h.pcu) (b := c) (by rfl) (by rfl)).trans idle
      refine run (by rw [on]; rfl) ?_
      rw [phantomField_on on, PcuEvent.enterTransition_idle still]
      exact commitPcu_phantom_one _ rfl rfl rfl rfl (by simp [Pcu.setChannel_setChannel, x, Config.dischargeFrames])
        (by simp) (by simp)
    · exact stays (by rcases kept with k | k | k <;> rw [k] <;> rfl) (phantomField_kept (.inl ⟨rfl, kept⟩) _)
    · exact stays (by rcases kept with k | k <;> rw [k] <;> rfl) (phantomField_kept (.inr ⟨rfl, kept⟩) _)
    · exact setInput_busy free permitted (on := false) (by rw [charging]; rfl) tag
    · exact setInput_busy free permitted (on := true) (by rw [discharging]; rfl) tag

end Sys2Proof.Machine
end

/-!
The transfer of staged values (R6 to R9, R19), by a zero crossing, the timeout or a phantom transition, and the expiry of a
phantom timer (R13, R14).
-/
section
namespace Sys2Proof.Machine

/-! ## The commit of a transfer -/

/-- The event takes the place of PCU's records. -/
theorem commitPcu_with (e : PcuEvent) (h : Hub) (p : Pcu) : commitPcu e { h with pcu := p } = commitPcu e h := rfl

/-- An event that ends with the transfer of a list of channels: `e` is the event before it. -/
structure PcuEvent.EndsMoved (E e : PcuEvent) (credited : Chan → Requester) (ms : List Chan) : Prop where
  pcu : E.pcu = e.pcu.moved credited ms
  phantom : E.phantom = e.phantom
  limits : E.limits = ms.flatMap fun m => e.pcu.limitsOf (credited m) m
  changed : E.changed = ms.map fun m => (e.pcu.channel m).transferred.inputChanged m (credited m)
  report : E.report = true
  first : E.forced = true ∨ E.phantom = []

/-- A transfer changes no phantom state. -/
theorem PcuEvent.EndsMoved.phantomNotices {E e : PcuEvent} {credited : Chan → Requester} {ms : List Chan}
    (m : E.EndsMoved e credited ms) : E.phantomNotices = e.phantomNotices := by
  have same (c : Chan) : ((e.pcu.moved credited ms).channel c).phantomState = (e.pcu.channel c).phantomState ∧
      ((e.pcu.moved credited ms).channel c).phantomTarget = (e.pcu.channel c).phantomTarget := by
    rw [Pcu.moved_channel]
    split <;> exact ⟨rfl, rfl⟩
  simp only [PcuEvent.phantomNotices, m.phantom, m.pcu, same]

/-- The commit of an event that ends with the transfer of a list of channels: `y` are the channels that it leaves. -/
theorem PcuEvent.EndsMoved.commit {E e : PcuEvent} {h : Hub} {ms : List Chan} {credited : Chan → Requester}
    {y : Chan → Channel} (moved : E.EndsMoved e credited ms) (track : ∀ d m, e.pcu.track d m = h.pcu.track d m)
    (eff : ∀ m ∈ ms, (e.pcu.channel m).effectiveGain = (h.pcu.channel m).effectiveGain)
    (channels : ∀ m, y m = if m ∈ ms then (e.pcu.channel m).transferred else e.pcu.channel m)
    (others : e.pcu.gangs = h.pcu.gangs ∧ e.pcu.phantomQueue = h.pcu.phantomQueue ∧ e.pcu.before = h.pcu.before ∧
      e.pcu.samples = h.pcu.samples) :
    commitPcu E h = h.transferred ms credited y e.phantomNotices := by
  have applied : ∀ m ∈ ms, y m = (e.pcu.channel m).transferred := fun m hm => by rw [channels m, if_pos hm]
  rw [commitPcu_transfer h moved.first moved.report, moved.phantomNotices, moved.pcu, moved.limits, moved.changed]
  exact (Hub.transferred_eq e.phantomNotices track eff
    (fun m hm => by rw [applied m hm]; exact ⟨rfl, rfl, rfl, rfl⟩)
    (fun m => by rw [channels m, Pcu.moved_channel]) (fun _ _ => rfl) (by simpa using others)).symm

/-- A transfer in an event that has noted no change of gain before. -/
theorem PcuEvent.endsMoved {e : PcuEvent} {ms : List Chan} (credited : Chan → Requester) (some_ : ms ≠ [])
    (limits : e.limits = []) (changed : e.changed = []) (first : e.phantom = []) :
    (e.moved credited ms).EndsMoved e credited ms where
  pcu := by simp only [PcuEvent.moved]
  phantom := by simp only [PcuEvent.moved]
  limits := by simp only [PcuEvent.moved, limits, List.nil_append]
  changed := by simp only [PcuEvent.moved, changed, List.nil_append]
  report := by simp [PcuEvent.moved, some_]
  first := .inr (by simp only [PcuEvent.moved, first])

/-! ## Zero crossings and timeouts -/

/-- The lead of the channels that move together makes their transfer. -/
theorem Pcu.leads_iff {p : Pcu} {c : Chan} {ms : List Chan} (together : p.MovesWith c ms) :
    p.leads c = true ↔ ms.head? = some c := by
  simp [Pcu.leads, together.groupOf]

/-- A transfer that stands on the lead is the transfer of its group. -/
theorem commit_transferGroup {h : Hub} {c : Chan} {ms : List Chan} {credited : Requester}
    (together : h.pcu.MovesWith c ms)
    (staged : ∀ m ∈ ms, (h.pcu.channel m).isStaged = true ∧ (h.pcu.channel m).stagedBy = some credited) :
    commitPcu ((PcuEvent.start h.pcu).transferGroup c) h = h.transferred ms (fun _ => credited)
      (fun m => if m ∈ ms then (h.pcu.channel m).transferred else h.pcu.channel m) [] := by
  rw [PcuEvent.transferGroup_staged (e := PcuEvent.start h.pcu) together.groupOf together.nodup staged]
  exact (PcuEvent.endsMoved (e := PcuEvent.start h.pcu) _ (List.ne_nil_of_mem together.mem) rfl rfl rfl).commit
    (fun _ _ => rfl) (fun _ _ => rfl) (fun _ => rfl) ⟨rfl, rfl, rfl, rfl⟩

/-- Staged values that move together are staged for the group of each. -/
theorem Pcu.groupStaged_of {p : Pcu} {c : Chan} {ms : List Chan} (together : p.MovesWith c ms)
    (staged : ∀ m ∈ ms, (p.channel m).isStaged = true) : p.groupStaged c = true :=
  List.any_eq_true.2 ⟨c, by rw [together.groupOf]; exact together.mem, staged c together.mem⟩

/-- A crossing or the timeout of the lead transfers the channels that move together. -/
theorem lead_transfers {s : State} {c : Chan} {ms : List Chan} {credited : Requester}
    (together : s.hub.pcu.MovesWith c ms) (head : ms.head? = some c)
    (staged : ∀ m ∈ ms, (s.hub.pcu.channel m).isStaged = true ∧ (s.hub.pcu.channel m).stagedBy = some credited) :
    let x := s.hub.pcu.channel c
    let after := s.hub.transferred ms (fun _ => credited)
      (fun m => if m ∈ ms then (s.hub.pcu.channel m).transferred else s.hub.pcu.channel m) []
    (crosses (Tbl.get s.hub.pcu.before c) (Tbl.get s.hub.pcu.samples c) = true →
      x.transferDeadline ≠ some (later s.hub.now 2400) → exec (.zeroCrossing c) s = .next (s.withHub after)) ∧
    (∀ t, x.transferDeadline = some t → reached s.hub.now t = true →
      exec (.transferTimeout c) s = .next (s.withHub after)) := by
  have leads := (Pcu.leads_iff together).2 head
  have any := Pcu.groupStaged_of together fun m hm => (staged m hm).1
  intro x after
  refine ⟨fun cross first => ?_, fun t deadline time => ?_⟩
  · have ready : s.hub.pcu.crossingDue s.hub.now c = true := by
      simp [Pcu.crossingDue, leads, any, cross, Config.zeroCrossFrames]
      exact decide_eq_false first
    show Host.Outcome.next _ = _
    rw [zeroCrossing, if_pos ready, commit_transferGroup together staged]
  · have ready : s.hub.pcu.timeoutDue s.hub.now c = true := by
      rw [Pcu.timeoutDue, leads, any, show (s.hub.pcu.channel c).transferDeadline = some t from deadline]
      exact time
    show Host.Outcome.next _ = _
    rw [transferTimeout, if_pos ready, commit_transferGroup together staged]

/-- A crossing or the timeout of another member transfers nothing. -/
theorem follower_waits {s : State} {c : Chan} {ms : List Chan} (together : s.hub.pcu.MovesWith c ms)
    (follows : ms.head? ≠ some c) : exec (.zeroCrossing c) s = .next s ∧ exec (.transferTimeout c) s = .next s := by
  have leads : s.hub.pcu.leads c = false := Bool.eq_false_iff.2 fun l => follows ((Pcu.leads_iff together).1 l)
  constructor
  · show Host.Outcome.next _ = _
    rw [zeroCrossing, if_neg (by simp [Pcu.crossingDue, leads])]
  · show Host.Outcome.next _ = _
    rw [transferTimeout, if_neg (by simp [Pcu.timeoutDue, leads])]

/-! ## Transfers that a SET_INPUT makes at once (R8, R19) -/

/-- A SET_INPUT for gain or pad leaves values staged. -/
theorem Channel.stagedWith_isStaged (x : Channel) (who : Requester) (deadline : Option Frame) {gain : Option Nat}
    {pad : Option Bool} (carried : gain ≠ none ∨ pad ≠ none) :
    (x.stagedWith who deadline gain pad).isStaged = true := by
  rcases carried with h | h
  · obtain ⟨v, rfl⟩ := Option.ne_none_iff_exists'.1 h
    simp [Channel.stagedWith, Channel.isStaged]
  · obtain ⟨v, rfl⟩ := Option.ne_none_iff_exists'.1 h
    simp [Channel.stagedWith, Channel.isStaged]

/-- What a transfer of a channel makes of values just staged. -/
theorem Channel.stagedWith_transferred (x : Channel) (who : Requester) (deadline : Option Frame) (gain : Option Nat)
    (pad : Option Bool) :
    (x.stagedWith who deadline gain pad).transferred = x.settled (gain.getD x.commandedGain) (pad.getD x.commandedPad) := by
  cases gain <;> cases pad <;> rfl

/-- The gain and pad of a channel that moves together with the named one, after staging and transfer (R17). -/
theorem Pcu.memberGain_getD (p : Pcu) (c m : Chan) (gain : Option Nat) :
    (gain.map fun g => (p.memberGain c m g).toNat).getD (p.channel m).commandedGain =
      (((p.channel m).commandedGain : Int) +
        ((gain.getD (p.channel c).commandedGain : Int) - (p.channel c).commandedGain)).toNat := by
  cases gain with
  | none => simp
  | some g => rfl

/-- SET_INPUT for gain or pad with a member in phantom transition: staged and transferred in one event. -/
theorem stage_commits {h : Hub} {now : Frame} {who : Requester} {c : Chan} {ms : List Chan} {gain : Option Nat}
    {pad : Option Bool} (carried : gain ≠ none ∨ pad ≠ none) (together : h.pcu.MovesWith c ms)
    (transition : ∃ m ∈ ms, (h.pcu.channel m).inTransition = true) :
    let delta : Int := (gain.getD (h.pcu.channel c).commandedGain : Int) - (h.pcu.channel c).commandedGain
    commitPcu ((PcuEvent.start h.pcu).stage now who c ⟨gain, pad, none, none⟩) h =
      h.transferred ms (fun _ => who) (fun m =>
        let y := h.pcu.channel m
        if m ∈ ms then y.settled (y.commandedGain + delta).toNat (pad.getD y.commandedPad) else y) [] := by
  intro delta
  let f : InputFields := ⟨gain, pad, none, none⟩
  let e : PcuEvent := { PcuEvent.start h.pcu with pcu := h.pcu.stagedOn now who c f }
  have channel (m : Chan) : e.pcu.channel m = if m ∈ ms then (h.pcu.channel m).stagedWith who
      (if h.pcu.groupStaged c then none else some (later now Config.zeroCrossFrames))
      (gain.map fun g => (h.pcu.memberGain c m g).toNat) pad else h.pcu.channel m := by
    rw [← together.groupOf]
    exact Pcu.stagedOn_channel ..
  have carried' (m : Chan) : (gain.map fun g => (h.pcu.memberGain c m g).toNat) ≠ none ∨ pad ≠ none := by
    simpa using carried
  have group : e.pcu.groupOf c = ms := by
    rw [← together.groupOf]
    refine Pcu.groupOf_congr ?_ (by simp [e])
    rw [channel, if_pos together.mem]
    rfl
  have staged : ∀ m ∈ ms, (e.pcu.channel m).isStaged = true ∧ (e.pcu.channel m).stagedBy = some who := by
    intro m hm
    rw [channel, if_pos hm]
    exact ⟨Channel.stagedWith_isStaged _ _ _ (carried' m), rfl⟩
  have event : (PcuEvent.start h.pcu).stage now who c f = e.moved (fun _ => who) ms := by
    rw [PcuEvent.stage_eq, if_pos (List.any_eq_true.2 (by rw [PcuEvent.start_pcu, together.groupOf]; exact transition))]
    exact PcuEvent.transferGroup_staged group together.nodup staged
  rw [event]
  refine (PcuEvent.endsMoved (e := e) _ (List.ne_nil_of_mem together.mem) rfl rfl rfl).commit (fun d m => ?_)
    (fun m hm => ?_) (fun m => ?_) (by simp [e])
  · exact Pcu.stagedOn_track ..
  · rw [channel, if_pos hm]
    rfl
  · rw [channel]
    by_cases hm : m ∈ ms
    · simp only [hm, if_true, Channel.stagedWith_transferred, Pcu.memberGain_getD, delta]
    · simp only [hm, if_false]

/-! ## Transfers that an entry into a phantom transition forces (R8, R10) -/

/-- An entry into a transition with values staged ends with their transfer; PHANTOM_STATE goes out first (R8). -/
theorem PcuEvent.enterTransition_endsMoved {e : PcuEvent} {c : Chan} {ms : List Chan} {credited : Requester}
    (together : e.pcu.MovesWith c ms)
    (staged : ∀ m ∈ ms, (e.pcu.channel m).isStaged = true ∧ (e.pcu.channel m).stagedBy = some credited)
    (limits : e.limits = []) (changed : e.changed = []) (now : Frame) (st : PhantomState) (frames : Nat) :
    (e.enterTransition now c st frames).EndsMoved (e.entering now c st frames) (fun _ => credited) ms ∧
      (e.enterTransition now c st frames).forced = true := by
  have quiet : (e.entering now c st frames).limits = [] ∧ (e.entering now c st frames).changed = [] := by
    unfold PcuEvent.entering PcuEvent.notePhantom
    split <;> exact ⟨limits, changed⟩
  obtain ⟨limits, changed⟩ := quiet
  have some_ : ms ≠ [] := List.ne_nil_of_mem together.mem
  rw [PcuEvent.enterTransition_staged together staged]
  refine ⟨⟨?_, ?_, ?_, ?_, ?_, .inl rfl⟩, rfl⟩
  · simp only [PcuEvent.moved]
  · simp only [PcuEvent.moved]
  · simp only [PcuEvent.moved, limits, List.nil_append]
  · simp only [PcuEvent.moved, changed, List.nil_append]
  · simp [PcuEvent.moved, some_]

/-- A report of SHOW data is made once. -/
theorem PcuEvent.reported {e : PcuEvent} (report : e.report = true) : { e with report := true } = e := by
  rw [← report]

/-- The effective gain of a channel follows its gain and pad alone. -/
theorem Channel.effectiveGain_congr {x y : Channel} (gain : y.gain = x.gain) (pad : y.pad = x.pad) :
    y.effectiveGain = x.effectiveGain := by
  simp [Channel.effectiveGain, gain, pad]

/-- A change of a channel's phantom supply leaves which channels move together, and what is staged on them. -/
theorem Pcu.MovesWith.setChannel {p : Pcu} {c b : Chan} {ms : List Chan} {x : Channel} (together : p.MovesWith c ms)
    (gang : x.gang = (p.channel b).gang) : (p.setChannel b x).MovesWith c ms := by
  have same : ((p.setChannel b x).channel c).gang = (p.channel c).gang := by
    by_cases h : c = b
    · subst h; simpa using gang
    · simp [h]
  unfold Pcu.MovesWith
  rw [same]
  exact together

theorem staged_setChannel {p : Pcu} {b : Chan} {ms : List Chan} {x : Channel} {credited : Requester}
    (staged : ∀ m ∈ ms, (p.channel m).isStaged = true ∧ (p.channel m).stagedBy = some credited)
    (values : x.isStaged = (p.channel b).isStaged) (by_ : x.stagedBy = (p.channel b).stagedBy) :
    ∀ m ∈ ms, ((p.setChannel b x).channel m).isStaged = true ∧ ((p.setChannel b x).channel m).stagedBy = some credited := by
  intro m hm
  by_cases h : m = b
  · subst h; simpa [values, by_] using staged m hm
  · simpa [h] using staged m hm

/-- The commit of an entry of a channel into a transition that forces a transfer, where the event has before changed the
channel's phantom target and state alone. -/
theorem enterTransition_commits {e : PcuEvent} {h : Hub} {c : Chan} {ms : List Chan} {credited : Requester} {target : Bool}
    {old : PhantomState} (together : h.pcu.MovesWith c ms)
    (staged : ∀ m ∈ ms, (h.pcu.channel m).isStaged = true ∧ (h.pcu.channel m).stagedBy = some credited)
    (pcu : e.pcu = h.pcu.setChannel c { h.pcu.channel c with phantomTarget := target, phantomState := old })
    (limits : e.limits = []) (changed : e.changed = []) (noted : e.phantom = [] ∨ e.phantom = [c]) (now : Frame)
    (st : PhantomState) (frames : Nat) :
    (e.enterTransition now c st frames).report = true ∧
    commitPcu (e.enterTransition now c st frames) h = h.transferred ms (fun _ => credited)
      (fun m =>
        let x := h.pcu.channel m
        let y := if m = c then { x with
          phantomTarget := target, phantomState := st, phantomTimer := some (later now frames) } else x
        if m ∈ ms then y.settled y.commandedGain y.commandedPad else y)
      [.phantomState c st target] := by
  have moved := (PcuEvent.enterTransition_endsMoved (e := e) (c := c)
    (by rw [pcu]; exact together.setChannel (by rfl)) (by rw [pcu]; exact staged_setChannel staged (by rfl) (by rfl))
    limits changed now st frames).1
  have after : (e.entering now c st frames).pcu = h.pcu.setChannel c { h.pcu.channel c with
      phantomTarget := target, phantomState := st, phantomTimer := some (later now frames) } := by
    rw [PcuEvent.entering_pcu, pcu, Pcu.setChannel_setChannel]
    simp
  have notices : (e.entering now c st frames).phantomNotices = [.phantomState c st target] := by
    have list : (e.entering now c st frames).phantom = [c] := by
      rcases noted with n | n <;> simp [PcuEvent.entering, PcuEvent.notePhantom, PcuEvent.setChannel, n]
    rw [PcuEvent.phantomNotices, list, after]
    simp
  refine ⟨moved.report, ?_⟩
  rw [← notices]
  refine moved.commit (fun d m => by rw [after]; simp) (fun m _ => ?_) (fun m => ?_) (by rw [after]; simp)
  · rw [after]
    by_cases hc : m = c
    · subst hc; exact Channel.effectiveGain_congr (by simp) (by simp)
    · simp [hc]
  · rw [after]
    by_cases hc : m = c
    · subst hc; simp
    · simp [hc]

/-- Settles O14: each way of transferring ends its event with the transfer of the channels that move together. -/
theorem transferOfAChannel : Obligations.TransferOfAChannel := by
  unfold Obligations.TransferOfAChannel
  refine ⟨fun c credited s alone staged by_ => ?_, fun g lead ms credited s list nodup each => ?_, ?_, ?_⟩
  · have := lead_transfers (s := s) (c := c) (ms := [c]) (credited := credited) (.inl ⟨alone, rfl⟩) rfl
      (by simp [staged, by_])
    have same : (fun m => if m ∈ [c] then (s.hub.pcu.channel m).transferred else s.hub.pcu.channel m) =
        fun m => if m = c then (s.hub.pcu.channel c).settled (s.hub.pcu.channel c).commandedGain
          (s.hub.pcu.channel c).commandedPad else s.hub.pcu.channel m := by
      funext m
      by_cases h : m = c <;> simp [h]
    rwa [same] at this
  · have together {m : Chan} (hm : m ∈ lead :: ms) : s.hub.pcu.MovesWith m (lead :: ms) :=
      .inr ⟨g, (each m hm).1, list, hm, nodup⟩
    obtain ⟨cross, time⟩ := lead_transfers (together (m := lead) (by simp)) rfl fun m hm => (each m hm).2
    refine ⟨cross, time, fun m hm => follower_waits (together (List.mem_cons_of_mem _ hm)) ?_⟩
    simpa using fun h : lead = m => (List.nodup_cons.1 nodup).1 (h ▸ hm)
  · intro who tag c ms gain pad s free range carried together transition permitted delta fits padField
    have none_opposes : phantomOpposes (s.hub.pcu.channel c).phantomState none = false := by
      cases (s.hub.pcu.channel c).phantomState <;> rfl
    have group := together.groupOf
    rw [setInput_done free (inputFields?_stages range) (gainFits_of (by rwa [group]))
      (inputPermission_stages (stages_of carried) (by rwa [group])) none_opposes, setInput_stages _ _ _ _ carried]
    have taken : (s.hub.taken who tag (.setInput (c.1 + 1) gain padField none none)).pcu = s.hub.pcu := by simp
    have commit := stage_commits (h := s.hub.taken who tag (.setInput (c.1 + 1) gain padField none none))
      (now := s.hub.now) (who := who) carried (by rwa [taken]) (by rwa [taken])
    rw [taken] at commit
    rw [commit]
  · intro who tag c ms credited on s free permitted together each call starts
    have taken : (s.hub.taken who tag call).pcu = s.hub.pcu := by simp
    have commit {e : PcuEvent} (target : Bool) (old : PhantomState) (pcu : e.pcu = s.hub.pcu.setChannel c
        { s.hub.pcu.channel c with phantomTarget := target, phantomState := old }) (limits : e.limits = [])
        (changed : e.changed = []) (noted : e.phantom = [] ∨ e.phantom = [c]) (st : PhantomState) (frames : Nat) :=
      enterTransition_commits (h := s.hub.taken who tag call) (by rwa [taken]) (by rwa [taken]) (by rwa [taken]) limits
        changed noted s.hub.now st frames
    simp only [taken] at commit
    refine ⟨fun off state => ?_, fun asked state empty room => ?_⟩
    · subst off
      refine (exec_phantom free permitted (by rw [state]; rfl) tag).trans ?_
      rw [phantomField_on state]
      obtain ⟨report, event⟩ := commit (e := { PcuEvent.start s.hub.pcu with
          pcu := s.hub.pcu.setChannel c { s.hub.pcu.channel c with phantomTarget := false } }) false .on
        (by rw [← state]) rfl rfl (.inl rfl) .discharging 38400
      exact congrArg (fun k => Host.Outcome.next (s.withHub (answerTo who .done [] k)))
        ((congrArg (commitPcu · _) (PcuEvent.reported report)).trans event)
    · subst asked
      refine (exec_phantom free permitted (by rw [state]; rfl) tag).trans ?_
      rw [phantomField_starts state empty room]
      obtain ⟨-, event⟩ := commit (e := { PcuEvent.start s.hub.pcu with
          pcu := s.hub.pcu.setChannel c { s.hub.pcu.channel c with phantomTarget := true, phantomState := .queued }
          phantom := [c], report := true }) true .queued rfl rfl rfl (.inr rfl) .charging 19200
      exact congrArg (fun k => Host.Outcome.next (s.withHub (answerTo who .done [] k))) event

end Sys2Proof.Machine
end

/-!
The expiry of a phantom timer (R13, R14): the channel takes its steady state, and behind a charge timer the queue is served.
-/
section
namespace Sys2Proof.Machine

/-- An event that changes phantom states alone and reports nothing: its PHANTOM_STATE notices (R15). -/
theorem commitPcu_unreported {e : PcuEvent} (h : Hub) (limits : e.limits = []) (changed : e.changed = [])
    (report : e.report = false) : commitPcu e h = notifyEach e.phantomNotices { h with pcu := e.pcu } := by
  unfold commitPcu
  simp only [limits, changed, report]
  split <;> rfl

/-- The event of a channel that reaches a steady state (R10, R13, R14). -/
def PcuEvent.settled (p : Pcu) (c : Chan) (st : PhantomState) : PcuEvent :=
  { PcuEvent.start p with
    pcu := p.setChannel c { p.channel c with phantomState := st, phantomTimer := none }, phantom := [c] }

theorem PcuEvent.endTransition_start (p : Pcu) (c : Chan) (st : PhantomState) :
    (PcuEvent.start p).endTransition c st = PcuEvent.settled p c st := rfl

/-- Its one notice. -/
theorem PcuEvent.settled_notices (p : Pcu) (c : Chan) (st : PhantomState) :
    (PcuEvent.settled p c st).phantomNotices = [.phantomState c st (p.channel c).phantomTarget] := by
  simp [PcuEvent.settled, PcuEvent.phantomNotices]

/-- A phantom timer reached in its state. -/
theorem Pcu.phantomDue_of {p : Pcu} {now t : Frame} {c : Chan} {st : PhantomState}
    (state : (p.channel c).phantomState = st) (timer : (p.channel c).phantomTimer = some t)
    (time : reached now t = true) : p.phantomDue now c st = true := by
  simp [Pcu.phantomDue, state, timer, due, time]

/-- The event of a charge that ends, with the head of the queue taken off it (R12, R13). -/
def PcuEvent.freed (p : Pcu) (c : Chan) (qs : List Chan) : PcuEvent :=
  { PcuEvent.settled p c .on with pcu := { (PcuEvent.settled p c .on).pcu with phantomQueue := qs } }

/-- Its channels: the one whose charge ends is ON. -/
@[simp] theorem PcuEvent.freed_channel (p : Pcu) (c : Chan) (qs : List Chan) (m : Chan) :
    (PcuEvent.freed p c qs).pcu.channel m =
      if m = c then { p.channel c with phantomState := .on, phantomTimer := none } else p.channel m := by
  simp [PcuEvent.freed, PcuEvent.settled]

/-- With a queue behind 8 channels, an expired charge timer lets exactly one more charge (R12, R13). -/
theorem PcuEvent.settled_serves {p : Pcu} {now : Frame} {c q : Chan} {qs : List Chan}
    (charging : (p.channel c).phantomState = .charging) (queue : p.phantomQueue = q :: qs) (full : p.charging = 8)
    (waits : (p.channel q).phantomState = .queued) :
    (PcuEvent.settled p c .on).serveQueue now =
      (PcuEvent.freed p c qs).enterTransition now q .charging Config.chargeFrames := by
  have apart : q ≠ c := fun h => by rw [h, charging] at waits; cases waits
  have left : (PcuEvent.freed p c qs).pcu.charging = 7 := by
    have := Pcu.charging_gain (p := (PcuEvent.freed p c qs).pcu) (q := p) (c := c)
      (fun m hm => by simp [hm]) (by simp) charging
    omega
  have again : ((PcuEvent.freed p c qs).enterTransition now q .charging Config.chargeFrames).pcu.charging = 8 := by
    obtain ⟨-, new, others⟩ :=
      PcuEvent.enterTransition_phantom (PcuEvent.freed p c qs) now q .charging Config.chargeFrames
    have := Pcu.charging_gain others (by simp [apart, waits]) new
    rwa [left] at this
  rw [PcuEvent.serve_one (c := q) (cs := qs) (by rw [← Pcu.charging_with _ qs]; exact left.trans_lt (by decide))
    (by simpa [PcuEvent.settled] using queue)]
  exact PcuEvent.serve_full again.ge now _

/-- The head starts to charge: its record, and its note behind that of the channel that is ON. -/
theorem PcuEvent.freed_entering {p : Pcu} {c q : Chan} (apart : q ≠ c) (qs : List Chan) (now : Frame) :
    (PcuEvent.freed p c qs).entering now q .charging Config.chargeFrames =
      { PcuEvent.start p with
        pcu := { (p.setChannel c { p.channel c with phantomState := .on, phantomTimer := none }).setChannel q
          { p.channel q with phantomState := .charging, phantomTimer := some (later now 19200) } with phantomQueue := qs }
        phantom := [c, q] } := by
  have note : (PcuEvent.setChannel (PcuEvent.freed p c qs) q { (PcuEvent.freed p c qs).pcu.channel q with
      phantomState := .charging, phantomTimer := some (later now 19200) }).phantom = [c] := rfl
  have fresh : [c].contains q = false := by simpa using apart
  unfold PcuEvent.entering PcuEvent.notePhantom
  rw [Config.chargeFrames, note, fresh, PcuEvent.freed_channel, if_neg apart]
  rfl

/-- Its two notices (R15). -/
theorem PcuEvent.freed_notices {p : Pcu} {c q : Chan} (apart : q ≠ c) (qs : List Chan) (now : Frame) :
    ((PcuEvent.freed p c qs).entering now q .charging Config.chargeFrames).phantomNotices =
      [.phantomState c .on (p.channel c).phantomTarget, .phantomState q .charging (p.channel q).phantomTarget] := by
  rw [PcuEvent.freed_entering apart]
  simp [PcuEvent.phantomNotices, Ne.symm apart]

/-- Settles O15: the event of each expiry, and of the head of the queue that charges behind it. -/
theorem phantomTimersExpire : Obligations.PhantomTimersExpire := by
  unfold Obligations.PhantomTimersExpire
  constructor
  · intro c t s charging timer time h x p
    have ready := Pcu.phantomDue_of charging timer time
    have event : exec (.chargeExpiry c) s =
        .next (s.withHub (commitPcu ((PcuEvent.settled h.pcu c .on).serveQueue h.now) h)) := by
      show Host.Outcome.next _ = _
      rw [chargeExpiry, if_pos ready, PcuEvent.endTransition_start]
    refine ⟨fun empty => ?_, fun q qs queue full waits idle => ?_, fun q qs ms credited queue full waits together staged => ?_⟩
    · rw [event, PcuEvent.serve_empty (by simpa [PcuEvent.settled] using empty), commitPcu_unreported h rfl rfl rfl,
        PcuEvent.settled_notices]
      rfl
    · have apart : q ≠ c := fun e => by rw [e, charging] at waits; cases waits
      have still : (PcuEvent.freed h.pcu c qs).pcu.groupStaged q = false :=
        (Pcu.groupStaged_setChannel (p := h.pcu) (b := c) (c := q) (by rfl) (by rfl)).trans idle
      rw [event, PcuEvent.settled_serves charging queue full waits, PcuEvent.enterTransition_idle still,
        commitPcu_unreported h (by rw [PcuEvent.freed_entering apart]; rfl) (by rw [PcuEvent.freed_entering apart]; rfl)
          (by rw [PcuEvent.freed_entering apart]; rfl), PcuEvent.freed_notices apart, PcuEvent.freed_entering apart]
      rfl
    · have apart : q ≠ c := fun e => by rw [e, charging] at waits; cases waits
      have moved := (PcuEvent.enterTransition_endsMoved (e := PcuEvent.freed h.pcu c qs) (c := q)
        (together.setChannel (p := h.pcu) (b := c) (by rfl)) (staged_setChannel staged (by rfl) (by rfl)) rfl rfl h.now
        .charging Config.chargeFrames).1
      rw [event, PcuEvent.settled_serves charging queue full waits, ← PcuEvent.freed_notices apart qs h.now]
      refine congrArg (fun k => Host.Outcome.next (s.withHub k)) (moved.commit
        (h := { h with pcu := { h.pcu with phantomQueue := qs } }) ?_ ?_ ?_ ?_)
      · intro d m
        rw [PcuEvent.freed_entering apart, Pcu.track_with]
        simp
      · intro m _
        rw [PcuEvent.entering_pcu, Pcu.channel_setChannel, Pcu.channel_with]
        by_cases hq : m = q
        · subst hq; exact Channel.effectiveGain_congr (by simp [apart]) (by simp [apart])
        · by_cases hc : m = c
          · subst hc; exact Channel.effectiveGain_congr (by simp [hq]) (by simp [hq])
          · simp [hq, hc]
      · intro m
        rw [PcuEvent.entering_pcu, Pcu.channel_setChannel]
        by_cases hq : m = q
        · subst hq; simp [apart, Config.chargeFrames]
        · by_cases hc : m = c
          · subst hc; simp [hq]
          · simp [hq, hc]
      · rw [PcuEvent.freed_entering apart]
        simp
  · intro c t s discharging timer time x
    have ready := Pcu.phantomDue_of discharging timer time
    show Host.Outcome.next _ = _
    rw [dischargeExpiry, if_pos ready, PcuEvent.endTransition_start, commitPcu_unreported _ rfl rfl rfl,
      PcuEvent.settled_notices]
    rfl

end Sys2Proof.Machine
end

/-!
SET_GANG (R20): its checks, the transfers that it forces, and the Gang Table that it leaves.
-/
section
namespace Sys2Proof.Machine

/-! ## The checks and the event -/

/-- SET_GANG's row is the arrival of the request at PCU (log entry 2). -/
theorem exec_setGang {who : Requester} {s : State} (free : Free who s.hub) (tag : Byte) (n : Nat) (ns : List Nat) :
    exec (.setGang who tag n ns) s =
      .next (s.withHub (pcuSetGang who n ns (s.hub.taken who tag (.setGang n ns)))) := by
  have := submit_handOver free tag (c := .setGang n ns) rfl (.inl rfl)
  exact congrArg (fun k => Host.Outcome.next (s.withHub k)) this

/-- Channels that belong to no group, or to the one named (R20, check 1). -/
theorem Pcu.freeFor_iff {p : Pcu} {g : Grp} {ms : List Chan} :
    p.freeFor g ms = true ↔ ∀ m ∈ ms, (p.channel m).gang = none ∨ (p.channel m).gang = some g := by
  unfold Pcu.freeFor
  rw [List.all_eq_true]
  refine forall₂_congr fun m _ => ?_
  cases (p.channel m).gang <;> simp

/-- The list that a group takes. -/
theorem ite_isEmpty {α β : Type} (l : List α) (x y : β) : (if l.isEmpty then x else y) = if l = [] then x else y := by
  simp

/-- A SET_GANG that passes its checks commits its transfers and the new list, and is answered DONE. -/
theorem setGang_done {who : Requester} {g : Grp} {ns : List Nat} {ms : List Chan} {s : State} (free : Free who s.hub)
    (list : members? ns = some ms)
    (own : ∀ m ∈ ms, (s.hub.pcu.channel m).gang = none ∨ (s.hub.pcu.channel m).gang = some g)
    (permitted : ∀ m ∈ (Tbl.get s.hub.pcu.gangs g).getD [] ++ ms, s.hub.arb.permission who (Chan.res m) = .permitted)
    (tag : Byte) :
    let e := (PcuEvent.start s.hub.pcu).forceGang g ms
    exec (.setGang who tag (g.1 + 1) ns) s = .next (s.withHub (answerTo who .done []
      (commitPcu { e with
        pcu := e.pcu.takeGang g ms
        report := e.report || !decide (Tbl.get s.hub.pcu.gangs g = if ms = [] then none else some ms) }
        (s.hub.taken who tag (.setGang (g.1 + 1) ns))))) := by
  have all : ((s.hub.pcu.members g ++ ms).all fun m => s.hub.arb.permits who (Chan.res m)) = true :=
    List.all_eq_true.2 fun m hm => by simp [Arb.permits, permitted m hm]
  intro e
  rw [exec_setGang free]
  simp only [pcuSetGang, grp?_num, list, Hub.taken_other, Pcu.freeFor_iff.2 own, all, ite_isEmpty]
  rfl

/-! ## The transfers -/

/-- Nothing staged, nothing transferred. -/
theorem PcuEvent.foldl_transfer_idle {l : List Chan} {e : PcuEvent}
    (idle : ∀ m ∈ l, (e.pcu.channel m).isStaged = false) : l.foldl PcuEvent.transfer e = e := by
  induction l with
  | nil => rfl
  | cons c l ih =>
    rw [List.foldl_cons, PcuEvent.transfer_idle (idle c (by simp)), ih fun m hm => idle m (by simp [hm])]

/-- The channels that SET_GANG may transfer, in order: the members, then the listed channels of no group (R20). -/
def Pcu.forced (p : Pcu) (g : Grp) (ms : List Chan) : List Chan :=
  (Tbl.get p.gangs g).getD [] ++ ms.filter fun m => (p.channel m).gang.isNone

theorem PcuEvent.forceGang_eq (p : Pcu) (g : Grp) (ms : List Chan) :
    (PcuEvent.start p).forceGang g ms = (p.forced g ms).foldl PcuEvent.transfer (PcuEvent.start p) := by
  rw [Pcu.forced, List.foldl_append]
  rfl

/-- No channel is forced twice. -/
theorem Pcu.forced_nodup {p : Pcu} {g : Grp} {ms : List Chan} (old : ((Tbl.get p.gangs g).getD []).Nodup)
    (fields : ∀ m ∈ (Tbl.get p.gangs g).getD [], (p.channel m).gang = some g) (nodup : ms.Nodup) :
    (p.forced g ms).Nodup := by
  refine old.append (nodup.filter _) fun m hm hf => ?_
  have := (List.mem_filter.1 hf).2
  simp [fields m hm] at this

/-- Settles O16: without values staged the table and the fields change; with them, the transfers come first. -/
theorem setGangTakesTheList : Obligations.SetGangTakesTheList := by
  unfold Obligations.SetGangTakesTheList
  constructor
  · intro who tag g ns ms s free list own old each new after
    have idle : ∀ m ∈ s.hub.pcu.forced g ms, ((PcuEvent.start s.hub.pcu).pcu.channel m).isStaged = false := by
      intro m hm
      refine (each m ?_).1
      rcases List.mem_append.1 hm with h | h
      · exact List.mem_append_left _ h
      · exact List.mem_append_right _ (List.mem_of_mem_filter h)
    rw [setGang_done free list own fun m hm => (each m hm).2, PcuEvent.forceGang_eq,
      PcuEvent.foldl_transfer_idle idle]
    have table : { s.hub.taken who tag (.setGang (g.1 + 1) ns) with pcu := s.hub.pcu.takeGang g ms } = after := by
      rw [Pcu.takeGang_eq, ite_isEmpty]
      rfl
    refine congrArg (fun k => Host.Outcome.next (s.withHub (answerTo who .done [] k))) ?_
    by_cases same : Tbl.get s.hub.pcu.gangs g = new
    · rw [if_pos same, ← table]
      exact commitPcu_quiet _ rfl rfl rfl (by rw [decide_eq_true same]; rfl)
    · rw [if_neg same, ← table]
      exact commitPcu_phantom _ rfl rfl (by rw [decide_eq_false same]; rfl)
  · intro who tag g ns ms credited s free list own old distinct fields permitted moving some_ by_
    obtain ⟨-, nodup⟩ := members?_some list
    have event : (PcuEvent.start s.hub.pcu).forceGang g ms = (PcuEvent.start s.hub.pcu).moved credited moving := by
      rw [PcuEvent.forceGang_eq]
      refine PcuEvent.foldl_transfer (Pcu.forced_nodup distinct fields nodup) _ fun m hm staged => by_ m ?_
      exact List.mem_filter.2 ⟨hm, staged⟩
    rw [setGang_done free list own permitted, event]
    refine congrArg (fun k => Host.Outcome.next (s.withHub (answerTo who .done [] k))) ?_
    obtain ⟨pcu, phantom, limits, changed, report, -⟩ :=
      PcuEvent.endsMoved (e := PcuEvent.start s.hub.pcu) credited some_ rfl rfl rfl
    generalize (PcuEvent.start s.hub.pcu).moved credited moving = e at pcu phantom limits changed report ⊢
    rw [commitPcu_transfer _ (.inr (by exact phantom)) (by rw [report]; rfl)]
    simp only [PcuEvent.phantomNotices, pcu, phantom, limits, changed]
    let k : Hub := { s.hub.taken who tag (.setGang (g.1 + 1) ns) with
      pcu := { s.hub.pcu with gangs := Tbl.set s.hub.pcu.gangs g (if ms = [] then none else some ms) } }
    refine (Hub.transferred_eq (h := k) (p := s.hub.pcu) (q := (s.hub.pcu.moved credited moving).takeGang g ms) []
      ?_ ?_ ?_ ?_ ?_ ?_).symm
    · exact fun d m => rfl
    · exact fun m _ => rfl
    · intro m hm
      simp only [hm, if_true]
      split
      · exact ⟨rfl, rfl, rfl, rfl⟩
      · split <;> exact ⟨rfl, rfl, rfl, rfl⟩
    · intro m
      rw [Pcu.takeGang_eq]
      simp only [Pcu.channel, Tbl.get_of]
      simp only [← Pcu.channel.eq_def, Pcu.moved_channel, Pcu.members, Pcu.moved_other]
      by_cases hm : m ∈ moving
      · simp only [hm, if_true]
        split
        · rfl
        · split <;> rfl
      · simp only [hm, if_false]
        rfl
    · exact fun d m => Pcu.takeGang_track ..
    · rw [Pcu.takeGang_eq, ite_isEmpty]
      simp [k]

end Sys2Proof.Machine
end

/-!
The range checks of request fields (R155, R159), each by what it turns away, and the one way in which a request of a free
requester is turned away.
-/
section
namespace Sys2Proof.Machine

/-! ## Fields -/

theorem chan?_none {n : Nat} : chan? n = none ↔ n < 1 ∨ 72 < n := by
  simp only [chan?, dite_eq_right_iff, reduceCtorEq, imp_false]; omega

theorem out?_none {n : Nat} : out? n = none ↔ n < 1 ∨ 32 < n := by
  simp only [out?, dite_eq_right_iff, reduceCtorEq, imp_false]; omega

theorem grp?_none {n : Nat} : grp? n = none ↔ n < 1 ∨ 12 < n := by
  simp only [grp?, dite_eq_right_iff, reduceCtorEq, imp_false]; omega

/-- An output's own number names it (Table 8-5). -/
@[simp] theorem out?_num (i : Out) : out? (i.1 + 1) = some i := by
  have := i.2
  simp only [out?]
  rw [dif_pos (by omega)]
  rfl

theorem gain?_none {n : Nat} : gain? n = none ↔ 127 < n := by simp [gain?]

theorem trim?_none {t : Int} : trim? t = none ↔ t < -48 ∨ 48 < t := by
  simp only [trim?, ite_eq_right_iff, reduceCtorEq, imp_false]; omega

theorem desk?_none {n : Nat} : desk? n = none ↔ n < 1 ∨ 3 < n := by
  rcases n with _ | _ | _ | _ | n <;> simp [desk?]

theorem hpf?_none {n : Nat} : hpf? n = none ↔ 3 < n := by
  rcases n with _ | _ | _ | _ | n <;> simp [hpf?]

theorem offOn?_none {n : Nat} : offOn? n = none ↔ 1 < n := by
  rcases n with _ | _ | n <;> simp [offOn?]

theorem onOff?_none {n : Nat} : onOff? n = none ↔ 1 < n := by
  rcases n with _ | _ | n <;> simp [onOff?]

theorem failAction?_none {n : Nat} : failAction? n = none ↔ 1 < n := by
  rcases n with _ | _ | n <;> simp [failAction?]

theorem source?_none {d k : Nat} : source? (d, k) = none ↔ d < 1 ∨ 3 < d ∨ k < 1 ∨ 32 < k := by
  simp only [source?]
  cases link : desk? d with
  | none => have := desk?_none.1 link; simp; omega
  | some x =>
    have : ¬(d < 1 ∨ 3 < d) := fun bad => by rw [desk?_none.2 bad] at link; cases link
    simp only [dite_eq_right_iff, reduceCtorEq, imp_false]; omega

/-- A field that is present and out of range fails its request. -/
theorem opt?_none {α β : Type} {f : α → Option β} {x : Option α} : opt? f x = none ↔ ∃ v, x = some v ∧ f v = none := by
  cases x <;> simp [opt?]

/-- A list with an item out of range fails its request. -/
theorem all?_none {α β : Type} {f : α → Option β} {l : List α} (bad : ∃ x ∈ l, f x = none) : all? f l = none := by
  cases e : all? f l with
  | none => rfl
  | some ys =>
    obtain ⟨x, hx, none_⟩ := bad
    have : f x ∈ ys.map some := all?_some e ▸ List.mem_map_of_mem hx
    simp [none_] at this

/-- A set with no member. -/
theorem members_isEmpty {n : Nat} (v : BitSet n) : (BitSet.members v).isEmpty = true ↔ ∀ i, Tbl.get v i = false := by
  simp [BitSet.members, List.filter_eq_nil_iff]

/-! ## The fields of a SET_INPUT -/

theorem inputFields?_none {gain pad hpf phantom : Option Nat}
    (bad : (∃ g, gain = some g ∧ 127 < g) ∨ (∃ p, pad = some p ∧ 1 < p) ∨ (∃ f, hpf = some f ∧ 3 < f) ∨
      ∃ p, phantom = some p ∧ 1 < p) : inputFields? gain pad hpf phantom = none := by
  cases e : inputFields? gain pad hpf phantom with
  | none => rfl
  | some f =>
    unfold inputFields? at e
    split at e
    · next g p h ph hg hp hh hph =>
      rcases bad with ⟨v, rfl, b⟩ | ⟨v, rfl, b⟩ | ⟨v, rfl, b⟩ | ⟨v, rfl, b⟩
      · rw [opt?_none.2 ⟨v, rfl, gain?_none.2 b⟩] at hg; cases hg
      · rw [opt?_none.2 ⟨v, rfl, offOn?_none.2 b⟩] at hp; cases hp
      · rw [opt?_none.2 ⟨v, rfl, hpf?_none.2 b⟩] at hh; cases hh
      · rw [opt?_none.2 ⟨v, rfl, offOn?_none.2 b⟩] at hph; cases hph
    · cases e

theorem opt?_isSome {α β : Type} {f : α → Option β} {x : Option α} (range : ∀ v, x = some v → f v ≠ none) :
    ∃ y, opt? f x = some y ∧ y.isSome = x.isSome := by
  cases x with
  | none => exact ⟨none, rfl, rfl⟩
  | some v =>
    obtain ⟨y, hy⟩ := Option.ne_none_iff_exists'.1 (range v rfl)
    exact ⟨some y, by simp [opt?, hy], rfl⟩

/-- Fields in range are read, each present where it is given, and the gain as it is given. -/
theorem inputFields?_some {gain pad hpf phantom : Option Nat} (g : ∀ v, gain = some v → v ≤ 127)
    (p : ∀ v, pad = some v → v ≤ 1) (h : ∀ v, hpf = some v → v ≤ 3) (ph : ∀ v, phantom = some v → v ≤ 1) :
    ∃ f, inputFields? gain pad hpf phantom = some f ∧ f.gain = gain ∧ f.pad.isSome = pad.isSome ∧
      f.hpf.isSome = hpf.isSome ∧ f.phantom.isSome = phantom.isSome := by
  have gains : opt? gain? gain = some gain := by
    cases gain with
    | none => rfl
    | some v => simp [opt?, gain?, g v rfl]
  obtain ⟨y, hy, sy⟩ := opt?_isSome (f := offOn?) fun v e n => Nat.not_lt.2 (p v e) (offOn?_none.1 n)
  obtain ⟨z, hz, sz⟩ := opt?_isSome (f := hpf?) fun v e n => Nat.not_lt.2 (h v e) (hpf?_none.1 n)
  obtain ⟨w, hw, sw⟩ := opt?_isSome (f := offOn?) fun v e n => Nat.not_lt.2 (ph v e) (offOn?_none.1 n)
  exact ⟨⟨gain, y, z, w⟩, by simp [inputFields?, gains, hy, hz, hw], rfl, sy, sz, sw⟩

/-! ## Lists of channels, and patches -/

theorem members?_none {ns : List Nat}
    (bad : ns.length = 1 ∨ 8 < ns.length ∨ (∃ x ∈ ns, x < 1 ∨ 72 < x) ∨ ¬ns.Nodup) : members? ns = none := by
  unfold members?
  split
  · next ok =>
    obtain ⟨size, apart⟩ := ok
    rcases bad with b | b | ⟨x, hx, b⟩ | b
    · omega
    · omega
    · exact all?_none ⟨x, hx, chan?_none.2 b⟩
    · exact absurd ((distinct_iff ns).1 apart) b
  · rfl

/-- A patch is turned away for a field out of range, for a fallback without primary, and for a fallback that is the
primary: sources in range are read as they are given, so two that are the same are read as the same. -/
theorem patchFields?_none {p f : Option (Nat × Nat)} {fa gap : Nat}
    (bad : (∃ d k, p = some (d, k) ∧ (d < 1 ∨ 3 < d ∨ k < 1 ∨ 32 < k)) ∨
      (∃ d k, f = some (d, k) ∧ (d < 1 ∨ 3 < d ∨ k < 1 ∨ 32 < k)) ∨ 1 < fa ∨ 15 < gap ∨
      (f ≠ none ∧ (p = none ∨ p = f))) : patchFields? p f fa gap = none := by
  unfold patchFields?
  split
  · next x y a hx hy ha =>
    rw [if_neg]
    rintro ⟨small, pair⟩
    rcases bad with ⟨d, k, rfl, b⟩ | ⟨d, k, rfl, b⟩ | b | b | ⟨given, twice⟩
    · rw [opt?_none.2 ⟨_, rfl, source?_none.2 b⟩] at hx; cases hx
    · rw [opt?_none.2 ⟨_, rfl, source?_none.2 b⟩] at hy; cases hy
    · rw [failAction?_none.2 b] at ha; cases ha
    · omega
    · obtain ⟨v, rfl⟩ := Option.ne_none_iff_exists'.1 given
      have present : y ≠ none := by
        rintro rfl
        simp [opt?] at hy
      obtain ⟨primary, differs⟩ := pair.resolve_left present
      rcases twice with rfl | rfl
      · exact primary (by simpa [opt?] using hx.symm)
      · exact differs (Option.some.inj (hy.symm.trans hx))
  · rfl

/-! ## Requests turned away -/

/-- A row that is the arrival of a request, of a free requester that may make it: the request reaches its owner. -/
theorem exec_request {i : Instr} {who : Requester} {tag : Byte} {c : Call} {s : State}
    (row : exec i s = .next { s with hub := submit who tag c s.hub }) (free : Free who s.hub)
    (known : knownKind c.kind = true) (open_ : panelOnly c.kind = false ∨ who = .panel) :
    exec i s = .next (s.withHub (handOver who s.hub.sto.erasePrepared c (s.hub.taken who tag c))) := by
  rw [row, submit_handOver free tag known open_]

/-- A request that its owner answers and does nothing else for. -/
theorem exec_answered {i : Instr} {who : Requester} {tag : Byte} {c : Call} {s : State} {code : Code} {body : List Byte}
    (row : exec i s = .next { s with hub := submit who tag c s.hub }) (free : Free who s.hub)
    (known : knownKind c.kind = true) (open_ : panelOnly c.kind = false ∨ who = .panel)
    (answer : handOver who s.hub.sto.erasePrepared c (s.hub.taken who tag c) =
      answerTo who code body (s.hub.taken who tag c)) :
    exec i s = .next (s.withHub (s.hub.answered who tag c code body)) := by
  rw [exec_request row free known open_, answer]
  rfl

end Sys2Proof.Machine
end

/-!
Requests turned away (R3, R17, R20, R31, R34, R43, R49, R50, R57, R120, R123, R138, R140), each by the check that it fails.
-/
section
namespace Sys2Proof.Machine

/-! ## Verdicts (R41) -/

/-- Another's held resource, or an orphaned one, gives the code of a verdict that refuses. -/
theorem permission_code {x : Arb} {who : Requester} {r : Res} {code : Code}
    (refused : (code = .held ∧ ∃ holder l, x.claim r = .held holder l ∧ holder ≠ who) ∨
      (code = .orphaned ∧ ∃ d l t, x.claim r = .orphaned d l t)) :
    (x.permission who r).code = some code := by
  rcases refused with ⟨rfl, holder, l, claim, other⟩ | ⟨rfl, d, l, t, claim⟩
  · simp [Arb.permission, claim, other, Permission.code]
  · simp [Arb.permission, claim, Permission.code]

/-- A verdict on a list that refuses one of it. -/
theorem permits_refused {x : Arb} {who : Requester} {l : List Chan}
    (refused : ∃ m ∈ l, x.permission who (Chan.res m) ≠ .permitted) :
    (l.all fun m => x.permits who (Chan.res m)) = false := by
  obtain ⟨m, hm, no⟩ := refused
  exact List.all_eq_false.2 ⟨m, hm, by simpa [Arb.permits] using no⟩

/-! ## SET_INPUT -/

/-- A delta that takes a member out of range (R17). -/
theorem gainFits_outside {p : Pcu} {c : Chan} {ms : List Chan} {gain : Option Nat} (group : p.groupOf c = ms) :
    p.gainFits c gain = false ↔ ∃ x, gain = some x ∧ ∃ m ∈ ms,
      ((p.channel m).commandedGain : Int) + ((x : Int) - (p.channel c).commandedGain) < 0 ∨
        127 < ((p.channel m).commandedGain : Int) + ((x : Int) - (p.channel c).commandedGain) := by
  cases gain with
  | none => simp [Pcu.gainFits]
  | some g =>
    simp only [Pcu.gainFits, group, List.all_eq_false, decide_eq_true_eq, not_and_or, Int.not_le]
    simp only [Pcu.memberGain]
    exact ⟨fun h => ⟨g, rfl, h⟩, fun ⟨x, hx, h⟩ => Option.some.inj hx ▸ h⟩

/-- SET_INPUT of a channel or a field out of range. -/
theorem setInput_outOfRange {who : Requester} {ch : Nat} {gain pad hpf phantom : Option Nat} {h : Hub}
    (bad : chan? ch = none ∨ inputFields? gain pad hpf phantom = none) :
    pcuSetInput who ch gain pad hpf phantom h = answerTo who .range [] h := by
  unfold pcuSetInput
  split
  · next hc hf => rcases bad with b | b
                  · rw [b] at hc; cases hc
                  · rw [b] at hf; cases hf
  · rfl

/-- SET_INPUT whose gain takes a channel out of range. -/
theorem setInput_gainOutside {who : Requester} {c : Chan} {gain pad hpf phantom : Option Nat} {f : InputFields} {h : Hub}
    (fields : inputFields? gain pad hpf phantom = some f) (outside : h.pcu.gainFits c f.gain = false) :
    pcuSetInput who (c.1 + 1) gain pad hpf phantom h = answerTo who .range [] h := by
  simp [pcuSetInput, fields, outside]

/-- SET_INPUT whose verdict refuses. -/
theorem setInput_refused {who : Requester} {c : Chan} {gain pad hpf phantom : Option Nat} {f : InputFields} {h : Hub}
    {code : Code} (fields : inputFields? gain pad hpf phantom = some f) (fits : h.pcu.gainFits c f.gain = true)
    (refused : inputPermission h who c f = some code) :
    pcuSetInput who (c.1 + 1) gain pad hpf phantom h = answerTo who code [] h := by
  simp [pcuSetInput, fields, fits, refused]

/-- A request with a field asks a verdict. -/
theorem fields_not_empty {gain pad hpf phantom : Option Nat} {f : InputFields} (g : f.gain = gain)
    (p : f.pad.isSome = pad.isSome) (h : f.hpf.isSome = hpf.isSome) (ph : f.phantom.isSome = phantom.isSome)
    (carried : gain ≠ none ∨ pad ≠ none ∨ hpf ≠ none ∨ phantom ≠ none) : f.empty = false := by
  simp only [ne_eq, ← Option.isSome_iff_ne_none, ← g, ← p, ← h, ← ph] at carried
  simp only [InputFields.empty, ← Option.not_isSome, Bool.and_eq_false_iff, Bool.not_eq_false']
  rcases carried with c | c | c | c <;> simp [c]

/-! ## SET_GANG, SET_TRACKING and SET_TRIM -/

/-- SET_GANG of a bad group or list. -/
theorem setGang_outOfRange {who : Requester} {n : Nat} {ns : List Nat} {h : Hub}
    (bad : grp? n = none ∨ members? ns = none) : pcuSetGang who n ns h = answerTo who .range [] h := by
  unfold pcuSetGang
  rcases bad with b | b
  · rw [b]
  · rw [b]; split <;> simp_all

/-- A channel of another group. -/
theorem Pcu.freeFor_other {p : Pcu} {g : Grp} {ms : List Chan} :
    p.freeFor g ms = false ↔ ∃ m ∈ ms, ∃ k, (p.channel m).gang = some k ∧ k ≠ g := by
  rw [← Bool.not_eq_true, Pcu.freeFor_iff]
  push Not
  refine exists_congr fun m => and_congr_right fun _ => ?_
  cases (p.channel m).gang <;> simp

/-- The entries of another desk. -/
theorem ownsEntries_another {who : Requester} {d : Nat} {x : Desk} (desk : desk? d = some x)
    (another : who ≠ .panel ∧ ∀ y : Desk, who = y.req → d ≠ Desk.num y) : ownsEntries who x = false := by
  obtain ⟨desks, other⟩ := another
  have num : d = Desk.num x := by
    rcases d with _ | _ | _ | _ | d <;> simp [desk?] at desk <;> subst desk <;> rfl
  have : who ≠ x.req := fun h => other x h num
  simp [ownsEntries, desks, this]

/-- SET_TRACKING of a bad desk, set or value, and of another desk's entries. -/
theorem setTracking_outOfRange {who : Requester} {d value : Nat} {set : BitSet 72} {h : Hub}
    (bad : desk? d = none ∨ (BitSet.members set).isEmpty = true ∨ onOff? value = none) :
    pcuSetTracking who d set value h = answerTo who .range [] h := by
  unfold pcuSetTracking
  split
  · next hd hv =>
    rcases bad with b | b | b
    · rw [b] at hd; cases hd
    · rw [if_pos b]
    · rw [b] at hv; cases hv
  · rfl

theorem setTracking_another {who : Requester} {d value : Nat} {set : BitSet 72} {h : Hub}
    (good : ¬(desk? d = none ∨ (BitSet.members set).isEmpty = true ∨ onOff? value = none))
    (another : who ≠ .panel ∧ ∀ y : Desk, who = y.req → d ≠ Desk.num y) :
    pcuSetTracking who d set value h = answerTo who .denied [] h := by
  push Not at good
  obtain ⟨desk, full, on⟩ := good
  obtain ⟨x, desk⟩ := Option.ne_none_iff_exists'.1 desk
  obtain ⟨v, on⟩ := Option.ne_none_iff_exists'.1 on
  simp [pcuSetTracking, desk, on, full, ownsEntries_another desk another]

/-- SET_TRIM of a bad desk, channel or trim, and of another desk's entries. -/
theorem setTrim_outOfRange {who : Requester} {d ch : Nat} {trim : Int} {h : Hub}
    (bad : desk? d = none ∨ chan? ch = none ∨ trim? trim = none) :
    pcuSetTrim who d ch trim h = answerTo who .range [] h := by
  unfold pcuSetTrim
  split
  · next hd hc ht =>
    rcases bad with b | b | b
    · rw [b] at hd; cases hd
    · rw [b] at hc; cases hc
    · rw [b] at ht; cases ht
  · rfl

theorem setTrim_another {who : Requester} {d ch : Nat} {trim : Int} {h : Hub}
    (good : ¬(desk? d = none ∨ chan? ch = none ∨ trim? trim = none))
    (another : who ≠ .panel ∧ ∀ y : Desk, who = y.req → d ≠ Desk.num y) :
    pcuSetTrim who d ch trim h = answerTo who .denied [] h := by
  push Not at good
  obtain ⟨desk, chan, value⟩ := good
  obtain ⟨x, desk⟩ := Option.ne_none_iff_exists'.1 desk
  obtain ⟨c, chan⟩ := Option.ne_none_iff_exists'.1 chan
  obtain ⟨t, value⟩ := Option.ne_none_iff_exists'.1 value
  simp [pcuSetTrim, desk, chan, value, ownsEntries_another desk another]

/-! ## Requests on outputs and talk -/

/-- The first output of a set whose verdict refuses gives the code (R123, check 2). -/
theorem enableRefusal_first {x : Arb} {who : Requester} {code : Code} {l : List Out} {i : Out} (sorted : l.Pairwise (· < ·))
    (mem : i ∈ l) (before : ∀ j ∈ l, j < i → x.permission who (Out.res j) = .permitted)
    (refused : (x.permission who (Out.res i)).code = some code) : enableRefusal x who l = some code := by
  induction l with
  | nil => cases mem
  | cons j l ih =>
    obtain ⟨first, sorted⟩ := List.pairwise_cons.1 sorted
    by_cases h : i = j
    · subst h; simp [enableRefusal, refused]
    · have mem : i ∈ l := (List.mem_cons.1 mem).resolve_left h
      have permitted := before j (by simp) (first i mem)
      rw [enableRefusal, permitted]
      exact ih sorted mem fun k hk => before k (List.mem_cons_of_mem _ hk)

/-- The members of a set stand in number order. -/
theorem members_sorted {n : Nat} (v : BitSet n) : (BitSet.members v).Pairwise (· < ·) :=
  (List.pairwise_lt_finRange n).filter _

/-- TALK_ON of a desk whose link is not UP, as the next head of its queue (R138, R160). -/
theorem talkOn_notUp {d : Desk} {set : BitSet 32} {duck : Nat} {h : Hub} (down : h.linkUp d = false)
    (some_ : ∃ o, Tbl.get set o = true) (range : duck ≤ 30) :
    tbkTalkOn d.req set duck h = answerTo d.req .notUp [] h := by
  have full : (BitSet.members set).isEmpty = false := by
    rw [← Bool.not_eq_true, members_isEmpty]
    obtain ⟨o, ho⟩ := some_
    exact fun e => by simp [e o] at ho
  simp [tbkTalkOn, full, Nat.not_lt.2 range, down]

/-- Settles O12: each request fails the check that its code names. -/
theorem requestsTurnedAway : Obligations.RequestsTurnedAway := by
  unfold Obligations.RequestsTurnedAway
  refine ⟨?_, ?_, ?_, ?_, ?_, ?_, ?_, ?_⟩
  · intro who tag ch gain pad hpf phantom s free call result
    have turned {code : Code} (e : pcuSetInput who ch gain pad hpf phantom (s.hub.taken who tag call) =
        answerTo who code [] (s.hub.taken who tag call)) :
        result = .next (s.withHub (s.hub.answered who tag call code [])) :=
      exec_answered rfl free rfl (.inl rfl) e
    have pcu : (s.hub.taken who tag call).pcu = s.hub.pcu := by simp
    have arb : (s.hub.taken who tag call).arb = s.hub.arb := by simp
    refine ⟨fun bad => ?_, fun c number g p f ph alone carried => ?_, fun c number e1 e2 e3 e4 => ?_,
      fun c k ms number member list g p f ph carried => ?_⟩
    · refine turned (setInput_outOfRange ?_)
      rcases bad with b | b | b
      · exact .inl (chan?_none.2 (.inl b))
      · exact .inl (chan?_none.2 (.inr b))
      · exact .inr (inputFields?_none b)
    · obtain ⟨x, fields, gains, pads, hpfs, phantoms⟩ := inputFields?_some g p f ph
      have refused {code : Code} (e : (s.hub.arb.permission who (Chan.res c)).code = some code) :
          result = .next (s.withHub (s.hub.answered who tag call code [])) := by
        subst number
        refine turned (setInput_refused fields (by rw [pcu, gains]; exact gainFits_alone alone g) ?_)
        rw [inputPermission_congr arb pcu]
        simp [inputPermission, fields_not_empty gains pads hpfs phantoms carried, alone, e]
      exact ⟨fun holder l claim other => refused (permission_code (.inl ⟨rfl, holder, l, claim, other⟩)),
        fun d l t claim => refused (permission_code (.inr ⟨rfl, d, l, t, claim⟩))⟩
    · subst number e1 e2 e3 e4
      have opposes : phantomOpposes (s.hub.pcu.channel c).phantomState none = false := by
        cases (s.hub.pcu.channel c).phantomState <;> rfl
      have done := setInput_done (gain := none) (pad := none) (hpf := none) (phantom := none)
        (f := ⟨none, none, none, none⟩) free rfl rfl rfl opposes tag
      have event : (PcuEvent.start s.hub.pcu).setInput s.hub.now who c ⟨none, none, none, none⟩ =
          PcuEvent.start s.hub.pcu := rfl
      rw [event, ← pcu, commitPcu_start] at done
      exact done
    · obtain ⟨x, fields, gains, pads, hpfs, phantoms⟩ := inputFields?_some g p f ph
      have group : s.hub.pcu.groupOf c = ms := by simp [Pcu.groupOf, member, list]
      subst number
      intro outside
      refine ⟨fun out => turned (setInput_gainOutside fields ?_), fun inside refused => turned (setInput_refused fields ?_ ?_)⟩
      · rw [pcu, gains]
        exact (gainFits_outside group).2 out
      · rw [pcu, gains, ← Bool.not_eq_false, gainFits_outside group]
        exact inside
      · have stages : x.stages = true := by
          rw [← Option.isSome_iff_ne_none, ← Option.isSome_iff_ne_none, ← pads, ← gains] at carried
          simpa [InputFields.stages] using carried
        have fields := fields_not_empty gains pads hpfs phantoms (carried.imp_right .inl)
        rw [inputPermission_congr arb pcu]
        simp [inputPermission, fields, stages, member, group, permits_refused refused]
  · intro who tag n ns s free turned
    have away {code : Code} (e : pcuSetGang who n ns (s.hub.taken who tag (.setGang n ns)) =
        answerTo who code [] (s.hub.taken who tag (.setGang n ns))) : turned code :=
      exec_answered rfl free rfl (.inl rfl) e
    refine ⟨fun bad => away (setGang_outOfRange ?_), fun g ms number list => ?_⟩
    · rcases bad with b | b | b
      · exact .inl (grp?_none.2 (.inl b))
      · exact .inl (grp?_none.2 (.inr b))
      · exact .inr (members?_none b)
    · subst number
      intro other
      refine ⟨fun elsewhere => away ?_, fun own refused => away ?_⟩
      · simp [pcuSetGang, list, Pcu.freeFor_other.2 elsewhere]
      · have freeFor : s.hub.pcu.freeFor g ms = true := by
          rw [← Bool.not_eq_false, Pcu.freeFor_other]
          exact own
        have no := permits_refused refused
        simp only [pcuSetGang, grp?_num, list, Hub.taken_other, freeFor, Pcu.members, no]
        rfl
  · intro who tag d ch value set trim s free tracked trimmed badDesk another badSet badTrim
    have track {code : Code} (e : pcuSetTracking who d set value (s.hub.taken who tag (.setTracking d set value)) =
        answerTo who code [] (s.hub.taken who tag (.setTracking d set value))) : tracked code :=
      exec_answered rfl free rfl (.inl rfl) e
    have trims {code : Code} (e : pcuSetTrim who d ch trim (s.hub.taken who tag (.setTrim d ch trim)) =
        answerTo who code [] (s.hub.taken who tag (.setTrim d ch trim))) : trimmed code :=
      exec_answered rfl free rfl (.inl rfl) e
    refine ⟨fun bad => track (setTracking_outOfRange ?_), fun good other => track (setTracking_another ?_ other),
      fun bad => trims (setTrim_outOfRange ?_), fun good other => trims (setTrim_another ?_ other)⟩
    · rwa [desk?_none, members_isEmpty, onOff?_none]
    · rwa [desk?_none, members_isEmpty, onOff?_none]
    · rwa [desk?_none, chan?_none, trim?_none, @or_assoc (ch < 1)]
    · rwa [desk?_none, chan?_none, trim?_none, @or_assoc (ch < 1)]
  · intro who tag n p f fa gap s free bad outside
    refine exec_answered rfl free rfl (.inl rfl) ?_
    have none_ : out? n = none ∨ patchFields? p f fa gap = none := by
      rcases outside with b | b | b
      · exact .inl (out?_none.2 (.inl b))
      · exact .inl (out?_none.2 (.inr b))
      · exact .inr (patchFields?_none b)
    show monSetPatch who n p f fa gap _ = _
    unfold monSetPatch
    rcases none_ with b | b
    · rw [b]
    · rw [b]; split <;> simp_all
  · intro who tag ns n s free h
    refine ⟨fun bad => ?_, fun bad => ⟨?_, ?_, ?_⟩, fun plain => ⟨fun list => ?_, ?_⟩,
      fun frozen list => ⟨fun level => ?_, ?_, fun super => ?_⟩, fun frozen super => ?_⟩ <;>
      refine exec_answered rfl free rfl (.inl rfl) ?_
    · show arbClaim who ns n _ = _
      unfold arbClaim
      rcases bad with b | b
      · rw [b]
      · rw [b]; split <;> simp_all
    · show arbRelease who ns _ = _
      rw [arbRelease, bad]
    · show arbOverride who ns _ = _
      rw [arbOverride, bad]
    · show arbReadClaims who ns _ = _
      rw [arbReadClaims, bad]
    · obtain ⟨rs, list⟩ := Option.ne_none_iff_exists'.1 list
      show arbOverride who ns _ = _
      simp [arbOverride, list, show s.hub.sto.install.supervisor.get who = false from plain]
    · show arbFreeze who _ = _
      simp [arbFreeze, show s.hub.sto.install.supervisor.get who = false from plain]
    · obtain ⟨rs, list⟩ := Option.ne_none_iff_exists'.1 list
      obtain ⟨l, level⟩ := Option.ne_none_iff_exists'.1 level
      show arbClaim who ns n _ = _
      simp [arbClaim, list, level, show s.hub.arb.frozen = true from frozen]
    · obtain ⟨rs, list⟩ := Option.ne_none_iff_exists'.1 list
      show arbRelease who ns _ = _
      simp [arbRelease, list, show s.hub.arb.frozen = true from frozen]
    · obtain ⟨rs, list⟩ := Option.ne_none_iff_exists'.1 list
      show arbOverride who ns _ = _
      simp [arbOverride, list, show s.hub.arb.frozen = true from frozen,
        show s.hub.sto.install.supervisor.get who = true from super]
    · show arbFreeze who _ = _
      simp [arbFreeze, show s.hub.arb.frozen = true from frozen,
        show s.hub.sto.install.supervisor.get who = true from super]
  · intro who tag i p f fa gap x set on code s free fields mem before refused value
    have verdict := permission_code refused
    constructor
    · refine exec_answered rfl free rfl (.inl rfl) ?_
      show monSetPatch who (i.1 + 1) p f fa gap _ = _
      simp [monSetPatch, fields, verdict]
    · refine exec_answered rfl free rfl (.inl rfl) ?_
      have some_ : (BitSet.members set).isEmpty = false := by
        rw [← Bool.not_eq_true, members_isEmpty]
        exact fun e => by simp [e i] at mem
      have first : enableRefusal s.hub.arb who (BitSet.members set) = some code :=
        enableRefusal_first (members_sorted set) (by simpa using mem)
          (fun j hj lt => before j lt (by simpa using hj)) verdict
      have read : onOff? value = some on := by cases on <;> rfl
      show monOutputEnable who set value _ = _
      simp [monOutputEnable, read, some_, first]
  · intro who tag set duck s free bad
    have range : bad ↔ ((BitSet.members set).isEmpty || decide (30 < duck)) = true := by
      rw [Bool.or_eq_true, members_isEmpty, decide_eq_true_eq]
    refine ⟨fun b => exec_answered rfl free rfl (.inl rfl) ?_, fun b panel => exec_answered rfl free rfl (.inl rfl) ?_⟩
    · show tbkTalkOn who set duck _ = _
      rw [tbkTalkOn, if_pos (range.1 b)]
    · subst panel
      show tbkTalkOn _ set duck _ = _
      rw [tbkTalkOn, if_neg (fun h => b (range.2 h))]
      rfl
  · intro d tag set duck e es s q p down sent items some_ range
    let k := (s.hub.setQueue d.req q.pop).setDesk d { p with
      answer := none, tx := none, hold := holdAfterDelivery p.hold q.pop.items.length }
    have next : k.req.queues.get d.req = ⟨⟨tag, .talkOn set duck⟩ :: es, false, q.discarded⟩ := by
      simp [k, ReqQueue.pop, items]
    have slot : k.slotEmpty d.req = true := by
      cases d <;> simp [k, Hub.slotEmpty]
    have run : answerDelivery d s.hub = takeHead d.req k := if_pos sent
    show Host.Outcome.next _ = _
    have desk : d.req ≠ .panel := by cases d <;> simp [Desk.req]
    have marks (h : Hub) : clearPrepare d.req (.talkOn set duck) h = h := if_neg fun e => desk e.1
    have taken : k.setQueue d.req ⟨⟨tag, .talkOn set duck⟩ :: es, true, q.discarded⟩ =
        (s.hub.setQueue d.req ⟨⟨tag, .talkOn set duck⟩ :: es, true, q.discarded⟩).setDesk d
          { p with answer := none, tx := none, hold := p.hold && !decide (es.length + 1 ≤ 3) } := by
      simp [k, Hub.setQueue, Hub.setDesk, ReqQueue.pop, items, holdAfterDelivery]
    rw [run, takeHead_eq (e := ⟨tag, .talkOn set duck⟩) (es := es) (by rw [next]) (by rw [next]) slot, next, marks, taken]
    exact congrArg (fun h => Host.Outcome.next (s.withHub h))
      (talkOn_notUp (by simpa [Hub.linkUp] using down) some_ range)

end Sys2Proof.Machine
end

/-!
The requests that read (R21, R22, R61, R91, R100, R130, R149, R176, R182): each answers what the records say.
-/
section
namespace Sys2Proof.Machine

@[simp] theorem desk?_num (d : Desk) : desk? (Desk.num d) = some d := by cases d <;> rfl

/-- What three desks give, in the order A, B, C. -/
theorem desks_flatMap {α : Type} (f : Desk → List α) : Desk.all.flatMap f = f .a ++ f .b ++ f .c := by
  simp [Desk.all]

/-- Settles O46: the body of each answer is what the records named give. -/
theorem readsReportTheState : Obligations.ReadsReportTheState := by
  unfold Obligations.ReadsReportTheState
  intro who tag s free h done range entry claimed lane
  have answers {i : Instr} {c : Call} {code : Code} {body : List Byte}
      (row : exec i s = .next { s with hub := submit who tag c s.hub }) (known : knownKind c.kind = true)
      (open_ : panelOnly c.kind = false ∨ who = .panel)
      (e : handOver who s.hub.sto.erasePrepared c (s.hub.taken who tag c) =
        answerTo who code body (s.hub.taken who tag c)) :=
    exec_answered row free known open_ e
  refine ⟨?_, fun n bad => ?_, fun g => ?_, fun n bad => ?_, ?_, fun rs ns list => ?_, ?_, fun n bad => ?_,
    ?_, ?_, ?_, fun n bad => ⟨?_, ?_⟩, fun panel => ?_, fun panel => ?_⟩
  · intro c x
    refine answers rfl rfl (.inl rfl) ?_
    show pcuReadInput who (c.1 + 1) _ = _
    rw [pcuReadInput, chan?_num]
    cases who with
    | panel =>
      show answerTo _ _ (_ ++ Desk.all.flatMap _) _ = _
      rw [desks_flatMap]
      rfl
    | a => rfl
    | b => rfl
    | c => rfl
  · refine answers rfl rfl (.inl rfl) ?_
    show pcuReadInput who n _ = _
    rw [pcuReadInput, chan?_none.2 (by omega)]
  · refine answers rfl rfl (.inl rfl) ?_
    show pcuReadGang who (some (g.1 + 1)) _ = _
    simp only [pcuReadGang, grp?_num]
    rfl
  · refine answers rfl rfl (.inl rfl) ?_
    show pcuReadGang who (some n) _ = _
    simp only [pcuReadGang, grp?_none.2 (show n < 1 ∨ 12 < n by omega)]
  · exact answers rfl rfl (.inl rfl) rfl
  · refine answers rfl rfl (.inl rfl) ?_
    have records (r : Res) : readClaim (s.hub.taken who tag (.readClaims ns)) r = readClaim s.hub r := by
      simp [readClaim]
    show arbReadClaims who ns _ = _
    simp only [arbReadClaims, list, funext records, Hub.taken_other]
    rfl
  · intro i o
    refine answers rfl rfl (.inl rfl) ?_
    show monReadOutput who (i.1 + 1) _ = _
    simp only [monReadOutput, out?_num, Hub.taken_other]
    rfl
  · refine answers rfl rfl (.inl rfl) ?_
    show monReadOutput who n _ = _
    rw [monReadOutput, out?_none.2 (by omega)]
  · refine answers rfl rfl (.inl rfl) ?_
    show tbkReadTalk who _ = _
    simp only [tbkReadTalk, Hub.taken_other]
    rfl
  · intro d k
    refine answers rfl rfl (.inl rfl) ?_
    show lnkReadLink who (Desk.num d) _ = _
    simp only [lnkReadLink, desk?_num, laneBody, qualifyLength, Hub.lane, Hub.taken_other]
    rfl
  · intro d body
    refine answers rfl rfl (.inl rfl) ?_
    show hlmReadHealth who (Desk.num d) _ = _
    simp only [hlmReadHealth, desk?_num, Hub.taken_other]
    rfl
  · refine answers rfl rfl (.inl rfl) ?_
    show lnkReadLink who n _ = _
    rw [lnkReadLink, desk?_none.2 (by omega)]
  · refine answers rfl rfl (.inl rfl) ?_
    show hlmReadHealth who n _ = _
    rw [hlmReadHealth, desk?_none.2 (by omega)]
  · subst panel
    refine answers rfl rfl (.inr rfl) ?_
    simp only [handOver, stoReadInstall, Hub.taken_other, Hub.taken_store]
    rfl
  · subst panel
    intro p body after
    have handed (flush : Nat) : exec (.readNotices .panel tag flush) s =
        .next (s.withHub (pnlReadNotices .panel flush (s.hub.taken .panel tag (.readNotices flush)))) := by
      rw [exec_request (c := .readNotices flush) rfl free rfl (.inr rfl), handOver]
    refine ⟨?_, ?_, fun flush bad => ?_⟩
    · rw [handed]; rfl
    · rw [handed]; rfl
    · rw [handed, pnlReadNotices, offOn?_none.2 bad]; rfl

end Sys2Proof.Machine
end

/-!
HUB_RESTART (R63, R110, R151, R169, R177): the requests, claims, talk and tests that it drops, and what it keeps.
-/
section
namespace Sys2Proof.Machine

/-! ## The restart of the blocks -/

/-- A test that has not counted its whole length is not completed. -/
theorem testComplete_idle {h : Hub} {d : Desk}
    (short : ∀ x, h.hlm.tests.get d = some x → x.status = .running → x.framesDone < x.length) : testComplete d h = h := by
  unfold testComplete
  split
  · rfl
  · next x test =>
    rw [if_neg]
    simp only [TestRec.complete, decide_eq_true_eq, not_and, Nat.not_le]
    exact short x test

/-- The part after the restart of its blocks, before HUB_RESTARTED is sent. -/
def Hub.restarted (h : Hub) : Hub :=
  let k := tbkRestart { h with hlm := { h.hlm with tests := PerDesk.of fun d => (h.hlm.tests.get d).map TestRec.restart } }
  { k with arb := h.arb.restart, req := h.req.restart, pnl := h.pnl.flush }

/-- What a restart leaves, and what it empties. -/
@[simp] theorem Hub.restarted_fields (h : Hub) :
    h.restarted.now = h.now ∧ h.restarted.pcu = h.pcu ∧ h.restarted.arb = h.arb.restart ∧ h.restarted.links = h.links ∧
    h.restarted.hlm = { h.hlm with tests := PerDesk.of fun d => (h.hlm.tests.get d).map TestRec.restart } ∧
    h.restarted.tbk = { h.tbk with
      records := PerDesk.of fun _ => none, grants := Vector.replicate 32 none, order := [] } ∧
    h.restarted.sto = h.sto ∧ h.restarted.req = h.req.restart ∧ h.restarted.pnl = h.pnl.flush ∧
    h.restarted.mon.safe = h.mon.safe := by
  simp [Hub.restarted, tbkRestart, handTalk]

/-- A restart keeps the show freeze. -/
theorem Arb.restart_frozen (x : Arb) : x.restart.frozen = x.frozen := by
  unfold Arb.restart; split <;> simp [*]

/-- It returns every claim to OPENED where the show is not frozen, and drops the pending claims (R63). -/
theorem Arb.restart_claim (x : Arb) (r : Res) : x.restart.claim r = if x.frozen = true then x.claim r else .opened := by
  unfold Arb.restart; split <;> simp [Arb.claim]

theorem Arb.restart_pending (x : Arb) (r : Requester) : x.restart.pendingClaims.get r = none := by
  unfold Arb.restart; split <;> simp

/-- A test in progress is aborted (R110). -/
theorem TestRec.restart_eq (x : TestRec) :
    x.restart = if x.status = .running ∨ x.status = .suspended then { x with status := .aborted } else x := by
  have : x.inProgress = true ↔ x.status = .running ∨ x.status = .suspended := by
    unfold TestRec.inProgress
    split <;> simp [*]
  simp [TestRec.restart, this]

/-- HUB_RESTART with no test to complete. -/
theorem hubRestart_eq {h : Hub}
    (short : ∀ d x, h.hlm.tests.get d = some x → x.status = .running → x.framesDone < x.length) (who : Requester) :
    hubRestart who h = answerTo who .done [] (notifyAll (.hubRestarted h.arb.frozen) h.restarted) := by
  have tests : hlmRestart h =
      { h with hlm := { h.hlm with tests := PerDesk.of fun d => (h.hlm.tests.get d).map TestRec.restart } } := by
    unfold hlmRestart Desk.all
    simp only [List.foldl_cons, List.foldl_nil, testComplete_idle (short _)]
  unfold hubRestart
  rw [tests, ← Arb.restart_frozen]
  rfl

/-- A desk's part of REQ after the restart and its notice (R164, R169). -/
theorem DeskPort.restart_place (p : DeskPort) (n : Notice) :
    p.restart.place n = ⟨false, none, [⟨n, true⟩], false, none, p.asm⟩ := rfl

/-- The talk at an output after a restart: an output that had a talker loses it (R126, R151). -/
theorem Hub.restarted_output {h : Hub} (talk : h.TalkOk) (i : Out) :
    h.restarted.mon.output i = if Tbl.get h.tbk.grants i = none then h.mon.output i
      else { h.mon.output i with
        talker := none, duckTarget := 0, duck := if (h.mon.output i).gap = 0 then 0 else (h.mon.output i).duck } := by
  obtain ⟨-, granted, -⟩ := talk
  have free : Tbk.talkAt { h.tbk with
      records := PerDesk.of fun _ => none, grants := Vector.replicate 32 none, order := [] } i = none := by
    simp [Tbk.talkAt]
  simp only [Hub.restarted, tbkRestart, handTalk, Mon.output_of, free]
  cases grant : Tbl.get h.tbk.grants i with
  | none => simp [Tbk.talkAt, grant]
  | some d =>
    obtain ⟨r, record⟩ := Option.ne_none_iff_exists'.1 (granted i d grant).1
    have : h.tbk.talkAt i ≠ none := by simp [Tbk.talkAt, grant, record]
    rw [if_neg this]
    rfl

/-- The part after HUB_RESTART, written out: the blocks restarted, HUB_RESTARTED sent, PANEL answered DONE. -/
theorem exec_hubRestart {tag : Byte} {s : State} (free : Free .panel s.hub)
    (short : ∀ d x, s.hub.hlm.tests.get d = some x → x.status = .running → x.framesDone < x.length) :
    let k := s.hub.taken .panel tag .hubRestart
    let n := notifyAll (.hubRestarted k.arb.frozen) k.restarted
    exec (.hubRestart .panel tag) s = .next (s.withHub
      ((n.setQueue .panel ⟨[⟨tag, .hubRestart⟩], true, false⟩).putAnswer .panel ⟨0x1E#8, tag, false, .done, []⟩)) := by
  intro k n
  have queue : n.req.queues.get .panel = ⟨[⟨tag, .hubRestart⟩], true, false⟩ := by
    have dropped : n.req.queues.get .panel = (k.req.queues.get .panel).panelRestart := by
      rw [notifyAll_queues]
      rfl
    rw [dropped, Hub.taken_queue]
    rfl
  have restart : hubRestart .panel k = answerTo .panel .done [] n := by
    refine hubRestart_eq (h := k) ?_ .panel
    simpa [k] using short
  rw [exec_request (c := .hubRestart) rfl free rfl (.inr rfl), handOver, restart,
    answerTo_eq (by rw [queue]) (by rw [queue]), queue]
  rfl

/-- Settles O49: the part after the restart, block by block. -/
theorem hubRestartDropsRequestsAndTalk : Obligations.HubRestartDropsRequestsAndTalk := by
  unfold Obligations.HubRestartDropsRequestsAndTalk
  intro tag s free short h
  let k := s.hub.taken .panel tag .hubRestart
  let n := notifyAll (.hubRestarted h.arb.frozen) k.restarted
  let after := (n.setQueue .panel ⟨[⟨tag, .hubRestart⟩], true, false⟩).putAnswer .panel ⟨0x1E#8, tag, false, .done, []⟩
  obtain ⟨now, pcu, arb, links, hlm, mon, tbk, sto, -⟩ :=
    Hub.core_eq (h := after) (k := k.restarted) (by simp [after, n])
  have talk : h.TalkOk → k.TalkOk := id
  have place (d : Desk) : after.req.desks.get d =
      if h.linkUp d = true then (h.req.desks.get d).restart.place (.hubRestarted h.arb.frozen)
        else (h.req.desks.get d).restart := by
    have desks : after.req.desks.get d = n.req.desks.get d := by
      simp only [after, Hub.putAnswer, Requester.desk, Hub.setQueue_other]
    have up : k.restarted.linkUp d = h.linkUp d := by simp [Hub.linkUp, k, h]
    have desk : k.restarted.req.desks.get d = (h.req.desks.get d).restart := by simp [Req.restart, k, h]
    rw [desks, notifyAll_desks, up, desk]
  have pnl : after.pnl = { h.pnl.flush.place (.hubRestarted h.arb.frozen) with
      answer := some ⟨0x1E#8, tag, false, .done, []⟩ } := by
    simp [after, Hub.putAnswer, Requester.desk, n, k, h]
  refine ⟨s.withHub after, exec_hubRestart free short, fun d => ?_, ?_, fun ok i => ?_, fun d => ?_, fun o => ?_, ?_,
    fun d x test => ?_, ?_, fun open_ r => ?_, fun frozen r => ?_, ?_, fun r => ?_, ?_, ?_, ?_, ?_, ?_, ?_, ?_, ?_⟩
  · have queue : after.req.queues.get d.req = ⟨[], false, false⟩ := by
      have : after.req.queues.get d.req = k.req.restart.queues.get d.req := by
        cases d <;> simp [after, n, Desk.req]
      rw [this]
      cases d <;> rfl
    refine ⟨queue, ?_⟩
    rw [show (s.withHub after).hub.req.desks.get d = _ from place d]
    by_cases up : (h.links.get d).state = .up
    · rw [if_pos (by simpa [Hub.linkUp] using up), DeskPort.restart_place]
      simp [up, DeskPort.noticeGap]
    · rw [if_neg (by simpa [Hub.linkUp] using up)]
      simp [up, DeskPort.noticeGap, DeskPort.restart]
  · show after.mon = { h.mon with outputs := after.mon.outputs }
    rw [mon]
    rfl
  · show after.mon.output i = _
    rw [mon, Hub.restarted_output (talk ok)]
    rfl
  · show after.tbk.records.get d = none
    simp [tbk]
  · show Tbl.get after.tbk.grants o = none
    simp [tbk]
  · show after.tbk.arrival = _
    simp [tbk, k, h]
  · show after.hlm.tests.get d = _
    have same : k.hlm.tests.get d = some x := by rw [← test]; simp [k, h]
    simp only [hlm, Hub.restarted_fields, PerDesk.get_of, same, Option.map_some, TestRec.restart_eq]
  · show after.hlm.health = _
    simp [hlm, k, h]
  · show after.arb.claim r = _
    have : k.arb.frozen = false := by simpa [k, h] using open_
    simp [arb, Arb.restart_claim, this]
  · show after.arb.claim r = _
    have : k.arb.frozen = true := by simpa [k, h] using frozen
    have claims : after.arb = k.arb.restart := by simp [arb]
    rw [claims, Arb.restart_claim, if_pos this]
    simp [k, h]
  · show after.arb.frozen = _
    simp [arb, Arb.restart_frozen, k, h]
  · show after.arb.pendingClaims.get r = none
    simp [arb, Arb.restart_pending]
  · show after.pnl.notices = _
    rw [pnl]
    rfl
  · show after.pnl.discardCount = _
    rw [pnl]
    rfl
  · show after.pnl.rejected = _
    rw [pnl]
    rfl
  · show after.answerOf .panel = _
    simp [after]
  · show after.now = _
    simp [now, k, h]
  · show after.pcu = _
    simp [pcu, k, h]
  · show after.links = _
    simp [links, k, h]
  · show after.sto = _
    simp [sto, k, h, Hub.taken]

end Sys2Proof.Machine
end

/-!
FRAME_PERIOD (R65, R166, R2, R28): what is left of the period, the start of the next, and the three frames sent.
-/
section
namespace Sys2Proof.Machine

/-! ## The time within a period -/

/-- The counter stands until the period ends. -/
theorem within_now (n : Frame) : Within fun h => h.now = n where
  same e now := (congrArg Preamp.now e).trans now
  becomes _ now := now
  starts _ now := now
  completes _ now := now
  stops now := now

theorem endPeriod_now (h : Hub) : (endPeriod h).now = h.now := (within_now h.now).endPeriod rfl

/-! ## Control cells (R166) -/

/-- Sending starts a message or goes on with it. -/
theorem DeskPort.send_tx (p : DeskPort) (m : Tx) (tx : Option Tx) : { p with tx := tx }.send m = p.send m := by
  unfold DeskPort.send DeskPort.noticeSent
  split <;> rfl

/-- A message that waits is sent from its first cell. -/
theorem DeskPort.nextCell_start {p : DeskPort} {m : Tx} (idle : p.tx = none) (next : p.nextMessage = some m) :
    p.nextCell = ({ p with tx := some m } : DeskPort).nextCell := by
  have left : p.nextCell = p.send m := by
    unfold DeskPort.nextCell
    rw [idle, next]
  rw [left]
  exact (DeskPort.send_tx p m (some m)).symm

/-- HOLD is no matter of the cells. -/
theorem DeskPort.nextCell_hold (p : DeskPort) : p.nextCell.2.hold = p.hold := by
  have send (m : Tx) : (p.send m).2.hold = p.hold := by
    unfold DeskPort.send DeskPort.noticeSent
    split
    · rfl
    · dsimp only; split <;> rfl
    · rfl
  unfold DeskPort.nextCell
  split
  · exact send _
  · split
    · rfl
    · exact send _

/-! ## The frames sent -/

/-- The three frames are built from the part as it stands, each with the cell of its own desk. -/
theorem sendFrames_eq (ports : PortSamples) (h : Hub) :
    sendFrames ports h = { h with
      req := { h.req with desks := PerDesk.of fun d => (h.req.desks.get d).nextCell.2 }
      down := PerDesk.of fun d => buildFrame ports.st1 ports.st2 h d (h.req.desks.get d).nextCell.1 } := by
  rfl

/-- What sending the frames changes: the cells under way, and the frames. -/
theorem sendFrames_other (ports : PortSamples) (h : Hub) :
    let t := sendFrames ports h
    t.now = h.now ∧ t.pcu = h.pcu ∧ t.arb = h.arb ∧ t.links = h.links ∧ t.hlm = h.hlm ∧ t.mon = h.mon ∧ t.tbk = h.tbk ∧
    t.pnl = h.pnl ∧ t.sto = h.sto ∧ t.req.queues = h.req.queues := by
  simp only [sendFrames_eq, and_self]

theorem sendFrames_desk (ports : PortSamples) (h : Hub) (d : Desk) :
    (sendFrames ports h).req.desks.get d = (h.req.desks.get d).nextCell.2 ∧
    (sendFrames ports h).down.get d = buildFrame ports.st1 ports.st2 h d (h.req.desks.get d).nextCell.1 := by
  simp only [sendFrames_eq, PerDesk.get_of, and_self]

/-- The slot of a channel in a phantom transition, and that of one without a trim (R2, R28). -/
theorem inputSlot_transition {p : Pcu} {c : Chan}
    (state : (p.channel c).phantomState = .charging ∨ (p.channel c).phantomState = .discharging) (d : Desk) :
    inputSlot p d c = 0#24 := by
  have : (p.channel c).inTransition = true := by
    rcases state with s | s <;> simp [Channel.inTransition, s]
  simp [inputSlot, this]

theorem inputSlot_plain {p : Pcu} {d : Desk} {c : Chan} (steady : (p.channel c).inTransition = false)
    (trim : (p.track d c).trim = 0) : inputSlot p d c = Tbl.get p.samples c := by
  simp [inputSlot, steady, trim, trimmed]

/-- The notice-gap indication (R165). -/
theorem DeskPort.noticeGap_iff (p : DeskPort) :
    p.noticeGap = true ↔ p.gapOwed = true ∨ ∃ n ∈ p.notices, n.gap = true := by
  simp [DeskPort.noticeGap]

/-- Three desks in turn, in the order A, B, C. -/
theorem desks_foldl (f : Hub → Desk → Hub) (h : Hub) : Desk.all.foldl f h = f (f (f h .a) .b) .c := rfl

/-- The part at the end of the links' steps of a period (R73, R75). -/
def Hub.stepped (h : Hub) : Hub := Desk.all.foldl deliverStep (Desk.all.foldl takeStep (sweep (missingFrames h)))

/-- A period starts with the counter and the samples advanced, the lanes waiting for their frames, and the outputs
stepped and latched. -/
theorem advance_outputSamples (ports : PortSamples) (k : Hub) : advance ports (outputSamples k) = { k with
      now := k.now + 1#32
      pcu := { k.pcu with before := k.pcu.samples, samples := ports.inputs }
      links := PerDesk.of fun d => (k.links.get d).newPeriod
      mon := (outputSamples k).mon.newPeriod } := by
  simp only [advance, outputSamples]

theorem outputSamples_now (k : Hub) : (outputSamples k).now = k.now := by
  simp only [outputSamples]

theorem endPeriod_eq (h : Hub) : endPeriod h = outputSamples h.stepped := by
  rw [endPeriod, Hub.stepped]

theorem Hub.stepped_now (h : Hub) : h.stepped.now = h.now := by
  rw [← outputSamples_now, ← endPeriod_eq, endPeriod_now]

theorem advance_links (ports : PortSamples) (k : Hub) (d : Desk) :
    (advance ports (outputSamples k)).links.get d = (k.links.get d).newPeriod := by
  rw [advance_outputSamples, PerDesk.get_of]

theorem advance_mon (ports : PortSamples) (k : Hub) :
    (advance ports (outputSamples k)).mon.port = (outputSamples k).mon.port ∧
    (advance ports (outputSamples k)).mon.safe = k.mon.safe ∧
    ∀ i : Out, (advance ports (outputSamples k)).mon.output i = (k.mon.output i).fadeStep.duckStep ∧
      Tbl.get (advance ports (outputSamples k)).mon.view i = (k.mon.output i).latch := by
  rw [advance_outputSamples]
  simp only [Mon.newPeriod, Mon.output, Tbl.get_of, outputSamples, and_self, implies_true]

theorem advance_other (ports : PortSamples) (k : Hub) :
    let t := advance ports (outputSamples k)
    t.now = k.now + 1#32 ∧ t.pcu = { k.pcu with before := k.pcu.samples, samples := ports.inputs } ∧ t.arb = k.arb ∧ t.hlm = k.hlm ∧
    t.tbk = k.tbk ∧ t.sto = k.sto ∧ t.pnl = k.pnl ∧ t.req = k.req := by
  simp only [advance_outputSamples, and_self]

/-- The part after FRAME_PERIOD. -/
theorem framePeriod_eq (ports : PortSamples) (h : Hub) : framePeriod ports h =
    sendFrames ports (advance ports (outputSamples h.stepped)) := by
  rw [framePeriod, endPeriod_eq]

/-- Settles O53: the next period starts from the part at the end of the links' steps, and each frame carries what its
desk's part of REQ and the new period give. -/
theorem framePeriodSendsTheFrames : Obligations.FramePeriodSendsTheFrames := by
  unfold Obligations.FramePeriodSendsTheFrames
  refine ⟨fun ports s => ?_, fun p => ⟨?_, ?_, ?_, ?_, ?_, ?_, ?_⟩⟩
  · obtain ⟨port, safe, outputs⟩ := advance_mon ports s.hub.stepped
    obtain ⟨now, pcu, arb, hlm, tbk, sto, pnl, req⟩ := advance_other ports s.hub.stepped
    have links := advance_links ports s.hub.stepped
    rw [s.hub.stepped_now] at now
    obtain ⟨now', pcu', arb', links', hlm', mon', tbk', pnl', sto', queues'⟩ :=
      sendFrames_other ports (advance ports (outputSamples s.hub.stepped))
    have sent := sendFrames_desk ports (advance ports (outputSamples s.hub.stepped))
    refine ⟨⟨s.pending, framePeriod ports s.hub⟩, rfl, ?_⟩
    intro swept taken ended
    have stepped : ended = s.hub.stepped := by
      rw [Hub.stepped, desks_foldl, desks_foldl]
    rw [stepped, framePeriod_eq]
    clear stepped ended taken swept
    generalize sendFrames ports (advance ports (outputSamples s.hub.stepped)) = u at *
    generalize advance ports (outputSamples s.hub.stepped) = t at *
    generalize s.hub.stepped = k at *
    simp only [now', pcu', arb', links', hlm', mon', tbk', pnl', sto', queues', Hub.lane]
    refine ⟨trivial, now, by rw [pcu], pcu, links, port, safe, outputs, arb, hlm, tbk, sto, pnl, by rw [req], fun d => ?_,
      fun l => ?_, fun d => ?_⟩
    · rw [links]
      exact ⟨rfl, rfl⟩
    · rw [links]
      obtain ⟨d, side⟩ := l
      cases side <;> exact ⟨rfl, rfl⟩
    · obtain ⟨desk, frame⟩ := sent d
      rw [frame, desk, req]
      refine ⟨rfl, ?_, ?_, ?_, rfl, rfl, rfl, rfl, ?_, fun c => ?_, fun c state => ?_, fun c steady trim => ?_⟩
      · rw [buildFrame, req]
      · rw [buildFrame, req, DeskPort.nextCell_hold]
      · rw [buildFrame, req, DeskPort.noticeGap_iff]
      · simp only [buildFrame, stageSlot, tbk', sto']
      · rw [buildFrame, Tbl.get_of]
      · rw [buildFrame, Tbl.get_of, inputSlot_transition state]
      · rw [buildFrame, Tbl.get_of, inputSlot_plain steady trim, pcu]
  · intro c c' cs isAnswer tx
    simp [DeskPort.nextCell, tx, DeskPort.send]
  · intro c tx
    simp [DeskPort.nextCell, tx, DeskPort.send]
  · intro c tx
    simp [DeskPort.nextCell, tx, DeskPort.send, DeskPort.noticeSent]
  · intro isAnswer tx
    have same : { p with tx := some ⟨[], isAnswer⟩ } = p := by rw [← tx]
    simp only [DeskPort.nextCell, tx, DeskPort.send, same]
  · intro idle answer notices
    simp [DeskPort.nextCell, DeskPort.nextMessage, idle, answer, notices]
  · intro n ns idle notices behind
    refine DeskPort.nextCell_start idle ?_
    unfold DeskPort.nextMessage
    cases answer : p.answer with
    | none => rw [notices]
    | some x => simp [notices, behind x answer]
  · intro x idle answer first
    refine DeskPort.nextCell_start idle ?_
    unfold DeskPort.nextMessage
    cases notices : p.notices with
    | nil => rw [answer]
    | cons n ns => 
      have : x.ahead = 0 := by simpa [notices] using first
      simp [answer, this]

end Sys2Proof.Machine
end

/-!
The part right after reset (log entries 13, 14): the values it holds, and that they meet the invariants of the steps.
-/
section
namespace Sys2Proof.Machine

/-! ## What the records read right after reset -/

@[simp] theorem reset_channel (c : Chan) : Hub.reset.pcu.channel c = Channel.reset := by
  simp [Hub.reset, Pcu.channel]

@[simp] theorem reset_track (d : Desk) (c : Chan) : Hub.reset.pcu.track d c = Track.reset := by
  simp [Hub.reset, Pcu.track]

@[simp] theorem reset_gang (g : Grp) : Tbl.get Hub.reset.pcu.gangs g = none := by simp [Hub.reset]

@[simp] theorem reset_claim (r : Res) : Hub.reset.arb.claim r = .opened := by simp [Hub.reset, Arb.claim]

@[simp] theorem reset_link (d : Desk) : Hub.reset.links.get d = Link.reset := by simp [Hub.reset]

@[simp] theorem reset_lane (l : LaneId) : Hub.reset.lane l = LaneRec.reset := by
  obtain ⟨d, side⟩ := l
  cases side <;> simp [Hub.lane, Link.lane] <;> rfl

@[simp] theorem reset_health (l : LaneId) : laneGet Hub.reset.hlm.health l = Health.reset := by
  obtain ⟨d, side⟩ := l
  cases side <;> simp [Hub.reset, laneGet] <;> rfl

@[simp] theorem reset_test (d : Desk) : Hub.reset.hlm.tests.get d = none := by simp [Hub.reset]

@[simp] theorem reset_output (i : Out) : Hub.reset.mon.output i = Output.reset := by simp [Hub.reset, Mon.output]

@[simp] theorem reset_grant (i : Out) : Tbl.get Hub.reset.tbk.grants i = none := by simp [Hub.reset]

@[simp] theorem reset_record (d : Desk) : Hub.reset.tbk.records.get d = none := by simp [Hub.reset]

@[simp] theorem reset_queue (r : Requester) : Hub.reset.req.queues.get r = ReqQueue.reset := by simp [Hub.reset]

@[simp] theorem reset_desk (d : Desk) : Hub.reset.req.desks.get d = DeskPort.reset := by simp [Hub.reset]

/-- Settles O2. -/
theorem resetHoldsTheDefaults : Obligations.ResetHoldsTheDefaults := by
  unfold Obligations.ResetHoldsTheDefaults
  simp only [State.reset]
  refine ⟨rfl, rfl, rfl, fun c => ?_, fun g => ?_, rfl, fun d c => ?_, fun r => ?_, rfl, fun d => ?_, fun l => ?_,
    fun i => ?_, fun d => ?_, fun i => ?_, rfl, fun r => ?_, fun d => ?_, rfl, rfl⟩
  · rw [reset_channel]; rfl
  · rw [reset_gang]
  · rw [reset_track]; rfl
  · rw [reset_claim]
  · rw [reset_link]; exact ⟨rfl, rfl, rfl⟩
  · rw [reset_lane, reset_health]; exact ⟨rfl, rfl, rfl⟩
  · rw [reset_output]; exact ⟨rfl, rfl, rfl, rfl⟩
  · rw [reset_record]
  · rw [reset_grant]
  · rw [reset_queue]; rfl
  · rw [reset_desk]; rfl

/-! ## The invariants -/

/-- Nothing waits and nothing is counted. -/
theorem reset_bounded : Hub.reset.Bounded := by
  refine ⟨fun r => ?_, fun d => ?_, fun d a => ?_, by decide, by decide, fun l => ?_, fun d t => ?_, fun d => ?_,
    fun l => ?_, ⟨fun r => ?_, fun who pc => ?_⟩, List.nodup_nil⟩
  · simp [ReqQueue.reset]
  · simp [DeskPort.reset]
  · simp [DeskPort.reset]
  · simp [Health.reset]
  · simp
  · rw [reset_link]; exact ⟨Nat.zero_le _, Nat.zero_le _, Nat.zero_le _⟩
  · simp [LaneRec.Bounded, LaneRec.reset]
  · simp [Claim.contenders]
  · simp [Hub.reset]

/-- Every link is DOWN, and every lane DARK. -/
theorem reset_linkOk : Link.reset.Ok := by
  have lane (side : Side) : Link.reset.lane side = LaneRec.reset := by cases side <;> rfl
  simp only [Link.Ok, lane]
  simp [Link.reset, LaneRec.reset, LaneRec.Ok]

/-- No channel waits or charges. -/
theorem reset_phantomOk : Hub.reset.PhantomOk := by
  have charging : Hub.reset.pcu.charging = 0 := by simp [Pcu.charging, Channel.reset]
  have empty : Hub.reset.pcu.phantomQueue = [] := rfl
  refine ⟨by simp [charging], List.nodup_nil, fun c => ?_⟩
  simp [empty, Channel.reset]

/-- No gang, nothing staged, and the tracking entries of the SHOW defaults. -/
theorem reset_settingsOk : Hub.reset.GangsOk ∧ Hub.reset.TracksOk ∧ Hub.reset.sto.ShowOk := by
  refine ⟨⟨⟨fun g ms h => ?_, fun g k ms ns h => ?_⟩, fun c g => ?_, fun c => ?_, fun g ms h => ?_⟩, fun d c => ?_,
    ShowData.defaults_ok, fun w data run => ?_⟩
  · simp at h
  · simp at h
  · simp [Channel.reset]
  · simp [Channel.reset, Channel.isStaged]
  · simp at h
  · simp [Track.Ok, Track.reset, Channel.reset, Channel.effectiveGain]
  · simp [Hub.reset] at run

/-- No output is patched, and nobody talks. -/
theorem reset_outputsOk : Hub.reset.OutputsOk ∧ Hub.reset.TalkOk := by
  refine ⟨fun i => ?_, fun d r h => ?_, fun o d h => ?_, fun o _ => ?_, List.nodup_nil, fun d => ?_⟩
  · simp [Output.Ok, Output.reset]
  · simp at h
  · simp at h
  · simp [Output.reset]
  · simp [Hub.reset]

/-- Settles O60. -/
theorem resetMeetsTheInvariants : Obligations.ResetMeetsTheInvariants := by
  unfold Obligations.ResetMeetsTheInvariants
  obtain ⟨gangs, tracks, stored⟩ := reset_settingsOk
  obtain ⟨outputs, talk⟩ := reset_outputsOk
  refine ⟨reset_bounded, fun d => ?_, fun r => ?_, reset_phantomOk, gangs, tracks, stored, outputs, talk⟩
  · simp only [State.reset, reset_link]
    exact reset_linkOk
  · simp [State.reset, Claim.Ok]

end Sys2Proof.Machine
end

/-!
POWER_ON_RESET (R24, R37, R62, R92, R132, R151, R170, R179): the blocks restored, the Phantom Queue served, and the light of
the lanes.
-/
section
namespace Sys2Proof.Machine

/-! ## The Phantom Queue served (R12, R24) -/

/-- PCU with channels off its queue that start to charge. -/
def Pcu.charged (p : Pcu) (now : Frame) (l rest : List Chan) : Pcu :=
  { p.mapChannels l fun _ x => { x with phantomState := .charging, phantomTimer := some (later now Config.chargeFrames) } with
    phantomQueue := rest }

@[simp] theorem Pcu.charged_channel (p : Pcu) (now : Frame) (l rest : List Chan) (m : Chan) :
    (p.charged now l rest).channel m = if m ∈ l
      then { p.channel m with phantomState := .charging, phantomTimer := some (later now Config.chargeFrames) }
      else p.channel m := by
  rw [Pcu.charged, Pcu.channel_with, Pcu.mapChannels_channel]

@[simp] theorem Pcu.charged_other (p : Pcu) (now : Frame) (l rest : List Chan) :
    (p.charged now l rest).gangs = p.gangs ∧ (p.charged now l rest).phantomQueue = rest ∧
    (p.charged now l rest).tracking = p.tracking ∧ (p.charged now l rest).before = p.before ∧
    (p.charged now l rest).samples = p.samples := by simp [Pcu.charged]

/-- One channel that starts to charge, then others. -/
theorem Pcu.charged_cons (p : Pcu) (now : Frame) (c : Chan) (l rest cs : List Chan) :
    Pcu.charged (Pcu.setChannel { p with phantomQueue := cs } c
        { p.channel c with phantomState := .charging, phantomTimer := some (later now Config.chargeFrames) }) now l rest =
      p.charged now (c :: l) rest := by
  refine Pcu.ext_channel (fun m => ?_) (by simp) (by simp) (by simp) (by simp)
  by_cases hc : m = c
  · subst hc; simp
  · simp [hc]

/-- With nothing staged, the queue is served until 8 channels charge. -/
theorem PcuEvent.serve_unstaged (now : Frame) (fuel : Nat) : ∀ (e : PcuEvent), e.pcu.phantomQueue.length ≤ fuel →
    e.pcu.phantomQueue.Nodup → (∀ c ∈ e.pcu.phantomQueue, (e.pcu.channel c).phantomState = .queued) →
    (∀ c, (e.pcu.channel c).isStaged = false) →
    (e.serve now fuel).pcu = e.pcu.charged now (e.pcu.phantomQueue.take (8 - e.pcu.charging))
      (e.pcu.phantomQueue.drop (8 - e.pcu.charging)) := by
  have done (p : Pcu) : p.charged now [] p.phantomQueue = p := by simp [Pcu.charged]
  induction fuel with
  | zero =>
    intro e short _ _ _
    have empty : e.pcu.phantomQueue = [] := List.eq_nil_of_length_eq_zero (Nat.le_zero.1 short)
    have := done e.pcu
    rw [empty] at this
    simpa [PcuEvent.serve, empty] using this.symm
  | succ fuel ih =>
    intro e short nodup queued plain
    by_cases room : e.pcu.charging < 8
    · cases queue : e.pcu.phantomQueue with
      | nil =>
        have := done e.pcu
        rw [queue] at this
        simpa [PcuEvent.serve, queue] using this.symm
      | cons c cs =>
        obtain ⟨apart, nodup⟩ := List.nodup_cons.1 (queue ▸ nodup)
        have still : Pcu.groupStaged { e.pcu with phantomQueue := cs } c = false := by
          simpa [Pcu.groupStaged] using fun m _ => plain m
        let e1 := PcuEvent.entering { e with pcu := { e.pcu with phantomQueue := cs } } now c .charging Config.chargeFrames
        have pcu : e1.pcu = Pcu.setChannel { e.pcu with phantomQueue := cs } c { e.pcu.channel c with
            phantomState := .charging, phantomTimer := some (later now Config.chargeFrames) } := PcuEvent.entering_pcu ..
        have rest : e1.pcu.phantomQueue = cs := by rw [pcu]; rfl
        have count : e1.pcu.charging = e.pcu.charging + 1 := by
          refine Pcu.charging_gain (c := c) (fun m hm => by rw [pcu]; simp [hm]) ?_ (by rw [pcu]; simp)
          rw [queued c (by simp [queue])]
          simp
        have run : e.serve now (fuel + 1) = e1.serve now fuel := by
          have enter := PcuEvent.enterTransition_idle
            (e := { e with pcu := { e.pcu with phantomQueue := cs } }) still now .charging Config.chargeFrames
          simp only [PcuEvent.serve, room, if_true, queue, enter, e1]
        have more : 8 - e.pcu.charging = (8 - e1.pcu.charging) + 1 := by omega
        rw [run, ih e1 (by rw [rest]; simpa [queue] using short) (by rwa [rest]) ?_ ?_, rest, more, List.take_succ_cons,
          List.drop_succ_cons, pcu, Pcu.charged_cons]
        · intro m hm
          rw [rest] at hm
          have : m ≠ c := fun h => apart (h ▸ hm)
          rw [pcu]
          simpa [this] using queued m (by simp [queue, hm])
        · intro m
          rw [pcu]
          by_cases hm : m = c
          · subst hm; simpa [Channel.isStaged] using plain m
          · simpa [hm] using plain m
    · have full : 8 - e.pcu.charging = 0 := by omega
      rw [PcuEvent.serve_full (Nat.not_lt.1 room), full, List.take_zero, List.drop_zero, done]

/-! ## PCU restored (R24, R37) -/

@[simp] theorem ShowData.pcu_channel (x : ShowData) (restore : Bool) (samples : Vector Sample 72) (c : Chan) :
    (x.pcu restore samples).channel c = x.channel restore c := by
  simp [ShowData.pcu, Pcu.channel]

/-- The phantom supply of a restored channel: on its queue, or OFF. -/
def ShowData.supply (x : ShowData) (restore : Bool) (c : Chan) : Bool := (Tbl.get x.channels c).phantomTarget && restore

theorem ShowData.channel_state (x : ShowData) (restore : Bool) (c : Chan) :
    (x.channel restore c).phantomState = if x.supply restore c then .queued else .off := rfl

/-- The channels that wait for their supply, in channel order. -/
def ShowData.waiting (x : ShowData) (restore : Bool) : List Chan := (List.finRange 72).filter (x.supply restore)

theorem ShowData.mem_waiting {x : ShowData} {restore : Bool} {c : Chan} :
    c ∈ x.waiting restore ↔ x.supply restore c = true := by
  simp [ShowData.waiting]

theorem ShowData.pcu_waiting (x : ShowData) (restore : Bool) (samples : Vector Sample 72) :
    (x.pcu restore samples).phantomQueue = x.waiting restore := by
  rw [ShowData.pcu_queue]
  refine List.filter_congr fun c _ => ?_
  rw [ShowData.channel_state]
  cases x.supply restore c <;> rfl

/-- No restored channel charges. -/
theorem ShowData.pcu_charging (x : ShowData) (restore : Bool) (samples : Vector Sample 72) :
    (x.pcu restore samples).charging = 0 := by
  have none_ : (List.finRange 72).filter (fun c => ((x.pcu restore samples).channel c).phantomState = .charging) = [] := by
    refine List.filter_eq_nil_iff.2 fun c _ => ?_
    rw [ShowData.pcu_channel, ShowData.channel_state]
    cases x.supply restore c <;> simp
  rw [Pcu.charging, none_]
  rfl

/-- PCU at power-on: the eight lowest of the channels that wait start to charge (R12, R24). -/
theorem Hub.restored_charged (h : Hub) (pins : Pins) (ports : PortSamples) :
    let x := h.sto.readShow
    let restore := h.sto.readInstall.settings.phantomRestore
    (h.restored pins ports).pcu =
      (x.pcu restore ports.inputs).charged 0#32 ((x.waiting restore).take 8) ((x.waiting restore).drop 8) := by
  intro x restore
  have serve := PcuEvent.serve_unstaged 0#32 (x.waiting restore).length (PcuEvent.start (x.pcu restore ports.inputs))
    (by rw [PcuEvent.start_pcu, ShowData.pcu_waiting]) (by
      rw [PcuEvent.start_pcu, ShowData.pcu_waiting]
      exact (List.nodup_finRange 72).filter _) (fun c hc => by
      rw [PcuEvent.start_pcu, ShowData.pcu_waiting, ShowData.mem_waiting] at hc
      rw [PcuEvent.start_pcu, ShowData.pcu_channel, ShowData.channel_state, hc]
      rfl) (fun c => by
      rw [PcuEvent.start_pcu, ShowData.pcu_channel]
      rfl)
  rw [PcuEvent.start_pcu, ShowData.pcu_waiting, ShowData.pcu_charging] at serve
  rw [Hub.restored_pcu, PcuEvent.serveQueue, PcuEvent.start_pcu, ShowData.pcu_waiting]
  exact serve

/-- A restored tracking entry with tracking ON: the trim is derived from the stored reference (R27, R37). -/
theorem Track.derive_some (eff : Int) (trim r : Int) (mark : Bool) :
    Track.derive eff ⟨true, trim, some r, mark⟩ =
      ⟨true, max (-48) (min 48 (r - eff)), some r, decide (r - eff < -48 ∨ 48 < r - eff)⟩ := by
  unfold Track.derive
  dsimp only
  split
  · next high =>
    have : max (-48) (min 48 (r - eff)) = 48 := by omega
    simp [this, high]
  · split
    · next low =>
      have : max (-48) (min 48 (r - eff)) = -48 := by omega
      simp [this, low]
    · next high low =>
      have : max (-48) (min 48 (r - eff)) = r - eff := by omega
      simp [this, high, low]

/-! ## The light of the lanes (R67, R92) -/

/-- A lane of a link that is DOWN: DARK, or ACQUIRING with light. -/
def LaneRec.atPowerOn (lit : Bool) : LaneRec :=
  if lit then { LaneRec.reset with light := true, state := .acquiring } else LaneRec.reset

/-- A link at power-on, with the lanes that have shown light. -/
def Link.atPowerOn (lit : LaneId → Bool) (d : Desk) : Link :=
  { Link.reset with lanes := ⟨LaneRec.atPowerOn (lit ⟨d, .p⟩), LaneRec.atPowerOn (lit ⟨d, .s⟩)⟩ }

/-- The part while the light of the lanes is read: nothing but the lanes that have shown light and the panel's notices
differs from the part restored. -/
def Hub.Waking (b : Hub) (lit : LaneId → Bool) (h : Hub) : Prop :=
  h.core = { b.core with links := PerDesk.of (Link.atPowerOn lit) } ∧ h.req = b.req

theorem Link.atPowerOn_lane (lit : LaneId → Bool) (l : LaneId) :
    (Link.atPowerOn lit l.link).lane l.side = LaneRec.atPowerOn (lit l) := by
  obtain ⟨d, side⟩ := l
  cases side <;> rfl

/-- LANE_STATE of a desk whose link is not UP goes to PANEL alone. -/
theorem tellLaneChange_down {b h : Hub} {l : LaneId} (down : h.linkUp l.link = false) :
    (tellLaneChange b l h).core = h.core ∧ (tellLaneChange b l h).req = h.req := by
  unfold tellLaneChange
  split
  · simp [tellLane, notifyDeskPanel, notifyDesk, down, notifyPanel]
  · exact ⟨rfl, rfl⟩

/-- A change of a lane of a link that stays DOWN, without a test, is told to PANEL alone. -/
theorem settleLink_down {b h : Hub} {d : Desk} {side : Side} (before : (b.links.get d).state = .down)
    (after : (h.links.get d).state = .down) (same : (h.links.get d).activeLane = (b.links.get d).activeLane ∧
      (h.links.get d).provisional = (b.links.get d).provisional) (test : h.hlm.tests.get d = none) :
    (settleLink b d side h).core = h.core ∧ (settleLink b d side h).req = h.req := by
  have down (k : Hub) (links : k.links = h.links) : k.linkUp d = false := by simp [Hub.linkUp, links, after]
  have plain : resumeTest d h = none := by simp [resumeTest, test]
  obtain ⟨core1, req1⟩ := tellLaneChange_down (b := b) (h := h) (l := ⟨d, side⟩) (down h rfl)
  have links1 := (Hub.core_eq core1).2.2.2.1
  obtain ⟨core2, req2⟩ := tellLaneChange_down (b := b) (l := ⟨d, Side.other side⟩) (down _ links1)
  have links2 := ((Hub.core_eq core2).2.2.2.1).trans links1
  have told : settleLink b d side h = tellLaneChange b ⟨d, Side.other side⟩ (tellLaneChange b ⟨d, side⟩ h) := by
    obtain ⟨active, provisional⟩ := same
    simp [settleLink, plain, tellLinkChange, linkEvent, links2, before, after, active, provisional]
  rw [told]
  exact ⟨core2.trans core1, req2.trans req1⟩

/-- A lane that shows light at power-on starts to acquire (R67, R92). -/
theorem Hub.Waking.lightAppears {b h : Hub} {lit : LaneId → Bool} (w : b.Waking lit h)
    (tests : ∀ d, b.hlm.tests.get d = none) (l : LaneId) :
    b.Waking (fun m => lit m || decide (m = l)) (lightAppears l h) := by
  obtain ⟨core, req⟩ := w
  have links : h.links = PerDesk.of (Link.atPowerOn lit) := congrArg Core.links core
  have hlm : h.hlm = b.hlm := congrArg Core.hlm core
  have lane : h.lane l = LaneRec.atPowerOn (lit l) := by
    rw [Hub.lane, links, PerDesk.get_of, Link.atPowerOn_lane]
  by_cases shown : lit l = true
  · have same : (fun m => lit m || decide (m = l)) = lit := by
      funext m
      by_cases hm : m = l
      · subst hm; simp [shown]
      · simp [hm]
    have light : (h.lane l).light = true := by rw [lane, shown]; rfl
    rw [same, Machine.lightAppears, if_pos light]
    exact ⟨core, req⟩
  · have dark : h.lane l = LaneRec.reset := by simp [lane, shown, LaneRec.atPowerOn]
    let k := (setLight l true h).setLane l { (setLight l true h).lane l with state := .acquiring, acquireRun := 0 }
    have event : Machine.lightAppears l h = settleLink h l.link l.side k := by
      rw [Machine.lightAppears, dark, if_neg (by decide)]
      exact if_pos rfl
    have linksK : k.links = PerDesk.of (Link.atPowerOn fun m => lit m || decide (m = l)) := by
      refine PerDesk.ext_get fun e => ?_
      simp only [k, Hub.setLane_links, setLight, links, PerDesk.get_of]
      obtain ⟨d, side⟩ := l
      by_cases he : e = d
      · subst he
        cases side <;> simp [Link.atPowerOn, PerSide.set, LaneRec.atPowerOn, LaneRec.reset, dark]
      · have other (x : Side) : ¬(⟨e, x⟩ : LaneId) = ⟨d, side⟩ := fun h => he (congrArg LaneId.link h)
        simp [he, Link.atPowerOn, other]
    have coreK : k.core = { h.core with links := k.links } := rfl
    have state (lit : LaneId → Bool) : ((PerDesk.of (Link.atPowerOn lit)).get l.link).state = .down ∧
        ((PerDesk.of (Link.atPowerOn lit)).get l.link).activeLane = none ∧
        ((PerDesk.of (Link.atPowerOn lit)).get l.link).provisional = false := by
      rw [PerDesk.get_of]
      exact ⟨rfl, rfl, rfl⟩
    obtain ⟨down, active, provisional⟩ := state lit
    obtain ⟨down', active', provisional'⟩ := state fun m => lit m || decide (m = l)
    obtain ⟨settled, asked⟩ := settleLink_down (b := h) (h := k) (side := l.side) (by rw [links, down])
      (by rw [linksK, down']) (by rw [links, linksK, active, active', provisional, provisional']; exact ⟨rfl, rfl⟩)
      (by rw [show k.hlm = h.hlm from rfl, hlm, tests])
    rw [event]
    refine ⟨?_, asked.trans req⟩
    rw [settled, coreK, core, linksK]

/-- The light of every lane, taken in turn. -/
theorem Hub.Waking.foldl {b : Hub} (tests : ∀ d, b.hlm.tests.get d = none) (light : PerDesk (PerSide Bool))
    (ls : List LaneId) : ∀ {h : Hub} {lit : LaneId → Bool}, b.Waking lit h →
    b.Waking (fun m => lit m || (decide (m ∈ ls) && laneGet light m))
      (ls.foldl (fun h l => if laneGet light l then Machine.lightAppears l h else h) h) := by
  induction ls with
  | nil =>
    intro h lit w
    simpa using w
  | cons l ls ih =>
    intro h lit w
    rw [List.foldl_cons]
    by_cases shown : laneGet light l = true
    · have both : (fun m => lit m || (decide (m ∈ l :: ls) && laneGet light m)) =
          fun m => (lit m || decide (m = l)) || (decide (m ∈ ls) && laneGet light m) := by
        funext m
        by_cases hm : m = l
        · subst hm; simp [shown]
        · simp [hm]
      rw [if_pos shown, both]
      exact ih (w.lightAppears tests l)
    · have both : (fun m => lit m || (decide (m ∈ l :: ls) && laneGet light m)) =
          fun m => lit m || (decide (m ∈ ls) && laneGet light m) := by
        funext m
        by_cases hm : m = l
        · subst hm; simp [shown]
        · simp [hm]
      rw [if_neg shown, both]
      exact ih w

/-- The light at power-on: the lanes that show it acquire, and no desk is told (R92). -/
theorem lightAtPowerOn_waking {b : Hub} (tests : ∀ d, b.hlm.tests.get d = none)
    (down : b.links = PerDesk.of fun _ => Link.reset) (pins : Pins) :
    b.Waking (laneGet pins.light) (lightAtPowerOn pins b) := by
  have dark : b.Waking (fun _ => false) b := by
    have links : b.links = PerDesk.of (Link.atPowerOn fun _ => false) := down.trans (PerDesk.ext_get fun d => by
      rw [PerDesk.get_of, PerDesk.get_of]
      rfl)
    refine ⟨?_, rfl⟩
    rw [← links]
    rfl
  have all (m : LaneId) : m ∈ LaneId.all := by
    obtain ⟨d, side⟩ := m
    cases d <;> cases side <;> decide
  have lit : (fun m => false || (decide (m ∈ LaneId.all) && laneGet pins.light m)) = laneGet pins.light := by
    funext m
    simp [all]
  have woken := Hub.Waking.foldl tests pins.light LaneId.all dark
  rw [lit] at woken
  exact woken

/-! ## The part at power-on -/

/-- STORE_STATE for a bad region reaches no desk, no link being UP (R178). -/
theorem tellBadRegion_down {h : Hub} (down : ∀ d, h.linkUp d = false) (r : RegionName) :
    (tellBadRegion r h).core = h.core ∧ (tellBadRegion r h).req = h.req := by
  unfold tellBadRegion
  split
  · exact ⟨rfl, rfl⟩
  · simp [notifyAll, notifyDesk, notifyPanel, down]

/-- The part before downstream frame 0 is sent. -/
def Hub.woken (h : Hub) (pins : Pins) (ports : PortSamples) : Hub :=
  lightAtPowerOn pins (tellBadRegion .showData (tellBadRegion .install (h.restored pins ports)))

/-- It is the part restored, with the light of its lanes. -/
theorem Hub.woken_waking (h : Hub) (pins : Pins) (ports : PortSamples) :
    (h.restored pins ports).Waking (laneGet pins.light) (h.woken pins ports) := by
  have links : (h.restored pins ports).links = PerDesk.of fun _ => Link.reset := rfl
  have down (k : Hub) (e : k.links = PerDesk.of fun _ => Link.reset) (d : Desk) : k.linkUp d = false := by
    simp [Hub.linkUp, e, Link.reset]
  obtain ⟨core1, req1⟩ := tellBadRegion_down (down _ links) .install
  have links1 := ((Hub.core_eq core1).2.2.2.1).trans links
  obtain ⟨core2, req2⟩ := tellBadRegion_down (down _ links1) .showData
  have links2 := ((Hub.core_eq core2).2.2.2.1).trans links1
  have hlm := ((Hub.core_eq (core2.trans core1)).2.2.2.2.1)
  obtain ⟨core, req⟩ := lightAtPowerOn_waking (by rw [hlm]; exact fun d => PerDesk.get_of ..) links2 pins
  exact ⟨by rw [Hub.woken, core, core2.trans core1], req.trans (req2.trans req1)⟩

/-- With nothing to send, a desk's part of REQ is left by its frame. -/
theorem DeskPort.nextCell_reset : DeskPort.reset.nextCell.2 = DeskPort.reset := rfl

/-- Downstream frame 0 leaves the part as it woke, its desks with nothing to send. -/
theorem Hub.Waking.sent {r k : Hub} {lit : LaneId → Bool} (w : r.Waking lit k)
    (desks : ∀ d, r.req.desks.get d = DeskPort.reset) (ports : PortSamples) :
    let t := sendFrames ports k
    t.now = r.now ∧ t.pcu = r.pcu ∧ t.arb = r.arb ∧ t.mon = r.mon ∧ t.tbk = r.tbk ∧ t.sto = r.sto ∧
    t.links = PerDesk.of (Link.atPowerOn lit) ∧ t.req.queues = r.req.queues ∧
    ∀ d, t.req.desks.get d = DeskPort.reset := by
  obtain ⟨core, req⟩ := w
  obtain ⟨now, pcu, arb, links, -, mon, tbk, -, sto, queues⟩ := sendFrames_other ports k
  refine ⟨now.trans (congrArg Core.now core), pcu.trans (congrArg Core.pcu core), arb.trans (congrArg Core.arb core),
    mon.trans (congrArg Core.mon core), tbk.trans (congrArg Core.tbk core), sto.trans (congrArg Core.sto core),
    links.trans (congrArg Core.links core), queues.trans (by rw [req]), fun d => ?_⟩
  rw [(sendFrames_desk ports k d).1, req, desks, DeskPort.nextCell_reset]

/-- The part after POWER_ON_RESET: the blocks as restored, the links with the light of their lanes, REQ empty. -/
theorem powerOnReset_eq (h : Hub) (pins : Pins) (ports : PortSamples) :
    let t := powerOnReset pins ports h
    let r := h.restored pins ports
    t.now = r.now ∧ t.pcu = r.pcu ∧ t.arb = r.arb ∧ t.mon = r.mon ∧ t.tbk = r.tbk ∧ t.sto = r.sto ∧
    t.links = PerDesk.of (Link.atPowerOn (laneGet pins.light)) ∧ t.req.queues = r.req.queues ∧
    ∀ d, t.req.desks.get d = DeskPort.reset :=
  (h.woken_waking pins ports).sent (fun _ => PerDesk.get_of ..) ports

/-- What the blocks restored hold. -/
theorem Hub.restored_fields (h : Hub) (pins : Pins) (ports : PortSamples) :
    let r := h.restored pins ports
    r.now = 0#32 ∧ r.arb = Arb.powerOn ∧ r.tbk = Tbk.powerOn pins.tb1 pins.tb2 ∧ r.req = Req.powerOn ∧
    r.mon = Mon.powerOn h.sto.readShow h.sto.readInstall.settings pins.safe ∧
    r.sto = h.sto.powerOn
      (Pcu.powerOn h.sto.readShow h.sto.readInstall.settings.phantomRestore ports.inputs).2 := by
  simp only [Hub.restored, and_self]

/-- A restored output (R132). -/
theorem Mon.powerOn_output (x : ShowData) (install : Install) (safe : Bool) (i : Out) :
    (Mon.powerOn x install safe).output i =
      (Tbl.get x.patches i).output (install.startEnabled && !(safe && Tbl.get install.safeMember i)) := by
  simp only [Mon.powerOn, Mon.output, Tbl.get_of]

/-- What STO holds at power-on (R179). -/
theorem Sto.powerOn_fields (x : Sto) (report : Bool) :
    (x.powerOn report).install = x.readInstall.settings ∧ (x.powerOn report).lock = x.readInstall.lock ∧
    (x.powerOn report).installStatus = x.installRegion.status InstallImage.crc ∧
    (x.powerOn report).showStatus = x.showRegion.status ShowData.crc ∧
    (x.powerOn report).erasePrepared = false ∧ (x.powerOn report).writeList = [] ∧ (x.powerOn report).running = none ∧
    (x.powerOn report).settle = if report then some (later 0#32 Config.settleFrames) else none := by
  simp only [Sto.powerOn, and_self]

theorem Region.status_eq {α : Type} (crc : α → BitVec 16) (r : Region α) :
    r.status crc = if r.crc = crc r.contents then .good else .defaultsUsed := by
  simp only [Region.status, Region.passes, decide_eq_true_eq]

theorem Region.read_eq {α : Type} (crc : α → BitVec 16) (r : Region α) (defaults : α) :
    r.read crc defaults = if r.crc = crc r.contents then r.contents else defaults := by
  simp only [Region.read, Region.passes, decide_eq_true_eq]

/-- PCU at power-on, as the SHOW settings give it. -/
def ShowData.woken (x : ShowData) (restore : Bool) (samples : Vector Sample 72) : Pcu :=
  (x.pcu restore samples).charged 0#32 ((x.waiting restore).take 8) ((x.waiting restore).drop 8)

theorem ShowData.woken_channel (x : ShowData) (restore : Bool) (samples : Vector Sample 72) (c : Chan) :
    (x.woken restore samples).channel c = if c ∈ (x.waiting restore).take 8
      then { x.channel restore c with phantomState := .charging, phantomTimer := some 19200#32 }
      else x.channel restore c := by
  rw [ShowData.woken, Pcu.charged_channel, ShowData.pcu_channel]
  rfl

theorem ShowData.waiting_nodup (x : ShowData) (restore : Bool) : (x.waiting restore).Nodup :=
  (List.nodup_finRange 72).filter _

/-- The phantom supplies at power-on: the eight lowest charge, the others wait (R12, R24). -/
theorem ShowData.woken_phantom (x : ShowData) (restore : Bool) (samples : Vector Sample 72) (c : Chan) :
    (x.supply restore c = false → ((x.woken restore samples).channel c).phantomState = .off ∧
      ((x.woken restore samples).channel c).phantomTimer = none) ∧
    (c ∈ (x.waiting restore).take 8 → ((x.woken restore samples).channel c).phantomState = .charging ∧
      ((x.woken restore samples).channel c).phantomTimer = some 19200#32) ∧
    (c ∈ (x.waiting restore).drop 8 → ((x.woken restore samples).channel c).phantomState = .queued ∧
      ((x.woken restore samples).channel c).phantomTimer = none) := by
  rw [ShowData.woken_channel]
  refine ⟨fun off => ?_, fun first => ?_, fun behind => ?_⟩
  · have : c ∉ (x.waiting restore).take 8 := fun h => by
      simp [ShowData.mem_waiting.1 (List.mem_of_mem_take h)] at off
    rw [if_neg this, ShowData.channel_state, off]
    exact ⟨rfl, rfl⟩
  · rw [if_pos first]
    exact ⟨rfl, rfl⟩
  · have apart : c ∉ (x.waiting restore).take 8 := fun h =>
      List.disjoint_take_drop (x.waiting_nodup restore) (Nat.le_refl 8) h behind
    rw [if_neg apart, ShowData.channel_state, ShowData.mem_waiting.1 (List.mem_of_mem_drop behind)]
    exact ⟨rfl, rfl⟩

/-- The settings at power-on (R24). -/
theorem ShowData.woken_settings (x : ShowData) (restore : Bool) (samples : Vector Sample 72) (c : Chan) :
    let y := (x.woken restore samples).channel c
    let v := Tbl.get x.channels c
    y.gain = v.gain ∧ y.gang = (List.finRange 12).find? (fun g => ((Tbl.get x.gangs g).getD []).contains c) ∧
      y.pad = v.pad ∧ y.hpf = v.hpf ∧ y.stagedGain = none ∧ y.stagedPad = none ∧
      y.phantomTarget = (v.phantomTarget && restore) := by
  rw [ShowData.woken_channel]
  split <;> exact ⟨rfl, rfl, rfl, rfl, rfl, rfl, rfl⟩

/-- The tracking entries at power-on (R37). -/
theorem ShowData.woken_track (x : ShowData) (restore : Bool) (samples : Vector Sample 72) (d : Desk) (c : Chan) :
    (x.woken restore samples).track d c = x.track d c (x.channel restore c).effectiveGain := by
  have tracking : (x.woken restore samples).tracking = (x.pcu restore samples).tracking := (Pcu.charged_other ..).2.2.1
  rw [Pcu.track, tracking]
  simp only [ShowData.pcu, PerDesk.get_of, Tbl.get_of]

theorem ShowData.track_off {x : ShowData} {d : Desk} {c : Chan} (off : (Tbl.get (x.tracking.get d) c).tracking = false)
    (eff : Int) : x.track d c eff = ⟨false, (Tbl.get (x.tracking.get d) c).trim, none, false⟩ := by
  simp [ShowData.track, off]

theorem ShowData.track_on {x : ShowData} {d : Desk} {c : Chan} {r : Int}
    (on : (Tbl.get (x.tracking.get d) c).tracking = true) (ref : (Tbl.get (x.tracking.get d) c).reference = some r)
    (eff : Int) : x.track d c eff =
      ⟨true, max (-48) (min 48 (r - eff)), some r, decide (r - eff < -48 ∨ 48 < r - eff)⟩ := by
  rw [ShowData.track, if_pos on, ref, Track.derive_some]

/-- What POWER_ON_RESET leaves of the blocks that hold no settings. -/
theorem Hub.restored_cleared {pins : Pins} {t : Hub} (now : t.now = 0#32) (arb : t.arb = Arb.powerOn)
    (tbk : t.tbk = Tbk.powerOn pins.tb1 pins.tb2) (links : t.links = PerDesk.of (Link.atPowerOn (laneGet pins.light)))
    (queues : t.req.queues = Req.powerOn.queues) (desks : ∀ d, t.req.desks.get d = DeskPort.reset) :
    t.now = 0#32 ∧
      (∀ r : Res, t.arb.claim r = .opened) ∧ (∀ r : Requester, t.arb.pendingClaims.get r = none) ∧
      t.arb.frozen = false ∧
      (∀ d : Desk, (t.links.get d).state = .down ∧ (t.links.get d).activeLane = none ∧
        (t.links.get d).provisional = false ∧ (t.links.get d).holdoverDeadline = none ∧
        (t.links.get d).nextTake = none ∧ (t.links.get d).rescuedFrames = 0 ∧
        (t.links.get d).repeatedFrames = 0 ∧ (t.links.get d).returnBuffer = []) ∧
      (∀ l : LaneId, (t.lane l).state = (if laneGet pins.light l then .acquiring else .dark) ∧
        (t.lane l).latency = none ∧ (t.lane l).acquireRun = 0 ∧ (t.lane l).badRun = 0 ∧
        (t.lane l).qualifyCount = 0 ∧ (t.lane l).buffer = []) ∧
      (∀ d : Desk, t.tbk.records.get d = none) ∧ (∀ i : Out, Tbl.get t.tbk.grants i = none) ∧
      t.tbk.queue = [] ∧ t.tbk.arrival = 0#32 ∧ t.tbk.st1 = pins.tb1 ∧ t.tbk.st2 = pins.tb2 ∧
      (∀ r : Requester, t.req.queues.get r = ⟨[], false, false⟩) ∧
      (∀ d : Desk, (t.req.desks.get d).hold = false ∧ (t.req.desks.get d).answer = none ∧
        (t.req.desks.get d).notices = [] ∧ (t.req.desks.get d).gapOwed = true ∧
        (t.req.desks.get d).asm = none) := by
  have link (d : Desk) : t.links.get d = Link.atPowerOn (laneGet pins.light) d := by rw [links, PerDesk.get_of]
  have lane (l : LaneId) : t.lane l = LaneRec.atPowerOn (laneGet pins.light l) := by
    rw [Hub.lane, link, Link.atPowerOn_lane]
  simp only [now, arb, tbk, queues, desks, link, lane]
  refine ⟨trivial, fun r => ?_, fun r => ?_, rfl, fun d => ?_, fun l => ?_, fun d => ?_, fun i => ?_, ?_, rfl, rfl, rfl,
    fun r => ?_, fun d => ?_⟩
  · simp [Arb.powerOn, Arb.claim]
  · simp [Arb.powerOn]
  · exact ⟨rfl, rfl, rfl, rfl, rfl, rfl, rfl, rfl⟩
  · cases laneGet pins.light l <;> exact ⟨rfl, rfl, rfl, rfl, rfl, rfl⟩
  · simp [Tbk.powerOn]
  · simp [Tbk.powerOn]
  · rfl
  · simp [Req.powerOn, ReqQueue.reset]
  · exact ⟨rfl, rfl, rfl, rfl, rfl⟩

/-- The settle timer starts when phantom restore is off (R24). -/
theorem ShowData.settle_reported (x : ShowData) {restore : Bool} (off : restore = false) (samples : Vector Sample 72) :
    (Pcu.powerOn x restore samples).2 = true := by
  subst off
  rfl

/-- The outputs at power-on (R132). -/
theorem Mon.powerOn_restored (x : ShowData) (install : Install) (safe : Bool) (i : Out) :
    let o := (Mon.powerOn x install safe).output i
    let p := Tbl.get x.patches i
    o.primary = p.primary ∧ o.fallback = p.fallback ∧ o.failAction = p.failAction ∧ o.gap = p.gap ∧ o.carried = none ∧
      o.gapTarget = none ∧ o.revertDeadline = none ∧ o.duckTarget = 0 ∧
      o.pathState = (if (p.primary).isNone then .unpatched else .silent) ∧ o.fade = 0 ∧ o.talker = none ∧ o.duck = 0 ∧
      o.enable = (install.startEnabled && !(safe && Tbl.get install.safeMember i)) := by
  rw [Mon.powerOn_output]
  exact ⟨rfl, rfl, rfl, rfl, rfl, rfl, rfl, rfl, rfl, rfl, rfl, rfl, rfl⟩

/-- Settles O3: the part is the blocks restored, with the light of the lanes. -/
theorem powerOnResetRestoresThePart : Obligations.PowerOnResetRestoresThePart := by
  unfold Obligations.PowerOnResetRestoresThePart
  constructor
  · intro pins ports s
    obtain ⟨now, -, arb, -, tbk, -, links, queues, desks⟩ := powerOnReset_eq s.hub pins ports
    obtain ⟨now', arb', tbk', req', -, -⟩ := s.hub.restored_fields pins ports
    refine ⟨⟨s.pending, powerOnReset pins ports s.hub⟩, rfl, ?_⟩
    exact Hub.restored_cleared (now.trans now') (arb.trans arb') (tbk.trans tbk') links
      (queues.trans (congrArg Req.queues req')) desks
  · intro pins ports s
    obtain ⟨-, pcu, -, mon, -, sto, -⟩ := powerOnReset_eq s.hub pins ports
    obtain ⟨-, -, -, -, mon', sto'⟩ := s.hub.restored_fields pins ports
    have charged := s.hub.restored_charged pins ports
    refine ⟨⟨s.pending, powerOnReset pins ports s.hub⟩, rfl, ?_⟩
    generalize powerOnReset pins ports s.hub = t at *
    generalize s.hub.restored pins ports = r at *
    intro installGood showGood image shown supply waiting eff
    have hinstall : s.hub.sto.readInstall = image := by
      rw [Sto.readInstall, Region.read_eq]
      rfl
    have hshown : s.hub.sto.readShow = shown := by
      rw [Sto.readShow, Region.read_eq]
      rfl
    rw [mon', hinstall, hshown] at mon
    rw [sto', hinstall, hshown] at sto
    have pcu : t.pcu = shown.woken image.settings.phantomRestore ports.inputs := by
      rw [pcu, charged, hinstall, hshown]
      rfl
    obtain ⟨install, lock, installStatus, showStatus, prepared, writes, running, settle⟩ := s.hub.sto.powerOn_fields
      (Pcu.powerOn shown image.settings.phantomRestore ports.inputs).2
    rw [Region.status_eq] at installStatus showStatus
    rw [hinstall] at install lock
    rw [sto, pcu, mon]
    refine ⟨install, lock, installStatus, showStatus, prepared, writes, running, fun off => ?_, ?_, ?_,
      shown.woken_phantom image.settings.phantomRestore ports.inputs, fun d c => ⟨fun off => ?_, fun r on ref => ?_⟩,
      shown.woken_settings image.settings.phantomRestore ports.inputs,
      Mon.powerOn_restored shown image.settings pins.safe⟩
    · rw [settle, shown.settle_reported off]
      rfl
    · rw [ShowData.woken, (Pcu.charged_other ..).1]
      rfl
    · rw [ShowData.woken, (Pcu.charged_other ..).2.1]
      rfl
    · rw [ShowData.woken_track, ShowData.track_off off]
    · rw [ShowData.woken_track, ShowData.track_on on ref]
      rfl

end Sys2Proof.Machine
end

/-!
The samples of a period (R2, R28, R122, R128; log entries 8, 10): the number nearest to a sample times the linear factor
of a level, in whole numbers, and the input slots and output samples formed with it.
-/
section
namespace Sys2Proof.Machine

/-! ## Halves compared with a scaled value -/

theorem compare_pow {n : Nat} (pos : n ≠ 0) (a b : Nat) : compare (a ^ n) (b ^ n) = compare a b := by
  rw [← cmp_eq_compare, ← cmp_eq_compare, (Nat.pow_left_strictMono pos).cmp_map_eq]

/-- The root to which both sides are raised. -/
theorem compareHalf_root_pos (level : Int) : 0 < Config.tenfold / Nat.gcd level.natAbs Config.tenfold :=
  have pos : 0 < Config.tenfold := by decide
  Nat.div_pos (Nat.gcd_le_right _ pos) (Nat.gcd_pos_of_pos_right _ pos)

/-- At a level of t parts, N of which are tenfold, the N-th powers are compared. -/
theorem compareHalf_parts {N u : Nat} (whole : N * u = Config.tenfold) (t : Int) (num den n : Nat) :
    compareHalf (t * u) num den n =
      compare ((n * den) ^ N * 10 ^ (-t).toNat) ((2 * num) ^ N * 10 ^ t.toNat) := by
  have tenfold : Config.tenfold ≠ 0 := by decide
  have hN : N ≠ 0 := fun h => tenfold (by rw [← whole, h, Nat.zero_mul])
  have hu : 0 < u := Nat.pos_of_ne_zero fun h => tenfold (by rw [← whole, h, Nat.mul_zero])
  let g := Nat.gcd t.natAbs N
  have hg : 0 < g := Nat.gcd_pos_of_pos_right _ (Nat.pos_of_ne_zero hN)
  have gcd : Nat.gcd (t * u).natAbs Config.tenfold = g * u := by
    rw [← whole, Int.natAbs_mul, Int.natAbs_natCast, Nat.gcd_mul_right]
  have root : Config.tenfold / (g * u) = N / g := by rw [← whole, Nat.mul_div_mul_right _ _ hu]
  have power : (t * u).natAbs / (g * u) = t.natAbs / g := by
    rw [Int.natAbs_mul, Int.natAbs_natCast, Nat.mul_div_mul_right _ _ hu]
  have rootBack : N / g * g = N := Nat.div_mul_cancel (Nat.gcd_dvd_right ..)
  have powerBack : t.natAbs / g * g = t.natAbs := Nat.div_mul_cancel (Nat.gcd_dvd_left ..)
  have sign : 0 ≤ t * (u : Int) ↔ 0 ≤ t := by
    have : (0 : Int) < u := by exact_mod_cast hu
    exact ⟨fun h => nonneg_of_mul_nonneg_left h this, fun h => Int.mul_nonneg h this.le⟩
  simp only [compareHalf, gcd, root, power, sign]
  split
  · next up =>
    have none_ : (-t).toNat = 0 := by omega
    have abs : t.toNat = t.natAbs := by omega
    rw [← compare_pow hg.ne', Nat.mul_pow ((2 * num) ^ _), ← Nat.pow_mul, ← Nat.pow_mul, ← Nat.pow_mul, rootBack, powerBack,
      none_, abs, Nat.pow_zero, Nat.mul_one]
  · next down =>
    have none_ : t.toNat = 0 := by omega
    have abs : (-t).toNat = t.natAbs := by omega
    rw [← compare_pow hg.ne', Nat.mul_pow ((n * den) ^ _), ← Nat.pow_mul, ← Nat.pow_mul, ← Nat.pow_mul, rootBack, powerBack,
      none_, abs, Nat.pow_zero, Nat.mul_one]

theorem compareHalf_zero (level : Int) (num den : Nat) : compareHalf level num den 0 ≠ .gt := by
  have root := compareHalf_root_pos level
  simp only [compareHalf, Nat.zero_mul, Nat.zero_pow root]
  split <;> simp [Nat.compare_eq_gt]

/-- Every half above 0 exceeds the zero sample at any level. -/
theorem compareHalf_silent (level : Int) {den n : Nat} (pos : 0 < n * den) : compareHalf level 0 den n = .gt := by
  have root := compareHalf_root_pos level
  simp only [compareHalf, Nat.mul_zero, Nat.zero_pow root, Nat.zero_mul]
  split <;> rw [Nat.compare_eq_gt]
  · exact Nat.pow_pos pos
  · exact Nat.mul_pos (Nat.pow_pos pos) (Nat.pow_pos (by decide))

/-! ## The nearest number (log entries 10, 11) -/

/-- m is a number nearest to num/den times the factor of a level: no half of 2m - 1 exceeds it, and it exceeds no half of
2m + 1. -/
def Nearest (level : Int) (num den m : Nat) : Prop :=
  compareHalf level num den (2 * m - 1) ≠ .gt ∧ compareHalf level num den (2 * m + 1) ≠ .lt

/-- A number nearest to a value, with the sign of the value. -/
def signed (num : Int) (m : Nat) : Int := if num < 0 then -(m : Int) else m

/-- The rounded value is a nearest number with the sign of the sample. -/
theorem roundScaled_nearest {level num : Int} {den : Nat} (plus : Int)
    (bound : compareHalf level num.natAbs den (2 ^ 29) = .gt) :
    ∃ m, Nearest level num.natAbs den m ∧ roundScaled level num den plus = signed num m + plus := by
  have spec := lastBelow_spec (fun n => compareHalf level num.natAbs den (2 * n) != .gt) 28
    (by simpa using compareHalf_zero level num.natAbs den) (fun m n le h => by
      simp only [bne_iff_ne] at h ⊢
      exact compareHalf_down level _ _ (by omega) h)
  simp only [bne_iff_ne] at spec
  simp only [roundScaled]
  generalize lastBelow (fun n => compareHalf level num.natAbs den (2 * n) != .gt) 28 = k at *
  obtain ⟨pass, below, last⟩ := spec
  have above : compareHalf level num.natAbs den (2 * (k + 1)) = .gt := by
    by_cases hk : k + 1 < 2 ^ 28
    · by_contra h
      exact absurd (last (k + 1) hk h) (by omega)
    · rw [show 2 * (k + 1) = 2 ^ 29 by omega, bound]
  have lower : compareHalf level num.natAbs den (2 * k + 1) ≠ .lt → Nearest level num.natAbs den k := fun h =>
    ⟨compareHalf_down level _ _ (by omega) pass, h⟩
  have upper : compareHalf level num.natAbs den (2 * k + 1) ≠ .gt → Nearest level num.natAbs den (k + 1) := fun h => by
    refine ⟨h, fun lt => ?_⟩
    exact compareHalf_down level _ _ (by omega : 2 * (k + 1) ≤ 2 * (k + 1) + 1) (by rw [lt]; decide) above
  cases side : compareHalf level num.natAbs den (2 * k + 1) with
  | gt => exact ⟨k, lower (by simp [side]), by dsimp only [signed]; split <;> omega⟩
  | lt => exact ⟨k + 1, upper (by simp [side]), by dsimp only [signed]; split <;> omega⟩
  | eq =>
    by_cases neg : num < 0
    · simp only [neg, if_true]
      split
      · exact ⟨k, lower (by simp [side]), by simp only [signed, neg, if_true]; omega⟩
      · exact ⟨k + 1, upper (by simp [side]), by simp only [signed, neg, if_true]; omega⟩
    · simp only [neg, if_false]
      split
      · exact ⟨k + 1, upper (by simp [side]), by simp only [signed, neg, if_false]; omega⟩
      · exact ⟨k, lower (by simp [side]), by simp only [signed, neg, if_false]⟩

/-- The number nearest to the zero sample is 0. -/
theorem Nearest.silent {level : Int} {den m : Nat} (near : Nearest level 0 den m) (pos : 0 < den) : m = 0 := by
  by_contra h
  exact near.1 (compareHalf_silent level (Nat.mul_pos (by omega) pos))

/-- The zero sample at any level adds nothing. -/
theorem roundScaled_silent (level : Int) {den : Nat} (pos : 0 < den) (plus : Int) : roundScaled level 0 den plus = plus := by
  obtain ⟨m, near, eq⟩ := roundScaled_nearest (level := level) (num := 0) (den := den) plus
    (compareHalf_silent level (by positivity))
  simpa [near.silent pos, signed] using eq

/-- A whole number is its own nearest. -/
theorem roundNearest_whole (x : Int) {den : Nat} (pos : 0 < den) : roundNearest (x * den) den = x := by
  have ne : (den : Int) ≠ 0 := by exact_mod_cast pos.ne'
  simp [roundNearest, pos, Int.mul_ediv_cancel _ ne]

/-- 0.0 dB is the factor 1. -/
theorem scaled_unity (x : Int) {den : Nat} (pos : 0 < den) (plus : Int) : scaled 0 (x * den) den plus = x + plus := by
  rw [scaled, if_pos rfl, ← Int.add_mul, roundNearest_whole _ pos]

/-- Any level but 0.0 dB and +6.0 dB takes the general factor. -/
theorem scaled_other {level : Int} (unity : level ≠ 0) (double : level ≠ 6 * (Config.duckPerDb : Int)) (num : Int) (den : Nat)
    (plus : Int) : scaled level num den plus = roundScaled level num den plus := by
  rw [scaled, if_neg unity, if_neg double]

/-! ## The 24-bit range -/

theorem saturate24_toInt (x : Int) : (saturate24 x).toInt = max (-8388608) (min 8388607 x) := by
  rw [saturate24, BitVec.toInt_ofInt]
  have range : (if x < -8388608 then -8388608 else if 8388607 < x then 8388607 else x) = max (-8388608) (min 8388607 x) := by
    omega
  rw [range]
  simp only [Int.bmod]
  omega

theorem sample_range (x : Sample) : -8388608 ≤ x.toInt ∧ x.toInt ≤ 8388607 := by
  have := x.toInt_lt
  have := x.le_toInt
  omega

@[simp] theorem saturate24_sample (x : Sample) : saturate24 x.toInt = x := by
  obtain ⟨low, high⟩ := sample_range x
  refine BitVec.eq_of_toInt_eq ?_
  rw [saturate24_toInt]
  omega

/-- A size with the sign of a sample, limited to 24 bits. -/
theorem saturate24_signed {x : Int} {m : Nat} (silent : x = 0 → m = 0) :
    let y := (saturate24 (signed x m)).toInt
    (0 ≤ x → 0 ≤ y) ∧ (x ≤ 0 → y ≤ 0) ∧ y.natAbs ≤ m ∧ (y.natAbs < 8388607 → y.natAbs = m) ∧
    (m ≤ x.natAbs → -8388608 ≤ x → x ≤ 8388607 → y.natAbs = m) := by
  intro y
  have hy : y = max (-8388608) (min 8388607 (signed x m)) := saturate24_toInt _
  rw [signed] at hy
  split at hy <;> refine ⟨?_, ?_, ?_, ?_, ?_⟩ <;> omega

/-! ## Levels in parts of the tenfold (R28, R128) -/

/-- The nearest number at a level of t half decibels, a sample of 24 bits. -/
theorem nearest_half_dB {t : Int} {x m : Nat} (near : Nearest (t * (Config.duckPerDb / 2 : Nat)) x 1 m) :
    (2 * m - 1) ^ 40 * 10 ^ (-t).toNat ≤ (2 * x) ^ 40 * 10 ^ t.toNat ∧
    (2 * x) ^ 40 * 10 ^ t.toNat ≤ (2 * m + 1) ^ 40 * 10 ^ (-t).toNat := by
  obtain ⟨low, high⟩ := near
  have parts : 40 * (Config.duckPerDb / 2) = Config.tenfold := by decide
  rw [compareHalf_parts parts, Nat.mul_one] at low high
  exact ⟨Nat.not_lt.1 (mt Nat.compare_eq_gt.2 low), Nat.not_lt.1 (mt Nat.compare_eq_lt.2 high)⟩

/-- 2^28 lies beyond every sample times a trim of +24.0 dB. -/
theorem compareHalf_trim_bound {t : Int} (high : t ≤ 48) {x : Nat} (hx : x ≤ 8388608) :
    compareHalf (t * (Config.duckPerDb / 2 : Nat)) x 1 (2 ^ 29) = .gt := by
  have parts : 40 * (Config.duckPerDb / 2) = Config.tenfold := by decide
  rw [compareHalf_parts parts, Nat.mul_one, Nat.compare_eq_gt]
  calc (2 * x) ^ 40 * 10 ^ t.toNat
      ≤ (2 ^ 24) ^ 40 * 10 ^ 48 :=
        Nat.mul_le_mul (Nat.pow_le_pow_left (by omega) _) (Nat.pow_le_pow_right (by decide) (by omega))
    _ < (2 ^ 29) ^ 40 := by norm_num
    _ ≤ (2 ^ 29) ^ 40 * 10 ^ (-t).toNat := Nat.le_mul_of_pos_right _ (Nat.pow_pos (by decide))

/-- The nearest number at k whole decibels below, at full fade. -/
theorem nearest_duck {k : Nat} {x m den : Nat} (pos : 0 < den)
    (near : Nearest (-(k : Int) * Config.duckPerDb) (x * den) den m) :
    (2 * m - 1) ^ 20 * 10 ^ k ≤ (2 * x) ^ 20 ∧ (2 * x) ^ 20 ≤ (2 * m + 1) ^ 20 * 10 ^ k := by
  obtain ⟨low, high⟩ := near
  have parts : 20 * Config.duckPerDb = Config.tenfold := rfl
  have down : (-(-(k : Int))).toNat = k ∧ (-(k : Int)).toNat = 0 := by omega
  have common (n : Nat) : compareHalf (-(k : Int) * Config.duckPerDb) (x * den) den n =
      compare (n ^ 20 * 10 ^ k * den ^ 20) ((2 * x) ^ 20 * den ^ 20) := by
    rw [compareHalf_parts parts, down.1, down.2, ← Nat.mul_assoc 2, Nat.mul_pow n, Nat.mul_pow (2 * x), Nat.pow_zero,
      Nat.mul_one, Nat.mul_right_comm]
  have cancel : 0 < den ^ 20 := Nat.pow_pos pos
  rw [common] at low high
  exact ⟨Nat.le_of_mul_le_mul_right (Nat.not_lt.1 (mt Nat.compare_eq_gt.2 low)) cancel,
    Nat.le_of_mul_le_mul_right (Nat.not_lt.1 (mt Nat.compare_eq_lt.2 high)) cancel⟩

/-- 2^28 lies beyond every sample ducked. -/
theorem compareHalf_duck_bound (k : Nat) {x den : Nat} (hx : x ≤ 8388608) (pos : 0 < den) :
    compareHalf (-(k : Int) * Config.duckPerDb) (x * den) den (2 ^ 29) = .gt := by
  have parts : 20 * Config.duckPerDb = Config.tenfold := rfl
  have up : (-(k : Int)).toNat = 0 := by omega
  rw [compareHalf_parts parts, Nat.compare_eq_gt, up, Nat.pow_zero, Nat.mul_one, ← Nat.mul_assoc]
  calc (2 * x * den) ^ 20
      < (2 ^ 29 * den) ^ 20 := Nat.pow_lt_pow_left (Nat.mul_lt_mul_of_pos_right (by omega) pos) (by decide)
    _ ≤ (2 ^ 29 * den) ^ 20 * 10 ^ (-(-(k : Int))).toNat := Nat.le_mul_of_pos_right _ (Nat.pow_pos (by decide))

/-! ## Slots and output samples -/

/-- A trim that is neither 0.0 nor +6.0 dB gives a nearest number, limited (R28). -/
theorem trimmed_other {t : Int} (unity : t ≠ 0) (double : t ≠ 12) (high : t ≤ 48) (x : Sample) :
    ∃ m, Nearest (t * (Config.duckPerDb / 2 : Nat)) x.toInt.natAbs 1 m ∧ trimmed t x = saturate24 (signed x.toInt m) := by
  obtain ⟨low, top⟩ := sample_range x
  obtain ⟨m, near, eq⟩ := roundScaled_nearest (den := 1) 0
    (compareHalf_trim_bound high (show x.toInt.natAbs ≤ 8388608 by omega))
  have half : (Config.duckPerDb / 2 : Nat) = 1441440 := rfl
  refine ⟨m, near, ?_⟩
  rw [trimmed, if_neg unity, scaled_other _ _, eq, Int.add_zero]
  · rw [half]; omega
  · rw [half, Config.duckPerDb]; omega

/-- A trim of +6.0 dB doubles the sample (R28). -/
theorem trimmed_double (x : Sample) : trimmed 12 x = saturate24 (2 * x.toInt) := by
  have double : (12 : Int) * (Config.duckPerDb / 2 : Nat) = 6 * Config.duckPerDb := by decide
  have two : 2 * x.toInt + 0 * ((1 : Nat) : Int) = 2 * x.toInt * ((1 : Nat) : Int) := by omega
  rw [trimmed, if_neg (by decide), scaled, double, if_neg (by decide), if_pos rfl, two, roundNearest_whole _ (by decide)]

/-- A trim in half decibels between the limits (R28, log entry 10). -/
theorem trimmed_nearest {t : Int} (high : t ≤ 48) (double : t ≠ 12) (s : Sample) :
    let x := s.toInt
    let y := (trimmed t s).toInt
    let n := y.natAbs
    (0 ≤ x → 0 ≤ y) ∧ (x ≤ 0 → y ≤ 0) ∧
    (2 * n - 1) ^ 40 * 10 ^ (-t).toNat ≤ (2 * x.natAbs) ^ 40 * 10 ^ t.toNat ∧
    (n < 8388607 → (2 * x.natAbs) ^ 40 * 10 ^ t.toNat ≤ (2 * n + 1) ^ 40 * 10 ^ (-t).toNat) := by
  intro x y n
  by_cases unity : t = 0
  · subst unity
    have same : y = x := by rw [show y = (trimmed 0 s).toInt from rfl, trimmed, if_pos rfl]
    have size : n = x.natAbs := congrArg Int.natAbs same
    rw [same, size]
    exact ⟨id, id, Nat.mul_le_mul_right _ (Nat.pow_le_pow_left (by omega) _),
      fun _ => Nat.mul_le_mul_right _ (Nat.pow_le_pow_left (by omega) _)⟩
  · obtain ⟨m, near, eq⟩ := trimmed_other unity double high s
    obtain ⟨above, below, atMost, exact_, -⟩ := saturate24_signed (x := x) (m := m) fun h =>
      Nearest.silent (by simpa [show s.toInt = 0 from h] using near) Nat.one_pos
    obtain ⟨low, top⟩ := nearest_half_dB near
    rw [← eq] at above below atMost exact_
    refine ⟨above, below, ?_, fun inside => ?_⟩
    · exact le_trans (Nat.mul_le_mul_right _ (Nat.pow_le_pow_left (by omega) _)) low
    · rw [show n = m from exact_ inside]
      exact top

theorem inputSlot_of_transition {p : Pcu} {c : Chan} (on : (p.channel c).inTransition = true) (d : Desk) :
    inputSlot p d c = 0#24 := if_pos on

theorem inputSlot_of_settled {p : Pcu} {c : Chan} (off : (p.channel c).inTransition = false) (d : Desk) :
    inputSlot p d c = trimmed (p.track d c).trim (Tbl.get p.samples c) := by
  rw [inputSlot, off]
  exact if_neg Bool.false_ne_true

/-- What an output with its enable ON carries, with its level (R128). -/
theorem Output.sample_enabled {o : Output} (on : o.enable = true) (delivered : Desk → Option Entry) :
    o.sample delivered = saturate24 (scaled (-(o.duck : Int)) (o.program delivered).1 (o.program delivered).2
      (o.talk delivered)) := by
  rw [Output.sample, if_pos on]

theorem Output.program_carried {o : Output} {delivered : Desk → Option Entry} {src : Source} {e : Entry}
    (carried : o.carried = some src) (entry : delivered src.link = some e) (full : o.fade = Config.fadeFull) :
    o.program delivered = ((Tbl.get e.slots src.slot).toInt * (Config.fadeFull : Nat), Config.fadeFull) := by
  simp only [Output.program, carried, entry, full]

theorem Output.program_idle {o : Output} (idle : o.carried = none) (delivered : Desk → Option Entry) :
    o.program delivered = (0, 1) := by
  simp only [Output.program, idle]

/-- A carried sample at full fade without duck, with the talk (R128). -/
theorem Output.sample_full {o : Output} {delivered : Desk → Option Entry} {src : Source} {e : Entry} (on : o.enable = true)
    (carried : o.carried = some src) (entry : delivered src.link = some e) (full : o.fade = Config.fadeFull)
    (duck : o.duck = 0) :
    o.sample delivered = saturate24 ((Tbl.get e.slots src.slot).toInt + o.talk delivered) := by
  rw [Output.sample_enabled on, Output.program_carried carried entry full, duck, Int.natCast_zero, Int.neg_zero,
    scaled_unity _ (by decide)]

theorem Output.talk_silent {o : Output} (off : o.talker = none) (delivered : Desk → Option Entry) :
    o.talk delivered = 0 := by
  simp only [Output.talk, off]

theorem Output.talk_on {o : Output} {delivered : Desk → Option Entry} {d : Desk} {e : Entry} (on : o.talker = some d)
    (entry : delivered d = some e) : o.talk delivered = e.talk.toInt := by
  simp only [Output.talk, on, entry]

/-- A level of 0 parts or fewer is not +6.0 dB. -/
theorem neg_ne_double (n : Nat) : -(n : Int) ≠ 6 * (Config.duckPerDb : Int) := by
  rw [Config.duckPerDb]
  omega

/-- The talk sample alone, whatever the duck. -/
theorem scaled_talk (duck : Nat) (talk : Int) : scaled (-(duck : Int)) 0 1 talk = talk := by
  by_cases unity : -(duck : Int) = 0
  · have := scaled_unity 0 Nat.one_pos talk
    simpa [unity] using this
  · rw [scaled_other unity (neg_ne_double duck), roundScaled_silent _ Nat.one_pos]

/-- A sample ducked by k whole decibels at full fade, without talk (R128, log entry 10). -/
theorem scaled_duck_nearest (k : Nat) {den : Nat} (pos : 0 < den) (s : Sample) :
    let x := s.toInt
    let y := (saturate24 (scaled (-((k * Config.duckPerDb : Nat) : Int)) (x * den) den 0)).toInt
    let n := y.natAbs
    (0 ≤ x → 0 ≤ y) ∧ (x ≤ 0 → y ≤ 0) ∧
    (2 * n - 1) ^ 20 * 10 ^ k ≤ (2 * x.natAbs) ^ 20 ∧ (2 * x.natAbs) ^ 20 ≤ (2 * n + 1) ^ 20 * 10 ^ k := by
  intro x y n
  by_cases unity : k = 0
  · subst unity
    have same : y = x := by
      rw [show y = (saturate24 (scaled (-((0 * Config.duckPerDb : Nat) : Int)) (x * den) den 0)).toInt from rfl,
        Nat.zero_mul, Int.natCast_zero, Int.neg_zero, scaled_unity x pos, Int.add_zero, saturate24_sample]
    have size : n = x.natAbs := congrArg Int.natAbs same
    rw [same, size, Nat.pow_zero, Nat.mul_one, Nat.mul_one]
    exact ⟨id, id, Nat.pow_le_pow_left (by omega) _, Nat.pow_le_pow_left (by omega) _⟩
  · obtain ⟨bottom, top⟩ := sample_range s
    have abs : (x * (den : Int)).natAbs = x.natAbs * den := by rw [Int.natAbs_mul, Int.natAbs_natCast]
    have level : -((k * Config.duckPerDb : Nat) : Int) = -(k : Int) * Config.duckPerDb := by
      rw [Int.natCast_mul, Int.neg_mul]
    have unity' : -((k * Config.duckPerDb : Nat) : Int) ≠ 0 := by rw [Config.duckPerDb]; omega
    obtain ⟨m, near, eq⟩ := roundScaled_nearest (num := x * den) (den := den) 0 (by
      rw [abs]
      exact compareHalf_duck_bound k (show x.natAbs ≤ 8388608 by omega) pos)
    rw [abs] at near
    have sign : signed (x * den) m = signed x m := by
      have : x * (den : Int) < 0 ↔ x < 0 := by
        have : (0 : Int) < den := by exact_mod_cast pos
        constructor <;> intro h <;> nlinarith
      simp only [signed, this]
    obtain ⟨low, high⟩ := nearest_duck pos near
    obtain ⟨above, below, -, -, inside⟩ := saturate24_signed (x := x) (m := m) fun h =>
      Nearest.silent (by simpa [h] using near) pos
    rw [← Int.add_zero (signed x m), ← sign, ← eq, ← level, ← scaled_other unity' (neg_ne_double _)] at above below inside
    have reach : m ≤ x.natAbs := by
      have root := (Nat.pow_le_pow_iff_left (by decide : 20 ≠ 0)).1
        (le_trans (Nat.le_mul_of_pos_right _ (Nat.pow_pos (by decide))) low)
      omega
    rw [show n = m from inside reach bottom top]
    exact ⟨above, below, low, high⟩

/-- The sample of an output is the one of its port (log entry 8). -/
theorem outputSamples_port (h : Hub) (i : Out) :
    Tbl.get (outputSamples h).mon.port i =
      ((h.mon.output i).latched (Tbl.get h.mon.view i)).sample fun d => (h.links.get d).delivered := by
  simp only [outputSamples, Tbl.get_of]

/-- Settles O18: the slots by their trims, the samples by their levels, the ports by their definition. -/
theorem samplesOfAPeriod : Obligations.SamplesOfAPeriod := by
  unfold Obligations.SamplesOfAPeriod
  refine ⟨fun p d c => ⟨fun on => inputSlot_of_transition on d, fun off trim => ?_, fun off trim => ?_,
    fun t off trim low high double => ?_⟩, fun delivered o => ⟨fun off => ?_, fun src e on carried entry full duck talker => ?_,
    fun d e on carried talker entry => ?_, fun src e d f on carried entry full duck talker talk => ?_,
    fun src e k on carried entry full duck limit talker => ?_⟩, fun h i => outputSamples_port h i⟩
  · rw [inputSlot_of_settled off, trim, trimmed, if_pos rfl]
  · rw [inputSlot_of_settled off, trim, trimmed_double, saturate24_toInt]
  · rw [inputSlot_of_settled off, trim]
    exact trimmed_nearest high double _
  · simp [Output.sample, off]
  · rw [Output.sample_full on carried entry full duck, Output.talk_silent talker, Int.add_zero, saturate24_sample]
  · rw [Output.sample_enabled on, Output.program_idle carried, Output.talk_on talker entry, scaled_talk, saturate24_sample]
  · rw [Output.sample_full on carried entry full duck, Output.talk_on talker talk, saturate24_toInt]
  · rw [Output.sample_enabled on, Output.program_carried carried entry full, duck, Output.talk_silent talker]
    exact scaled_duck_nearest k (by decide) _

end Sys2Proof.Machine
end

/-!
Gain tracking (R26 to R36): the table of a transfer, and the two requests that change a desk's entries.
-/
section
namespace Sys2Proof.Machine

/-! ## The table of a transfer (R27, R29, Table 2-2) -/

/-- The limits of a reference, in one line (R29). -/
theorem clampReference_eq (r : Int) : clampReference r = max (-88) (min 175 r) := by
  unfold clampReference
  split
  · omega
  · split <;> omega

/-- A transfer with tracking ON: the reference moves for the credited desk alone, and the trim is derived from it. -/
theorem Track.transfer_on {eff delta r : Int} {credited : Bool} {t : Track} (on : t.tracking = true)
    (ref : t.reference = some r) :
    t.transfer eff delta credited = Track.derive eff
      ⟨true, t.trim, some (if credited then max (-88) (min 175 (r + delta)) else r), t.limitMark⟩ := by
  obtain ⟨tracking, trim, reference, mark⟩ := t
  subst on ref
  cases credited
  · rfl
  · simp [Track.transfer, clampReference_eq]

/-- Settles O13: with tracking OFF nothing is done; with it ON the entry is derived from the reference that it has then. -/
theorem transferOfATrackingEntry : Obligations.TransferOfATrackingEntry := by
  unfold Obligations.TransferOfATrackingEntry
  intro eff delta credited t
  refine ⟨fun off => ?_, fun r on ref => ?_⟩
  · simp [Track.transfer, off]
  · rw [Track.transfer_on on ref, Track.derive_some]

/-! ## One entry changed (R32 to R34) -/

/-- The entry that a SET_TRIM leaves (R34). -/
theorem Track.setTrim_eq (eff trim : Int) (t : Track) :
    t.setTrim eff trim = ⟨t.tracking, trim, if t.tracking then some (eff + trim) else t.reference, false⟩ := by
  unfold Track.setTrim
  split <;> rfl

/-- The entry that a SET_TRACKING leaves: at a trim in range the derivation gives the trim back, with no mark (R32, R33). -/
theorem Track.setTracking_eq {t : Track} (range : -48 ≤ t.trim ∧ t.trim ≤ 48) (eff : Int) (on : Bool) :
    t.setTracking eff on =
      if t.tracking ≠ on then
        if on then ⟨true, t.trim, some (eff + t.trim), false⟩ else ⟨false, t.trim, none, false⟩
      else t := by
  by_cases same : t.tracking = on
  · simp [Track.setTracking, same]
  · rw [Track.setTracking, if_neg same, if_pos same]
    cases on
    · simp
    · obtain ⟨low, high⟩ := range
      have trim : max (-48) (min 48 (eff + t.trim - eff)) = t.trim := by omega
      have mark : ¬(eff + t.trim - eff < -48 ∨ 48 < eff + t.trim - eff) := by omega
      rw [if_pos rfl, if_pos rfl, Track.derive_some, trim, decide_eq_false mark]

/-- The stored fields of two entries of the same tracking agree where trim and reference do (R36). -/
theorem Track.stored_eq_iff {t u : Track} (tracking : t.tracking = u.tracking) :
    t.stored = u.stored ↔ t.trim = u.trim ∧ t.reference = u.reference := by
  simp [Track.stored, tracking]

/-! ## The entries of an event (R30, R36) -/

@[simp] theorem PcuEvent.change_track (d : Desk) (f : Int → Track → Track) (e : PcuEvent) (c : Chan)
    (k : Desk) (m : Chan) :
    (e.change d f c).pcu.track k m =
      if k = d ∧ m = c then f (e.pcu.channel c).effectiveGain (e.pcu.track d c) else e.pcu.track k m :=
  Pcu.track_setTrack ..

/-- An event of one entry: its TRACK_LIMIT where the mark changes, its report where a stored field does. -/
theorem PcuEvent.change_start (p : Pcu) (d : Desk) (f : Int → Track → Track) (c : Chan) :
    let old := p.track d c
    let eff := (p.channel c).effectiveGain
    let new := f eff old
    (PcuEvent.start p).change d f c =
      ⟨p.setTrack d c new, [],
        if old.limitMark = new.limitMark then [] else [(d, .trackLimit c new.limitMark new.trim new.reference eff)], [],
        false, !decide (old.stored = new.stored)⟩ := rfl

@[simp] theorem PcuEvent.change_channels (d : Desk) (f : Int → Track → Track) (e : PcuEvent) (c : Chan) :
    (e.change d f c).pcu.channels = e.pcu.channels := rfl

/-- Changes of a desk's entries leave the channels. -/
theorem PcuEvent.foldl_change_channels (d : Desk) (f : Int → Track → Track) (cs : List Chan) (e : PcuEvent) :
    (cs.foldl (PcuEvent.change d f) e).pcu.channels = e.pcu.channels := by
  induction cs generalizing e with
  | nil => rfl
  | cons c cs ih => rw [List.foldl_cons, ih, PcuEvent.change_channels]

/-- Each entry named is changed once, and the others stand. -/
theorem PcuEvent.foldl_change_track (d : Desk) (f : Int → Track → Track) {cs : List Chan} (nodup : cs.Nodup)
    (e : PcuEvent) (k : Desk) (m : Chan) :
    (cs.foldl (PcuEvent.change d f) e).pcu.track k m =
      if k = d ∧ m ∈ cs then f (e.pcu.channel m).effectiveGain (e.pcu.track k m) else e.pcu.track k m := by
  induction cs generalizing e with
  | nil => simp
  | cons c cs ih =>
    obtain ⟨fresh, nodup⟩ := List.nodup_cons.1 nodup
    have channel : (e.change d f c).pcu.channel m = e.pcu.channel m := rfl
    rw [List.foldl_cons, ih nodup, channel, PcuEvent.change_track]
    by_cases hm : m = c
    · subst hm
      by_cases hk : k = d <;> simp [hk, fresh]
    · simp [hm]

theorem BitSet.members_nodup {n : Nat} (v : BitSet n) : v.members.Nodup := (List.nodup_finRange n).filter _

/-- The event of a SET_TRACKING: each entry of its set, in number order (R31). -/
def PcuEvent.tracked (p : Pcu) (d : Desk) (set : BitSet 72) (on : Bool) : PcuEvent :=
  (BitSet.members set).foldl (PcuEvent.change d fun eff => Track.setTracking eff on) (PcuEvent.start p)

@[simp] theorem PcuEvent.tracked_channels (p : Pcu) (d : Desk) (set : BitSet 72) (on : Bool) :
    (PcuEvent.tracked p d set on).pcu.channels = p.channels := PcuEvent.foldl_change_channels ..

/-- The entries of the set follow, and the others stand. -/
theorem PcuEvent.tracked_track (p : Pcu) (d : Desk) (set : BitSet 72) (on : Bool) (k : Desk) (c : Chan) :
    (PcuEvent.tracked p d set on).pcu.track k c =
      if k = d ∧ Tbl.get set c = true then (p.track k c).setTracking (p.channel c).effectiveGain on
      else p.track k c := by
  rw [PcuEvent.tracked, PcuEvent.foldl_change_track _ _ (BitSet.members_nodup set), PcuEvent.start_pcu]
  simp only [BitSet.mem_members]

/-! ## The commit -/

/-- An event of tracking entries alone: TRACK_LIMIT where a mark changed, then the report. -/
theorem commitPcu_entries {e : PcuEvent} (h : Hub) (phantom : e.phantom = []) (changed : e.changed = []) :
    commitPcu e h = showReportIf e.report (notifyLimits e.limits { h with pcu := e.pcu }) := by
  unfold commitPcu PcuEvent.phantomNotices
  simp only [phantom, changed]
  split <;> rfl

/-- A report to STO is a change of STO alone. -/
@[simp] theorem showReportIf_other (b : Bool) (h : Hub) :
    (showReportIf b h).pcu = h.pcu ∧ (showReportIf b h).arb = h.arb ∧ (showReportIf b h).links = h.links ∧
      (showReportIf b h).mon = h.mon ∧ (showReportIf b h).tbk = h.tbk ∧ (showReportIf b h).req = h.req := by
  cases b <;> exact ⟨rfl, rfl, rfl, rfl, rfl, rfl⟩

/-- An event committed is its state and its notices, then the report. -/
theorem commitPcu_cases (e : PcuEvent) (h : Hub) :
    ∃ k, commitPcu e h = showReportIf e.report k ∧ k.core = Hub.core { h with pcu := e.pcu } ∧
      k.req.queues = h.req.queues := by
  unfold commitPcu
  dsimp only
  split <;> exact ⟨_, rfl, by simp, by simp⟩

/-- An event of PCU that is answered changes no claim, link, output or talk record. -/
theorem answerTo_commitPcu (who : Requester) (code : Code) (body : List Byte) (e : PcuEvent) (h : Hub) :
    let t := answerTo who code body (commitPcu e h)
    t.pcu = e.pcu ∧ t.arb = h.arb ∧ t.links = h.links ∧ t.mon = h.mon ∧ t.tbk = h.tbk := by
  obtain ⟨k, eq, core, -⟩ := commitPcu_cases e h
  obtain ⟨-, pcu, arb, links, -, mon, tbk, -, -⟩ := Hub.core_eq core
  obtain ⟨-, pcu', arb', links', -, mon', tbk', -, -⟩ := Hub.core_eq (answerTo_core who code body (commitPcu e h))
  simp only [eq, showReportIf_other] at pcu' arb' links' mon' tbk' ⊢
  exact ⟨pcu'.trans pcu, arb'.trans arb, links'.trans links, mon'.trans mon, tbk'.trans tbk⟩

@[simp] theorem commitPcu_queues (e : PcuEvent) (h : Hub) : (commitPcu e h).req.queues = h.req.queues := by
  obtain ⟨k, eq, -, queues⟩ := commitPcu_cases e h
  simp [eq, queues]

/-- The answer to a request taken that commits an event (R160, R163). -/
theorem answerOf_commitPcu_taken (h : Hub) (who : Requester) (tag : Byte) (c : Call) (e : PcuEvent) (code : Code)
    (body : List Byte) :
    (answerTo who code body (commitPcu e (h.taken who tag c))).answerOf who =
      some ⟨c.kind, tag, (h.req.queues.get who).discarded, code, body⟩ := by
  have queue : (commitPcu e (h.taken who tag c)).req.queues.get who =
      ⟨[⟨tag, c⟩], true, (h.req.queues.get who).discarded⟩ := by rw [commitPcu_queues, Hub.taken_queue]
  rw [answerTo_answerOf (by rw [queue]) (by rw [queue]), queue]

/-! ## The requests (R31, R34) -/

theorem ownsEntries_iff {who : Requester} {d : Desk} : ownsEntries who d = true ↔ who = .panel ∨ who = d.req := by
  simp [ownsEntries]

theorem trim?_range {t : Int} (low : -48 ≤ t) (high : t ≤ 48) : trim? t = some t := if_pos ⟨low, high⟩

theorem Desk.num_inj {d e : Desk} (num : Desk.num d = Desk.num e) : d = e :=
  Option.some.inj ((desk?_num d).symm.trans (num ▸ desk?_num e))

theorem onOff?_pos (on : Bool) : onOff? (if on then 0 else 1) = some on := by cases on <;> rfl

theorem Hub.taken_pcu (h : Hub) (who : Requester) (tag : Byte) (c : Call) : (h.taken who tag c).pcu = h.pcu :=
  (Hub.taken_other h who tag c).2.1

/-- A SET_TRIM of the owner commits its one entry (R34). -/
theorem setTrim_done {who : Requester} {d : Desk} {trim : Int} (owner : who = .panel ∨ who = d.req)
    (range : trim? trim = some trim) (c : Chan) (h : Hub) :
    pcuSetTrim who (Desk.num d) (c.1 + 1) trim h = answerTo who .done []
      (commitPcu ((PcuEvent.start h.pcu).change d (fun eff => Track.setTrim eff trim) c) h) := by
  simp only [pcuSetTrim, desk?_num, chan?_num, range, ownsEntries_iff.2 owner, if_true]

/-- A SET_TRACKING of the owner on a set that is not empty commits its entries (R31). -/
theorem setTracking_done {who : Requester} {d : Desk} {set : BitSet 72} (owner : who = .panel ∨ who = d.req)
    (member : ∃ c, Tbl.get set c = true) (on : Bool) (h : Hub) :
    pcuSetTracking who (Desk.num d) set (if on then 0 else 1) h =
      answerTo who .done [] (commitPcu (PcuEvent.tracked h.pcu d set on) h) := by
  have full : ¬(BitSet.members set).isEmpty = true := by
    obtain ⟨c, hc⟩ := member
    exact fun empty => by simp [(members_isEmpty set).1 empty c] at hc
  simp only [pcuSetTracking, desk?_num, onOff?_pos, if_neg full, ownsEntries_iff.2 owner, if_true, PcuEvent.tracked]

/-- The event of a SET_TRIM, committed: the entry, TRACK_LIMIT where its mark was set, the report (R34, R36). -/
theorem commitPcu_setTrim (d : Desk) (c : Chan) (trim : Int) (p : Pcu) (h : Hub) :
    let old := p.track d c
    let eff := (p.channel c).effectiveGain
    let new : Track := ⟨old.tracking, trim, if old.tracking then some (eff + trim) else old.reference, false⟩
    let h1 := { h with pcu := p.setTrack d c new }
    let h2 := if old.limitMark then notifyDesk d (.trackLimit c false trim new.reference eff) h1 else h1
    commitPcu ((PcuEvent.start p).change d (fun eff => Track.setTrim eff trim) c) h =
      if old.trim = trim ∧ old.reference = new.reference then h2 else showReport h2 := by
  intro old eff new h1 h2
  have notices : notifyLimits (if old.limitMark = false then [] else
      [(d, .trackLimit c false trim new.reference eff)]) h1 = h2 := by
    unfold h2
    cases old.limitMark <;> rfl
  have stored : old.stored = new.stored ↔ old.trim = trim ∧ old.reference = new.reference := Track.stored_eq_iff rfl
  rw [PcuEvent.change_start, Track.setTrim_eq, commitPcu_entries h rfl rfl]
  refine (congrArg (showReportIf _) notices).trans ?_
  by_cases same : old.trim = trim ∧ old.reference = new.reference
  · rw [if_pos same]
    exact congrArg (showReportIf · h2) (congrArg not (decide_eq_true (stored.2 same)))
  · rw [if_neg same]
    exact congrArg (showReportIf · h2) (congrArg not (decide_eq_false (mt stored.1 same)))

/-- Settles O17: a SET_TRIM by its committed event, a SET_TRACKING by what its event leaves of each entry. -/
theorem trackingRequestsChangeEntries : Obligations.TrackingRequestsChangeEntries := by
  unfold Obligations.TrackingRequestsChangeEntries
  constructor
  · intro who tag d c trim s free low high call old eff new h1 h2
    have range := trim?_range low high
    refine ⟨fun owner => ?_, fun desk other => ?_⟩
    · rw [exec_request (c := call) rfl free rfl (.inl rfl)]
      refine congrArg (fun k => Host.Outcome.next (s.withHub k)) ((setTrim_done owner range c _).trans ?_)
      rw [Hub.taken_pcu]
      exact congrArg (answerTo who .done []) (commitPcu_setTrim d c trim s.hub.pcu _)
    · exact exec_answered (c := call) rfl free rfl (.inl rfl) (setTrim_another (by simp [range])
        ⟨desk, fun y own num => other (own.trans (congrArg Desk.req (Desk.num_inj num).symm))⟩)
  · intro who tag d set on s free member owner range
    let call := Call.setTracking (Desk.num d) set (if on then 0 else 1)
    let e := PcuEvent.tracked s.hub.pcu d set on
    let t := answerTo who .done [] (commitPcu e (s.hub.taken who tag call))
    have event : exec (.setTracking who tag (Desk.num d) set (if on then 0 else 1)) s = .next (s.withHub t) := by
      rw [exec_request (c := call) rfl free rfl (.inl rfl)]
      refine congrArg (fun k => Host.Outcome.next (s.withHub k)) ((setTracking_done owner member on _).trans ?_)
      rw [Hub.taken_pcu]
    obtain ⟨-, -, takenArb, takenLinks, -, takenMon, takenTbk, -⟩ := Hub.taken_other s.hub who tag call
    obtain ⟨pcu, arb, links, mon, tbk⟩ : t.pcu = e.pcu ∧ _ := answerTo_commitPcu who .done [] e _
    refine ⟨s.withHub t, event, fun c => ?_, fun k c other => ?_, ?_, answerOf_commitPcu_taken ..,
      arb.trans takenArb, links.trans takenLinks, mon.trans takenMon, tbk.trans takenTbk⟩
    · show t.pcu.track d c = _
      rw [pcu, PcuEvent.tracked_track, Track.setTracking_eq (range c)]
      by_cases named : Tbl.get set c = true <;> simp [named]
    · show t.pcu.track k c = _
      rw [pcu, PcuEvent.tracked_track, if_neg fun both => other both.1]
    · show t.pcu.channels = _
      rw [pcu, PcuEvent.tracked_channels]

end Sys2Proof.Machine
end

/-!
What every operation keeps of the capacities and of the claim records. An operation within a period leaves the time, takes
no arrived frame back, and keeps every capacity (`Hub.Fits`); most leave the claim records and the states of the links
too (`Hub.Quiet`); those that do not keep the records in agreement (`Hub.Keeps`).
-/
section
namespace Sys2Proof.Machine

/-! ## Lanes and links -/

/-- A lane's record made into another within a period: its frame stays arrived, its capacities are kept. -/
structure LaneRec.Fits (now : Frame) (l m : LaneRec) : Prop where
  arrived : l.arrived = true → m.arrived = true
  bounded : l.Bounded now → m.Bounded now

theorem LaneRec.Fits.refl (now : Frame) (l : LaneRec) : l.Fits now l := ⟨id, id⟩

/-- The fields that the capacities do not speak of are free. -/
theorem LaneRec.Fits.same {now : Frame} {l m : LaneRec} (acquireRun : m.acquireRun = l.acquireRun)
    (badRun : m.badRun = l.badRun) (buffer : m.buffer = l.buffer) (arrived : m.arrived = l.arrived) (rx : m.rx = l.rx)
    (latency : m.latency = l.latency) : l.Fits now m := by
  refine ⟨fun a => arrived.trans a, fun b => ?_⟩
  unfold LaneRec.Bounded at b ⊢
  rwa [acquireRun, badRun, buffer, arrived, rx, latency]

/-- A lane that falls out of sync (R67, R70, R88) holds no frame. -/
theorem LaneRec.Fits.outOfSync (now : Frame) (l : LaneRec) (st : LaneState) : l.Fits now (l.outOfSync st) :=
  ⟨id, fun _ => ⟨Nat.zero_le _, Nat.zero_le _, Nat.zero_le _, List.nodup_nil, by simp [LaneRec.outOfSync],
    fun _ => rfl, by simp [LaneRec.outOfSync]⟩⟩

/-- A link's record made into another within a period. -/
structure Link.Fits (now : Frame) (k k' : Link) : Prop where
  bounded : k.Bounded → k'.Bounded
  lane : ∀ side, (k.lane side).Fits now (k'.lane side)

theorem Link.lane_with (k : Link) (lanes : PerSide LaneRec) (side : Side) :
    Link.lane { k with lanes := lanes } side = lanes.get side := rfl

/-- The entry to UP fills the return buffer with 8 zero entries (R75, R78, R84). -/
theorem Link.Fits.enterUp (now : Frame) (k : Link) (at_ : Frame) (side : Side) (latency : Frame) (qualified : Bool) :
    k.Fits now (k.enterUp at_ side latency qualified) := by
  refine ⟨fun ⟨buffer, rescued, repeated⟩ => ⟨by simp [Link.enterUp], ?_, ?_⟩, fun x => ?_⟩
  · simp only [Link.enterUp]; split <;> omega
  · simp only [Link.enterUp]; split <;> omega
  · simp only [Link.enterUp, Link.lane, PerSide.get_set]
    split
    · next e => subst e; exact .same rfl rfl rfl rfl rfl rfl
    · exact .refl now _

/-- A link that leaves UP or HOLDOVER holds no return entry (R83, R85, R88). -/
theorem Link.Fits.leave (now : Frame) (k : Link) (st : LinkState) (deadline : Option Frame) :
    k.Fits now (k.leave st deadline) :=
  ⟨fun ⟨_, rescued, repeated⟩ => ⟨Nat.zero_le _, rescued, repeated⟩, fun _ => .refl now _⟩

theorem LaneRec.Fits.stepDown (now : Frame) (l : LaneRec) : l.Fits now l.stepDown := by
  unfold LaneRec.stepDown
  split
  · exact .same rfl rfl rfl rfl rfl rfl
  all_goals exact .refl now _

/-- A switch changes which lane serves, and nothing that the lanes hold (R80). -/
theorem Link.Fits.switchFrom (now : Frame) (k : Link) (old : Side) : k.Fits now (k.switchFrom old) := by
  refine ⟨id, fun x => ?_⟩
  simp only [Link.switchFrom, Link.lane, PerSide.get_set]
  split
  · next e => subst e; exact .same rfl rfl rfl rfl rfl rfl
  · split
    · next e => subst e; exact .stepDown now _
    · exact .refl now _

theorem Link.Fits.respond (now : Frame) (k : Link) (at_ : Frame) (limit : Nat) (faulted : Side) :
    k.Fits now (k.respond at_ limit faulted) := by
  unfold Link.respond
  split
  · exact .switchFrom ..
  · exact .switchFrom ..
  all_goals exact .leave ..

theorem Link.Fits.trans {now : Frame} {k k' k'' : Link} (a : k.Fits now k') (b : k'.Fits now k'') : k.Fits now k'' :=
  ⟨b.bounded ∘ a.bounded, fun x => ⟨(b.lane x).arrived ∘ (a.lane x).arrived, (b.lane x).bounded ∘ (a.lane x).bounded⟩⟩

theorem Link.Fits.refl (now : Frame) (k : Link) : k.Fits now k := ⟨id, fun _ => .refl now _⟩

/-- LINK_RESTART empties the lanes of a link and its return buffer (R88). -/
theorem Link.Fits.restart (now : Frame) (k : Link) : k.Fits now k.restart := by
  have left : k.Fits now (match k.state with
      | .down => k
      | .up => k.leave .down none
      | .holdover => k.leave .down none) := by
    split
    · exact .refl now _
    · exact .leave ..
    · exact .leave ..
  refine left.trans ⟨id, fun x => ?_⟩
  cases x <;> exact .outOfSync now _ _

/-! ## The relations -/

/-- What an operation within a period makes of the part: the time stands, no arrived frame is taken back, and every
queue, buffer, list and count that was within its capacity is so still. -/
structure Hub.Fits (h k : Hub) : Prop where
  now : k.now = h.now
  arrived : ∀ l, (h.lane l).arrived = true → (k.lane l).arrived = true
  bounded : h.Bounded → k.Bounded

/-- An operation that leaves the claim records and the state of every link as well. -/
structure Hub.Quiet (h k : Hub) : Prop extends Hub.Fits h k where
  arb : k.arb = h.arb
  state : ∀ d, (k.links.get d).state = (h.links.get d).state

/-- An operation that keeps the claim records in agreement with the show freeze and the links. -/
structure Hub.Keeps (h k : Hub) : Prop extends Hub.Fits h k where
  claims : h.ClaimsOk → k.ClaimsOk

variable {h k m : Hub}

theorem Hub.Fits.refl (h : Hub) : h.Fits h := ⟨rfl, fun _ => id, id⟩
theorem Hub.Fits.trans (a : h.Fits k) (b : k.Fits m) : h.Fits m :=
  ⟨b.now.trans a.now, fun l => b.arrived l ∘ a.arrived l, b.bounded ∘ a.bounded⟩

theorem Hub.Quiet.refl (h : Hub) : h.Quiet h := ⟨.refl h, rfl, fun _ => rfl⟩
theorem Hub.Quiet.trans (a : h.Quiet k) (b : k.Quiet m) : h.Quiet m :=
  ⟨a.toFits.trans b.toFits, b.arb.trans a.arb, fun d => (b.state d).trans (a.state d)⟩

theorem Hub.Keeps.refl (h : Hub) : h.Keeps h := ⟨.refl h, id⟩
theorem Hub.Keeps.trans (a : h.Keeps k) (b : k.Keeps m) : h.Keeps m :=
  ⟨a.toFits.trans b.toFits, b.claims ∘ a.claims⟩

theorem Claim.ok_contended {t : Frame} {cs : List (Requester × Level)} :
    (Claim.contended t cs).Ok h ↔ cs ≠ [] ∧ h.arb.frozen = false := Iff.rfl

theorem Claim.ok_orphaned {d : Desk} {l : Level} {t : Option Frame} :
    (Claim.orphaned d l t).Ok h ↔ h.linkUp d = false ∧ (t.isSome = true ↔ h.arb.frozen = false) := Iff.rfl

/-- A record agrees with a part of the same show freeze in which no link has come UP. -/
theorem Claim.Ok.of_same {c : Claim} (ok : c.Ok h) (frozen : k.arb.frozen = h.arb.frozen)
    (down : ∀ d, h.linkUp d = false → k.linkUp d = false) : c.Ok k := by
  cases c with
  | opened => trivial
  | held w l => trivial
  | contended t cs => rw [Claim.ok_contended] at ok ⊢; rwa [frozen]
  | orphaned d l t =>
    rw [Claim.ok_orphaned] at ok ⊢
    exact ⟨down d ok.1, frozen ▸ ok.2⟩

/-- The claim records of a part stay in agreement where they stand and no link comes UP. -/
theorem Hub.ClaimsOk.mono (ok : h.ClaimsOk) (arb : k.arb = h.arb) (down : ∀ d, h.linkUp d = false → k.linkUp d = false) :
    k.ClaimsOk := fun r => by
  rw [arb]
  exact (ok r).of_same (congrArg Arb.frozen arb) down

theorem Hub.linkUp_of_state {d : Desk} (e : (k.links.get d).state = (h.links.get d).state) : k.linkUp d = h.linkUp d := by
  simp [Hub.linkUp, e]

theorem Hub.Quiet.keeps (q : h.Quiet k) : h.Keeps k :=
  ⟨q.toFits, fun ok => ok.mono q.arb fun d => by rw [Hub.linkUp_of_state (q.state d)]; exact id⟩

/-- A sequence of operations each of which keeps capacities and claims keeps them. -/
theorem Hub.Keeps.foldl {α : Type} {f : Hub → α → Hub} (keeps : ∀ (h : Hub) (x : α), h.Keeps (f h x)) (l : List α) (h : Hub) :
    h.Keeps (l.foldl f h) := by
  induction l generalizing h with
  | nil => exact .refl h
  | cons x l ih => exact (keeps h x).trans (ih (f h x))

theorem Hub.Quiet.foldl {α : Type} {f : Hub → α → Hub} (quiet : ∀ (h : Hub) (x : α), h.Quiet (f h x)) (l : List α) (h : Hub) :
    h.Quiet (l.foldl f h) := by
  induction l generalizing h with
  | nil => exact .refl h
  | cons x l ih => exact (quiet h x).trans (ih (f h x))

/-! ## Updates of the part -/

/-- What the capacities do not speak of is free: PCU, MON, TBK, the frames sent, and STO but for its write list. -/
theorem Hub.Quiet.same (now : k.now = h.now := by rfl) (arb : k.arb = h.arb := by rfl) (links : k.links = h.links := by rfl)
    (hlm : k.hlm = h.hlm := by rfl) (req : k.req = h.req := by rfl) (pnl : k.pnl = h.pnl := by rfl)
    (list : k.sto.writeList = h.sto.writeList := by rfl) : h.Quiet k := by
  have lane : k.lane = h.lane := by unfold Hub.lane; rw [links]
  refine ⟨⟨now, fun l => by rw [lane]; exact id, fun b => ?_⟩, arb, fun d => by rw [links]⟩
  unfold Hub.Bounded at b ⊢
  rwa [now, arb, links, hlm, req, pnl, list, lane]

/-- A desk's part of REQ replaced by one with room for its notices and its message. -/
theorem Hub.Quiet.setDesk (d : Desk) (p : DeskPort)
    (notices : (h.req.desks.get d).notices.length ≤ 8 → p.notices.length ≤ 8)
    (asm : (∀ a, (h.req.desks.get d).asm = some a → a.Bounded) → ∀ a, p.asm = some a → a.Bounded) :
    h.Quiet (h.setDesk d p) := by
  refine ⟨⟨rfl, fun _ => id, fun ⟨queues, ns, asms, rest⟩ => ⟨queues, fun e => ?_, fun e => ?_, rest⟩⟩, rfl, fun _ => rfl⟩
  · rw [Hub.setDesk_desks]
    split
    · exact notices (ns d)
    · exact ns e
  · rw [Hub.setDesk_desks]
    split
    · exact asm (asms d)
    · exact asms e

/-- A requester's queue replaced by one of at most 8 requests. -/
theorem Hub.Quiet.setQueue (r : Requester) (q : ReqQueue)
    (items : (h.req.queues.get r).items.length ≤ 8 → q.items.length ≤ 8) : h.Quiet (h.setQueue r q) := by
  refine ⟨⟨rfl, fun _ => id, fun ⟨queues, rest⟩ => ⟨fun e => ?_, rest⟩⟩, rfl, fun _ => rfl⟩
  rw [Hub.setQueue_queues]
  split
  · exact items (queues r)
  · exact queues e

/-- PNL replaced by one with room for its notices. -/
theorem Hub.Quiet.pnl (p : Pnl) (bound : h.pnl.notices.length ≤ 16 ∧ h.pnl.discardCount ≤ 255 →
    p.notices.length ≤ 16 ∧ p.discardCount ≤ 255) : h.Quiet { h with pnl := p } := by
  refine ⟨⟨rfl, fun _ => id, fun ⟨queues, ns, asms, panel, count, rest⟩ => ?_⟩, rfl, fun _ => rfl⟩
  obtain ⟨panel, count⟩ := bound ⟨panel, count⟩
  exact ⟨queues, ns, asms, panel, count, rest⟩

theorem Hub.Quiet.setHealth (l : LaneId) (x : Health) (bound : (laneGet h.hlm.health l).Bounded → x.Bounded) :
    h.Quiet (h.setHealth l x) := by
  refine ⟨⟨rfl, fun _ => id, fun ⟨queues, ns, asms, panel, count, health, rest⟩ =>
    ⟨queues, ns, asms, panel, count, fun m => ?_, rest⟩⟩, rfl, fun _ => rfl⟩
  rw [Hub.setHealth_health]
  split
  · exact bound (health l)
  · exact health m

theorem Hub.Quiet.setTest (d : Desk) (t : Option TestRec)
    (bound : (∀ x, h.hlm.tests.get d = some x → x.patternErrors ≤ 4294967295) →
      ∀ x, t = some x → x.patternErrors ≤ 4294967295) : h.Quiet (h.setTest d t) := by
  refine ⟨⟨rfl, fun _ => id, fun ⟨queues, ns, asms, panel, count, health, tests, rest⟩ =>
    ⟨queues, ns, asms, panel, count, health, fun e => ?_, rest⟩⟩, rfl, fun _ => rfl⟩
  rw [Hub.setTest_tests]
  split
  · exact bound (tests d)
  · exact tests e

/-- A test record of which the errors counted stand. -/
theorem Hub.Quiet.setTest_of {d : Desk} {x y : TestRec} (test : h.hlm.tests.get d = some x)
    (errors : y.patternErrors = x.patternErrors) : h.Quiet (h.setTest d (some y)) :=
  .setTest d _ fun b z e => by cases e; rw [errors]; exact b x test

theorem Hub.setLink_lane (h : Hub) (d : Desk) (k : Link) (l : LaneId) :
    (h.setLink d k).lane l = if l.link = d then k.lane l.side else h.lane l := by
  unfold Hub.lane
  rw [Hub.setLink_links]
  split <;> rfl

/-- A link's record replaced. -/
theorem Hub.Fits.setLink {d : Desk} {k : Link} (fits : (h.links.get d).Fits h.now k) : h.Fits (h.setLink d k) := by
  refine ⟨rfl, fun l => ?_, fun ⟨queues, ns, asms, panel, count, health, tests, links, lanes, rest⟩ =>
    ⟨queues, ns, asms, panel, count, health, tests, fun e => ?_, fun l => ?_, rest⟩⟩
  · rw [Hub.setLink_lane]
    split
    · next e => subst e; exact (fits.lane l.side).arrived
    · exact id
  · rw [Hub.setLink_links]
    split
    · next e => subst e; exact fits.bounded (links e)
    · exact links e
  · rw [Hub.setLink_lane]
    split
    · next e => subst e; exact (fits.lane l.side).bounded (lanes l)
    · exact lanes l

theorem Hub.Quiet.setLink {d : Desk} {k : Link} (fits : (h.links.get d).Fits h.now k)
    (state : k.state = (h.links.get d).state) : h.Quiet (h.setLink d k) := by
  refine ⟨.setLink fits, rfl, fun e => ?_⟩
  rw [Hub.setLink_links]
  split
  · next e => subst e; exact state
  · rfl

/-- A lane's record replaced. -/
theorem Hub.Quiet.setLane {l : LaneId} {r : LaneRec} (fits : (h.lane l).Fits h.now r) : h.Quiet (h.setLane l r) := by
  refine .setLink ⟨id, fun x => ?_⟩ rfl
  show LaneRec.Fits _ _ (((h.links.get l.link).lanes.set l.side r).get x)
  rw [PerSide.get_set]
  split
  · next e => subst e; exact fits
  · exact .refl ..

/-- ARB replaced by one within its capacities. -/
theorem Hub.Fits.arb {x : Arb} (bound : h.arb.Bounded → x.Bounded) : h.Fits { h with arb := x } :=
  ⟨rfl, fun _ => id, fun ⟨queues, ns, asms, panel, count, health, tests, links, lanes, arb, list⟩ =>
    ⟨queues, ns, asms, panel, count, health, tests, links, lanes, bound arb, list⟩⟩

/-- The write list replaced by one with an entry a region. -/
theorem Hub.Quiet.writeList (x : Sto) (bound : (h.sto.writeList.map WriteEntry.region).Nodup →
    (x.writeList.map WriteEntry.region).Nodup) : h.Quiet { h with sto := x } :=
  ⟨⟨rfl, fun _ => id, fun ⟨queues, ns, asms, panel, count, health, tests, links, lanes, arb, list⟩ =>
    ⟨queues, ns, asms, panel, count, health, tests, links, lanes, arb, bound list⟩⟩, rfl, fun _ => rfl⟩

end Sys2Proof.Machine
end

/-!
The operations that leave the claim records and the states of the links, one by one: notices and answers, the outputs,
talkback, test records, the preamps and the store's writes.
-/
section
namespace Sys2Proof.Machine

/-! ## Notices, answers and tellings -/

theorem notifyDesk_quiet (d : Desk) (n : Notice) (h : Hub) : h.Quiet (notifyDesk d n h) := by
  unfold notifyDesk
  split
  · exact .setDesk d _ (DeskPort.place_length _ n) (by simp)
  · exact .refl h

theorem notifyPanel_quiet (n : Notice) (h : Hub) : h.Quiet (notifyPanel n h) :=
  .pnl _ fun ⟨b, c⟩ => Pnl.place_bounds _ n b c

theorem notifyDeskPanel_quiet (d : Desk) (n : Notice) (h : Hub) : h.Quiet (notifyDeskPanel d n h) :=
  (notifyDesk_quiet d n h).trans (notifyPanel_quiet n _)

theorem notifyAll_quiet (n : Notice) (h : Hub) : h.Quiet (notifyAll n h) :=
  ((notifyDesk_quiet .a n h).trans (notifyDesk_quiet .b n _)).trans
    ((notifyDesk_quiet .c n _).trans (notifyPanel_quiet n _))

theorem notifyEach_quiet (ns : List Notice) (h : Hub) : h.Quiet (notifyEach ns h) :=
  .foldl (fun h n => notifyAll_quiet n h) ns h

theorem notifyRequester_quiet (r : Requester) (n : Notice) (h : Hub) : h.Quiet (notifyRequester r n h) := by
  unfold notifyRequester
  split
  · exact notifyPanel_quiet n h
  · exact notifyDesk_quiet _ n h

theorem notifyLimits_quiet (ls : List (Desk × Notice)) (h : Hub) : h.Quiet (notifyLimits ls h) := by
  unfold notifyLimits
  exact .foldl (fun h x => notifyDesk_quiet x.1 x.2 h) ls h

theorem putAnswer_quiet (who : Requester) (x : Answer) (h : Hub) : h.Quiet (h.putAnswer who x) := by
  unfold Hub.putAnswer
  split
  · exact .pnl _ id
  · exact .setDesk _ _ id id

theorem answerTo_quiet (who : Requester) (code : Code) (body : List Byte) (h : Hub) :
    h.Quiet (answerTo who code body h) := by
  unfold answerTo
  dsimp only
  split
  · refine .trans ?_ (putAnswer_quiet who _ _)
    exact .setQueue who _ id
  · exact .refl h

theorem showReportIf_quiet (b : Bool) (h : Hub) : h.Quiet (showReportIf b h) := by
  cases b
  · exact .refl h
  · exact .same

theorem tellLane_quiet (l : LaneId) (h : Hub) : h.Quiet (tellLane l h) := notifyDeskPanel_quiet ..

theorem tellLaneChange_quiet (b : Hub) (l : LaneId) (h : Hub) : h.Quiet (tellLaneChange b l h) := by
  unfold tellLaneChange
  split
  · exact tellLane_quiet l h
  · exact .refl h

theorem tellLinkChange_quiet (b : Link) (d : Desk) (h : Hub) : h.Quiet (tellLinkChange b d h) := by
  unfold tellLinkChange
  dsimp only
  split
  · exact .refl h
  · exact notifyAll_quiet _ h

theorem tellTest_quiet (d : Desk) (h : Hub) : h.Quiet (tellTest d h) := by
  unfold tellTest
  split
  · exact .refl h
  · exact notifyDeskPanel_quiet ..

/-! ## Outputs and talkback -/

theorem commitMon_quiet (b : Bool) (o : Vector Output 32) (h : Hub) : h.Quiet (commitMon b o h) :=
  .trans .same (notifyEach_quiet _ _)

theorem safeMute_quiet (cause : SafeCause) (h : Hub) : h.Quiet (safeMute cause h) := .trans .same (notifyAll_quiet _ _)

theorem safeAsserted_quiet (h : Hub) : h.Quiet (safeAsserted h) := by
  unfold safeAsserted
  split
  · exact .refl h
  · exact .trans .same (safeMute_quiet _ _)

theorem safeReleased_quiet (h : Hub) : h.Quiet (safeReleased h) := by
  unfold safeReleased
  split
  · exact .trans .same (notifyAll_quiet _ _)
  · exact .refl h

theorem monDown_quiet (h : Hub) : h.Quiet (monDown h) := by
  unfold monDown
  split
  · exact safeMute_quiet _ h
  · exact .refl h

theorem monLeavesUp_quiet (d : Desk) (h : Hub) : h.Quiet (monLeavesUp d h) := by
  unfold monLeavesUp
  dsimp only
  split
  · exact (commitMon_quiet ..).trans (notifyAll_quiet _ _)
  · exact commitMon_quiet ..

theorem fadeComplete_quiet (i : Out) (h : Hub) : h.Quiet (fadeComplete i h) := by
  unfold fadeComplete
  split
  · exact commitMon_quiet ..
  · exact .refl h

theorem revertExpiry_quiet (i : Out) (h : Hub) : h.Quiet (revertExpiry i h) := by
  unfold revertExpiry
  dsimp only
  split
  · exact commitMon_quiet ..
  · exact .refl h

theorem monSetPatch_quiet (who : Requester) (out : Nat) (p f : Option (Nat × Nat)) (fa gap : Nat) (h : Hub) :
    h.Quiet (monSetPatch who out p f fa gap h) := by
  unfold monSetPatch
  split
  · split
    · exact answerTo_quiet ..
    · exact ((showReportIf_quiet _ h).trans (commitMon_quiet ..)).trans (answerTo_quiet ..)
  · exact answerTo_quiet ..

theorem monOutputEnable_quiet (who : Requester) (set : BitSet 32) (value : Nat) (h : Hub) :
    h.Quiet (monOutputEnable who set value h) := by
  unfold monOutputEnable
  repeat' split
  · exact answerTo_quiet ..
  · exact answerTo_quiet ..
  · exact answerTo_quiet ..
  · exact answerTo_quiet ..
  · exact (commitMon_quiet ..).trans (answerTo_quiet ..)

theorem handTalk_quiet (t : Tbk) (h : Hub) : h.Quiet (handTalk t h) := by
  unfold handTalk; exact .same

theorem notifyTalk_quiet (t : Tbk) (cause : Desk → Option TalkCause) (h : Hub) : h.Quiet (notifyTalk t cause h) :=
  notifyEach_quiet _ h

theorem endTalk_quiet (d : Desk) (cause : TalkCause) (h : Hub) : h.Quiet (endTalk d cause h) := by
  unfold endTalk
  split
  · exact .refl h
  · exact (handTalk_quiet _ h).trans (notifyTalk_quiet _ _ _)

theorem talkTimeout_quiet (d : Desk) (h : Hub) : h.Quiet (talkTimeout d h) := by
  unfold talkTimeout
  repeat' split
  · exact .refl h
  · exact endTalk_quiet ..
  · exact .refl h

theorem tbkTalkOn_quiet (who : Requester) (set : BitSet 32) (duck : Nat) (h : Hub) :
    h.Quiet (tbkTalkOn who set duck h) := by
  unfold tbkTalkOn
  repeat' split
  · exact answerTo_quiet ..
  · exact answerTo_quiet ..
  · exact ((handTalk_quiet _ h).trans (notifyTalk_quiet _ _ _)).trans (answerTo_quiet ..)
  · exact answerTo_quiet ..

theorem tbkTalkOff_quiet (who : Requester) (h : Hub) : h.Quiet (tbkTalkOff who h) := by
  unfold tbkTalkOff
  split
  · exact answerTo_quiet ..
  · exact (endTalk_quiet ..).trans (answerTo_quiet ..)

theorem stageChange_quiet (i : StageIn) (b : Bool) (h : Hub) : h.Quiet (stageChange i b h) := by
  unfold stageChange
  split
  · exact .refl h
  · refine .trans (.trans .same (.foldl (fun h d => ?_) _ _)) (notifyPanel_quiet _ _)
    split
    · exact notifyDesk_quiet ..
    · exact .refl h

/-! ## Test records -/

theorem setTestStatus_quiet {d : Desk} {t : TestRec} {h : Hub} (test : h.hlm.tests.get d = some t) (st : TestStatus) :
    h.Quiet (setTestStatus d t st h) := by
  refine .trans ?_ (tellTest_quiet d _)
  exact .setTest_of test rfl

theorem testComplete_quiet (d : Desk) (h : Hub) : h.Quiet (testComplete d h) := by
  unfold testComplete
  split
  · exact .refl h
  · next t test =>
    split
    · exact setTestStatus_quiet test _
    · exact .refl h

theorem hlmDown_quiet (d : Desk) (h : Hub) : h.Quiet (hlmDown d h) := by
  unfold hlmDown
  split
  · exact .refl h
  · next t test =>
    split
    · exact .refl h
    · exact setTestStatus_quiet test _

theorem hlmUp_quiet (d : Desk) (h : Hub) : h.Quiet (hlmUp d h) := .setTest d none (by simp)

theorem hlmRestart_quiet (h : Hub) : h.Quiet (hlmRestart h) := by
  have completed : h.Quiet (Desk.all.foldl (fun h d => testComplete d h) h) := .foldl (fun h d => testComplete_quiet d h) _ h
  refine completed.trans ?_
  unfold hlmRestart
  dsimp only
  generalize Desk.all.foldl (fun h d => testComplete d h) h = k
  refine ⟨⟨rfl, fun _ => id, fun ⟨queues, ns, asms, panel, count, health, tests, rest⟩ =>
    ⟨queues, ns, asms, panel, count, health, fun d t => ?_, rest⟩⟩, rfl, fun _ => rfl⟩
  show (PerDesk.of fun d => (k.hlm.tests.get d).map TestRec.restart).get d = some t → _
  rw [PerDesk.get_of, Option.map_eq_some_iff]
  rintro ⟨x, test, rfl⟩
  have errors : x.restart.patternErrors = x.patternErrors := by unfold TestRec.restart; split <;> rfl
  rw [errors]
  exact tests d x test

theorem faultTest_quiet (l : LaneId) (wasActive : Bool) (h : Hub) : h.Quiet (faultTest l wasActive h) := by
  unfold faultTest
  repeat' split
  · exact .refl h
  · exact setTestStatus_quiet (by assumption) _
  · next t test _ _ _ =>
    unfold suspendTest
    refine .trans ?_ (setTestStatus_quiet (h := writeCapture _ _ h) test _)
    exact .setHealth _ _ id
  · exact .refl h
  · exact .refl h

/-! ## REQ at a link event -/

theorem reqLeavesUp_quiet (d : Desk) (h : Hub) : h.Quiet (reqLeavesUp d h) :=
  .setDesk d _ id fun _ a e => by simp [DeskPort.leavesUp] at e

theorem reqDown_quiet (d : Desk) (h : Hub) : h.Quiet (reqDown d h) :=
  (Hub.Quiet.setQueue _ ReqQueue.reset fun _ => Nat.zero_le _).trans
    (.setDesk d _ (fun _ => Nat.zero_le _) fun _ a e => by simp [DeskPort.teardown] at e)

/-! ## PCU -/

theorem commitPcu_leavesClaims (e : PcuEvent) (h : Hub) : h.Quiet (commitPcu e h) := by
  unfold commitPcu
  dsimp only
  refine .trans ?_ (showReportIf_quiet _ _)
  have taken : h.Quiet { h with pcu := e.pcu } := .same
  split
  · exact ((taken.trans (notifyEach_quiet _ _)).trans (notifyLimits_quiet _ _)).trans (notifyEach_quiet _ _)
  · exact ((taken.trans (notifyLimits_quiet _ _)).trans (notifyEach_quiet _ _)).trans (notifyEach_quiet _ _)

theorem pcuSetInput_quiet (who : Requester) (ch : Nat) (gain pad hpf phantom : Option Nat) (h : Hub) :
    h.Quiet (pcuSetInput who ch gain pad hpf phantom h) := by
  unfold pcuSetInput
  repeat' split
  · exact answerTo_quiet ..
  · exact answerTo_quiet ..
  · exact (commitPcu_leavesClaims ..).trans (answerTo_quiet ..)
  · exact answerTo_quiet ..
  · exact answerTo_quiet ..

theorem pcuSetGang_quiet (who : Requester) (group : Nat) (members : List Nat) (h : Hub) :
    h.Quiet (pcuSetGang who group members h) := by
  unfold pcuSetGang
  split
  · split
    · exact answerTo_quiet ..
    · split
      · exact (commitPcu_leavesClaims ..).trans (answerTo_quiet ..)
      · exact answerTo_quiet ..
  · exact answerTo_quiet ..

theorem pcuSetTracking_quiet (who : Requester) (desk : Nat) (channels : BitSet 72) (value : Nat) (h : Hub) :
    h.Quiet (pcuSetTracking who desk channels value h) := by
  unfold pcuSetTracking
  repeat' split
  · exact answerTo_quiet ..
  · exact (commitPcu_leavesClaims ..).trans (answerTo_quiet ..)
  · exact answerTo_quiet ..
  · exact answerTo_quiet ..

theorem pcuSetTrim_quiet (who : Requester) (desk ch : Nat) (trim : Int) (h : Hub) :
    h.Quiet (pcuSetTrim who desk ch trim h) := by
  unfold pcuSetTrim
  repeat' split
  · exact (commitPcu_leavesClaims ..).trans (answerTo_quiet ..)
  · exact answerTo_quiet ..
  · exact answerTo_quiet ..

theorem zeroCrossing_quiet (c : Chan) (h : Hub) : h.Quiet (zeroCrossing c h) := by
  unfold zeroCrossing
  split
  · exact commitPcu_leavesClaims ..
  · exact .refl h

theorem transferTimeout_quiet (c : Chan) (h : Hub) : h.Quiet (transferTimeout c h) := by
  unfold transferTimeout
  split
  · exact commitPcu_leavesClaims ..
  · exact .refl h

theorem chargeExpiry_quiet (c : Chan) (h : Hub) : h.Quiet (chargeExpiry c h) := by
  unfold chargeExpiry
  split
  · exact commitPcu_leavesClaims ..
  · exact .refl h

theorem dischargeExpiry_quiet (c : Chan) (h : Hub) : h.Quiet (dischargeExpiry c h) := by
  unfold dischargeExpiry
  split
  · exact commitPcu_leavesClaims ..
  · exact .refl h

/-! ## The write list (R181) -/

/-- Merging an entry keeps one entry a region, and adds its own region at most. -/
theorem mergeEntry_regions (e : WriteEntry) (l : List WriteEntry) :
    (mergeEntry e l).map WriteEntry.region =
      if e.region ∈ l.map WriteEntry.region then l.map WriteEntry.region else l.map WriteEntry.region ++ [e.region] := by
  induction l with
  | nil => rfl
  | cons x xs ih =>
    unfold mergeEntry
    by_cases same : x.region = e.region
    · simp [same]
    · rw [if_neg same, List.map_cons, ih]
      by_cases listed : e.region ∈ xs.map WriteEntry.region <;> simp [listed, Ne.symm same]

theorem mergeEntry_nodup {e : WriteEntry} {l : List WriteEntry} (nodup : (l.map WriteEntry.region).Nodup) :
    ((mergeEntry e l).map WriteEntry.region).Nodup := by
  rw [mergeEntry_regions]
  split
  · exact nodup
  · next new => rw [← List.concat_eq_append]; exact nodup.concat new

theorem startNext_quiet (h : Hub) : h.Quiet (startNext h) := by
  unfold startNext
  split
  · next e es _ list =>
    refine .trans (k := { h with sto := { h.sto with writeList := es } }) (.writeList _ fun nodup => ?_)
      (.same (list := by simp [startWrite]))
    rw [list] at nodup
    exact (List.nodup_cons.1 nodup).2
  · exact .refl h
  · exact .refl h

theorem addEntry_quiet (e : WriteEntry) (h : Hub) : h.Quiet (addEntry e h) :=
  (Hub.Quiet.writeList _ mergeEntry_nodup).trans (startNext_quiet _)

theorem setStatus_quiet (r : RegionName) (st : RegionStatus) (cause : StoreCause) (h : Hub) :
    h.Quiet (setStatus r st cause h) := by
  unfold setStatus
  cases r <;> exact .trans .same (notifyAll_quiet _ _)

theorem answerWaiting_quiet (e : WriteEntry) (code : Code) (h : Hub) : h.Quiet (answerWaiting e code h) := by
  unfold answerWaiting
  split
  · exact answerTo_quiet ..
  · exact .refl h

theorem storeWriteFault_quiet (h : Hub) : h.Quiet (storeWriteFault h) := by
  unfold storeWriteFault
  repeat' split
  · exact .refl h
  · exact ((Hub.Quiet.trans .same (setStatus_quiet _ _ _ _)).trans (answerWaiting_quiet _ _ _)).trans (startNext_quiet _)
  · exact .refl h

theorem settleExpiry_quiet (h : Hub) : h.Quiet (settleExpiry h) := by
  unfold settleExpiry
  split
  · exact .trans .same (addEntry_quiet _ _)
  · exact .refl h

theorem stoLockInstall_quiet (who : Requester) (h : Hub) : h.Quiet (stoLockInstall who h) := by
  unfold stoLockInstall
  split
  · exact answerTo_quiet ..
  · exact addEntry_quiet ..

theorem stoEraseInstall_quiet (who : Requester) (prepared : Bool) (h : Hub) : h.Quiet (stoEraseInstall who prepared h) := by
  unfold stoEraseInstall
  split
  · exact addEntry_quiet ..
  · exact answerTo_quiet ..

/-! ## Requests that only report -/

theorem pcuReadInput_quiet (who : Requester) (ch : Nat) (h : Hub) : h.Quiet (pcuReadInput who ch h) := by
  unfold pcuReadInput; split <;> exact answerTo_quiet ..

theorem pcuReadGang_quiet (who : Requester) (g : Option Nat) (h : Hub) : h.Quiet (pcuReadGang who g h) := by
  unfold pcuReadGang; split <;> (try split) <;> exact answerTo_quiet ..

theorem arbReadClaims_quiet (who : Requester) (rs : List Nat) (h : Hub) : h.Quiet (arbReadClaims who rs h) := by
  unfold arbReadClaims; split <;> exact answerTo_quiet ..

theorem monReadOutput_quiet (who : Requester) (out : Nat) (h : Hub) : h.Quiet (monReadOutput who out h) := by
  unfold monReadOutput; split <;> exact answerTo_quiet ..

theorem lnkReadLink_quiet (who : Requester) (link : Nat) (h : Hub) : h.Quiet (lnkReadLink who link h) := by
  unfold lnkReadLink; split <;> exact answerTo_quiet ..

theorem hlmReadHealth_quiet (who : Requester) (link : Nat) (h : Hub) : h.Quiet (hlmReadHealth who link h) := by
  unfold hlmReadHealth; split <;> exact answerTo_quiet ..

theorem hlmLaneTestStop_quiet (who : Requester) (link : Nat) (h : Hub) : h.Quiet (hlmLaneTestStop who link h) := by
  unfold hlmLaneTestStop
  split
  · exact answerTo_quiet ..
  · next d _ =>
    split
    · refine (testComplete_quiet d h).trans ?_
      dsimp only
      split
      · exact answerTo_quiet ..
      · next t test =>
        split
        · exact (setTestStatus_quiet test _).trans (answerTo_quiet ..)
        · exact answerTo_quiet ..
    · exact answerTo_quiet ..

/-! ## The panel port -/

theorem closeTxn_quiet (t : Txn) (out : List Byte) (h : Hub) : h.Quiet (closeTxn t out h) := .pnl _ id

theorem setRejected_quiet (b : Bool) (h : Hub) : h.Quiet (setRejected b h) := .pnl _ id

theorem readNotice_quiet (clocked : Nat) (h : Hub) : h.Quiet (readNotice clocked h) := by
  unfold readNotice
  dsimp only
  repeat' split
  · exact closeTxn_quiet ..
  · refine (closeTxn_quiet ..).trans (.pnl _ fun ⟨notices, count⟩ => ⟨?_, count⟩)
    exact (List.tail_sublist _).length_le.trans notices
  · exact closeTxn_quiet ..

theorem pnlReadNotices_quiet (who : Requester) (flush : Nat) (h : Hub) : h.Quiet (pnlReadNotices who flush h) := by
  unfold pnlReadNotices
  split
  · exact answerTo_quiet ..
  · refine .trans (.pnl _ fun ⟨notices, _⟩ => ?_) (answerTo_quiet ..)
    split
    · exact ⟨Nat.zero_le _, Nat.zero_le _⟩
    · exact ⟨notices, Nat.zero_le _⟩

/-! ## The frames sent (R166) -/

theorem DeskPort.send_fits (p : DeskPort) (m : Tx) :
    (p.notices.length ≤ 8 → (p.send m).2.notices.length ≤ 8) ∧ (p.send m).2.asm = p.asm := by
  unfold DeskPort.send
  split
  · exact ⟨id, rfl⟩
  · dsimp only
    split
    · exact ⟨id, rfl⟩
    · exact ⟨fun b => (List.tail_sublist _).length_le.trans b, rfl⟩
  · exact ⟨id, rfl⟩

theorem DeskPort.nextCell_fits (p : DeskPort) :
    (p.notices.length ≤ 8 → p.nextCell.2.notices.length ≤ 8) ∧ p.nextCell.2.asm = p.asm := by
  unfold DeskPort.nextCell
  repeat' split
  · exact p.send_fits _
  · exact ⟨id, rfl⟩
  · exact p.send_fits _

theorem sendFrames_quiet (ports : PortSamples) (h : Hub) : h.Quiet (sendFrames ports h) := by
  refine .foldl (fun h d => ?_) _ h
  obtain ⟨notices, asm⟩ := (h.req.desks.get d).nextCell_fits
  exact .trans (.setDesk d _ notices (by rw [asm]; exact id)) .same

theorem tellBadRegion_quiet (r : RegionName) (h : Hub) : h.Quiet (tellBadRegion r h) := by
  unfold tellBadRegion
  split
  · exact .refl h
  · exact notifyAll_quiet _ h

theorem outputSamples_quiet (h : Hub) : h.Quiet (outputSamples h) := by unfold outputSamples; exact .same

theorem clearPrepare_quiet (who : Requester) (c : Call) (h : Hub) : h.Quiet (clearPrepare who c h) := by
  unfold clearPrepare
  split
  · exact .same
  · exact .refl h

theorem arrivalHold_quiet (who : Requester) (n : Nat) (h : Hub) : h.Quiet (arrivalHold who n h) := by
  unfold arrivalHold
  split
  · exact .refl h
  · exact .setDesk _ _ id id

end Sys2Proof.Machine
end

/-!
What the requests and timers of ARB do to the claim table, said once: the record of each resource and the outcomes that
the pending claims take, for CLAIM, RELEASE, OVERRIDE and the decision of resolve windows (R43 to R52, R57).
-/
section
namespace Sys2Proof.Machine

/-! ## Named resources -/

theorem res?_inj {m n : Nat} {r : Res} (hm : res? m = some r) (hn : res? n = some r) : m = n := by
  simp only [res?] at hm hn
  split at hm <;> split at hn <;> simp_all
  have := congrArg Fin.val (hm.trans hn.symm)
  simp at this
  omega

/-- A list of resources in range names 1 to 16, each once (R43, R49, R50). -/
theorem resources?_some {ns : List Nat} {rs : List Res} (e : resources? ns = some rs) :
    rs.length ≤ 16 ∧ rs.Nodup := by
  unfold resources? at e
  split at e
  · next c =>
    obtain ⟨-, size, apart⟩ := c
    have items := all?_some e
    have len : ns.length = rs.length := by simpa using congrArg List.length items
    refine ⟨len ▸ size, ?_⟩
    have nodup : (rs.map some).Nodup := by
      rw [← items]
      refine List.Nodup.map_on (fun m hm n _ eq => ?_) ((distinct_iff ns).1 apart)
      obtain ⟨r, -, hr⟩ := List.mem_map.1 (items ▸ List.mem_map_of_mem hm : res? m ∈ rs.map some)
      exact res?_inj hr.symm (eq ▸ hr.symm)
    exact nodup.of_map
  · cases e

/-! ## Outcomes of pending claims -/

/-- A pending claim with the outcomes that an event gives its undecided resources (R47). -/
def takeOutcomes (f : Res → Option Code) (pc : PendingClaim) : PendingClaim := pc.map fun e => (e.1, e.2.or (f e.1))

@[simp] theorem takeOutcomes_length (f : Res → Option Code) (pc : PendingClaim) : (takeOutcomes f pc).length = pc.length := by
  simp [takeOutcomes]

@[simp] theorem takeOutcomes_none : takeOutcomes (fun _ => none) = id := by
  funext pc
  simp [takeOutcomes]

theorem takeOutcomes_comp (f g : Res → Option Code) (pc : PendingClaim) :
    takeOutcomes g (takeOutcomes f pc) = takeOutcomes (fun r => (f r).or (g r)) pc := by
  simp [takeOutcomes, Option.or_assoc]

/-- The requester has an entry in a contender list. -/
def contends (who : Requester) (cs : List (Requester × Level)) : Bool := cs.any fun e => decide (e.1 = who)

theorem contends_iff {who : Requester} {cs : List (Requester × Level)} : contends who cs = true ↔ ∃ e ∈ cs, e.1 = who := by
  simp [contends]

@[simp] theorem contends_nil (who : Requester) : contends who [] = false := rfl

@[simp] theorem contends_cons (who : Requester) (c : Requester × Level) (cs : List (Requester × Level)) :
    contends who (c :: cs) = (decide (c.1 = who) || contends who cs) := rfl

/-- An event of the claim table: what each record becomes, and the outcome that each requester's pending claim takes for
each resource. -/
structure Arb.Moves (x y : Arb) (record : Res → Claim) (outcome : Requester → Res → Option Code) : Prop where
  claim : ∀ r, y.claim r = record r
  pending : ∀ who, y.pendingClaims.get who = (x.pendingClaims.get who).map (takeOutcomes (outcome who))
  frozen : y.frozen = x.frozen

@[simp] theorem Arb.setOutcome_claim (x : Arb) (who : Requester) (r q : Res) (code : Code) :
    (x.setOutcome who r code).claim q = x.claim q := rfl

@[simp] theorem Arb.setOutcome_frozen (x : Arb) (who : Requester) (r : Res) (code : Code) :
    (x.setOutcome who r code).frozen = x.frozen := rfl

theorem Arb.setOutcome_pending (x : Arb) (who y : Requester) (r : Res) (code : Code) :
    (x.setOutcome who r code).pendingClaims.get y =
      (x.pendingClaims.get y).map (takeOutcomes fun q => if y = who ∧ q = r then some code else none) := by
  unfold Arb.setOutcome
  rw [PerReq.get_set]
  by_cases same : y = who
  · subst same
    simp only [if_true, true_and]
    refine congrArg (Option.map · _) (funext fun pc => List.map_congr_left fun e _ => ?_)
    obtain ⟨q, o⟩ := e
    cases o <;> by_cases named : q = r <;> simp [named]
  · simp [same]

/-- The contenders of a record take an outcome each, by a rule that gives a requester one code (R47, R51). -/
theorem Arb.foldl_setOutcome (code : Requester → Code) (r : Res) (cs : List (Requester × Level)) : ∀ (x : Arb),
    let y := cs.foldl (fun y e => y.setOutcome e.1 r (code e.1)) x
    (∀ q, y.claim q = x.claim q) ∧ y.frozen = x.frozen ∧ ∀ who, y.pendingClaims.get who =
      (x.pendingClaims.get who).map (takeOutcomes fun q =>
        if q = r ∧ contends who cs = true then some (code who) else none) := by
  induction cs with
  | nil => intro x; simp
  | cons c cs ih =>
    intro x
    obtain ⟨claims, frozen, pending⟩ := ih (x.setOutcome c.1 r (code c.1))
    refine ⟨claims, frozen, fun who => ?_⟩
    rw [List.foldl_cons, pending, Arb.setOutcome_pending, Option.map_map]
    refine congrArg (Option.map · _) (funext fun pc => ?_)
    rw [Function.comp, takeOutcomes_comp]
    refine congrArg (takeOutcomes · pc) (funext fun q => ?_)
    by_cases first : who = c.1
    · subst first; by_cases named : q = r <;> simp [named]
    · simp [first, Ne.symm first]

/-! ## CLAIM and RELEASE -/

/-- The records of a CLAIM, each resource named once (R43, Table 3-4). -/
theorem claimEach_moves (now : Frame) (window : Nat) (who : Requester) (l : Level) {rs : List Res} (nodup : rs.Nodup) :
    ∀ (x : Arb), x.Moves (claimEach now window who l rs x).1
        (fun r => if r ∈ rs then (claimRecord now window who l (x.claim r)).1 else x.claim r) (fun _ _ => none) ∧
      (claimEach now window who l rs x).2 = rs.map fun r => (r, (claimRecord now window who l (x.claim r)).2) := by
  induction rs with
  | nil => exact fun x => ⟨⟨fun r => by simp [claimEach], fun who => by simp [claimEach], rfl⟩, rfl⟩
  | cons r rs ih =>
    intro x
    obtain ⟨new, rest⟩ := List.nodup_cons.1 nodup
    obtain ⟨⟨claim, pending, frozen⟩, outcomes⟩ :=
      ih rest (x.setClaim r (claimRecord now window who l (x.claim r)).1)
    refine ⟨⟨fun q => (claim q).trans ?_, pending, frozen⟩, ?_⟩
    · by_cases first : q = r
      · subst first; simp [new]
      · simp [first]
    · refine (congrArg (List.cons _) outcomes).trans ?_
      rw [List.map_cons]
      refine congrArg (List.cons _) (List.map_congr_left fun q hq => ?_)
      rw [Arb.claim_setClaim, if_neg fun e : q = r => new (e ▸ hq)]

/-- The records of a RELEASE, each resource named once (R49). -/
theorem releaseEach_moves (who : Requester) {rs : List Res} (nodup : rs.Nodup) : ∀ (x : Arb),
    x.Moves (releaseEach who rs x).1 (fun r => if r ∈ rs then (releaseRecord who (x.claim r)).1 else x.claim r)
        (fun _ _ => none) ∧
      (releaseEach who rs x).2 = rs.map fun r => (releaseRecord who (x.claim r)).2 := by
  induction rs with
  | nil => exact fun x => ⟨⟨fun r => by simp [releaseEach], fun who => by simp [releaseEach], rfl⟩, rfl⟩
  | cons r rs ih =>
    intro x
    obtain ⟨new, rest⟩ := List.nodup_cons.1 nodup
    obtain ⟨⟨claim, pending, frozen⟩, outcomes⟩ := ih rest (x.setClaim r (releaseRecord who (x.claim r)).1)
    refine ⟨⟨fun q => (claim q).trans ?_, pending, frozen⟩, ?_⟩
    · by_cases first : q = r
      · subst first; simp [new]
      · simp [first]
    · refine (congrArg (List.cons _) outcomes).trans ?_
      rw [List.map_cons]
      refine congrArg (List.cons _) (List.map_congr_left fun q hq => ?_)
      rw [Arb.claim_setClaim, if_neg fun e : q = r => new (e ▸ hq)]

/-! ## OVERRIDE -/

/-- What an OVERRIDE takes from former holders, by the records as found (R52). -/
def overrideLost (who : Requester) (x : Arb) (rs : List Res) : List (Requester × Res) :=
  rs.flatMap fun r => (overrideRecord who (x.claim r)).2.2.toList.map fun f => (f, r)

theorem mem_overrideLost {who f : Requester} {x : Arb} {rs : List Res} {r : Res} :
    (f, r) ∈ overrideLost who x rs ↔ r ∈ rs ∧ (overrideRecord who (x.claim r)).2.2 = some f := by
  simp only [overrideLost, List.mem_flatMap, List.mem_map, Option.mem_toList, Prod.mk.injEq]
  constructor
  · rintro ⟨q, hq, g, hg, rfl, rfl⟩
    exact ⟨hq, hg⟩
  · rintro ⟨hr, hf⟩
    exact ⟨r, hr, f, hf, rfl, rfl⟩

/-- The outcome that an OVERRIDE gives a contender of a resource it takes (R51). -/
def overrideOutcome (x : Arb) (rs : List Res) (who : Requester) (r : Res) : Option Code :=
  if r ∈ rs ∧ contends who (x.claim r).contenders = true then some .lostArbitration else none

/-- The records of an OVERRIDE, each resource named once (R50 to R52, Table 3-5). -/
theorem overrideEach_moves (who : Requester) {rs : List Res} (nodup : rs.Nodup) : ∀ (x : Arb),
    x.Moves (overrideEach who rs x).1 (fun r => if r ∈ rs then (overrideRecord who (x.claim r)).1 else x.claim r)
        (overrideOutcome x rs) ∧
      (overrideEach who rs x).2.1 = rs.map (fun r => (overrideRecord who (x.claim r)).2.1) ∧
      (overrideEach who rs x).2.2 = overrideLost who x rs := by
  induction rs with
  | nil =>
    exact fun x => ⟨⟨fun r => by simp [overrideEach], fun who => by
      have idle : overrideOutcome x [] who = fun _ => none := by funext r; simp [overrideOutcome]
      simp [overrideEach, idle], rfl⟩, rfl, rfl⟩
  | cons r rs ih =>
    intro x
    obtain ⟨new, rest⟩ := List.nodup_cons.1 nodup
    let x0 := x.setClaim r (overrideRecord who (x.claim r)).1
    let x1 := (x.claim r).contenders.foldl (fun y e => y.setOutcome e.1 r .lostArbitration) x0
    obtain ⟨claims1, frozen1, pending1⟩ : (∀ q, x1.claim q = x0.claim q) ∧ x1.frozen = x0.frozen ∧ _ :=
      Arb.foldl_setOutcome (fun _ => .lostArbitration) r (x.claim r).contenders x0
    have other {q : Res} (hq : q ∈ rs) : x1.claim q = x.claim q := by
      rw [claims1, Arb.claim_setClaim, if_neg fun e : q = r => new (e ▸ hq)]
    obtain ⟨⟨claim, pending, frozen⟩, outcomes, lost⟩ := ih rest x1
    refine ⟨⟨fun q => (claim q).trans ?_, fun y => (pending y).trans ?_, frozen.trans frozen1⟩, ?_, ?_⟩
    · by_cases first : q = r
      · subst first; simp [new, claims1, x0]
      · by_cases named : q ∈ rs <;> simp [named, first, other, claims1, x0]
    · rw [show x1.pendingClaims.get y = _ from pending1 y, Option.map_map]
      refine congrArg (Option.map · _) (funext fun pc => ?_)
      rw [Function.comp, takeOutcomes_comp]
      refine congrArg (takeOutcomes · pc) (funext fun q => ?_)
      unfold overrideOutcome
      by_cases first : q = r
      · subst first; simp [new]
      · by_cases named : q ∈ rs <;> simp [named, first, other]
    · refine (congrArg (List.cons _) outcomes).trans ?_
      rw [List.map_cons]
      exact congrArg (List.cons _) (List.map_congr_left fun q hq => by rw [other hq])
    · show _ ++ (overrideEach who rs x1).2.2 = _
      rw [lost]
      unfold overrideLost
      rw [List.flatMap_cons]
      exact congrArg (_ ++ ·) (List.flatMap_congr fun q hq => by rw [other hq])

/-! ## Resolve windows (R47) -/

/-- The winner of the contest for a record. -/
def Claim.winner (priority : PerReq Nat) (c : Claim) : Option (Requester × Level) := winnerOf priority c.contenders

/-- A record decided: a contended one goes to its winner. -/
def Claim.decided (priority : PerReq Nat) (c : Claim) : Claim :=
  match c.winner priority with
  | none => c
  | some (w, l) => .held w l

/-- The outcome that the decision of a record gives a requester's pending claim. -/
def Claim.outcome (priority : PerReq Nat) (c : Claim) (who : Requester) : Option Code :=
  match c.winner priority with
  | none => none
  | some (w, _) =>
    if contends who c.contenders then some (if who = w then .done else .lostArbitration) else none

theorem Arb.decide_moves (x : Arb) (priority : PerReq Nat) (r : Res) :
    x.Moves (x.decide priority r) (fun q => if q = r then (x.claim r).decided priority else x.claim q)
      (fun who q => if q = r then (x.claim r).outcome priority who else none) := by
  have idle (none_ : (x.claim r).winner priority = none) (same : x.decide priority r = x) :
      x.Moves (x.decide priority r) (fun q => if q = r then (x.claim r).decided priority else x.claim q)
        (fun who q => if q = r then (x.claim r).outcome priority who else none) := by
    rw [same]
    refine ⟨fun q => ?_, fun who => ?_, rfl⟩
    · by_cases first : q = r
      · subst first; simp [Claim.decided, none_]
      · simp [first]
    · simp [Claim.outcome, none_]
  cases e : x.claim r with
  | opened | held | orphaned =>
    rw [← e]
    exact idle (by simp [e, Claim.winner, Claim.contenders, winnerOf]) (by simp [Arb.decide, e])
  | contended t cs =>
    cases won : winnerOf priority cs with
    | none =>
      rw [← e]
      exact idle (by simp [e, Claim.winner, Claim.contenders, won]) (by simp [Arb.decide, e, won])
    | some p =>
      obtain ⟨w, l⟩ := p
      have winner : (Claim.contended t cs).winner priority = some (w, l) := won
      obtain ⟨claims, frozen, pending⟩ := Arb.foldl_setOutcome (fun y => if y = w then .done else .lostArbitration) r cs
        (x.setClaim r (.held w l))
      have decided : x.decide priority r = cs.foldl (fun y e => y.setOutcome e.1 r (if e.1 = w then .done else .lostArbitration))
          (x.setClaim r (.held w l)) := by simp_all [Arb.decide]
      rw [decided]
      refine ⟨fun q => (claims q).trans ?_, fun who => (pending who).trans ?_, frozen⟩
      · simp [Claim.decided, winner]
      · refine congrArg (Option.map · _) (funext fun pc => congrArg (takeOutcomes · pc) (funext fun q => ?_))
        by_cases first : q = r
        · by_cases own : contends who cs = true <;> simp [first, own, Claim.outcome, winner, Claim.contenders]
        · simp [first]

/-- Records decided one after another, each once. -/
theorem Arb.foldl_decide (priority : PerReq Nat) {rs : List Res} (nodup : rs.Nodup) : ∀ (x : Arb),
    x.Moves (rs.foldl (fun y r => y.decide priority r) x)
      (fun r => if r ∈ rs then (x.claim r).decided priority else x.claim r)
      (fun who r => if r ∈ rs then (x.claim r).outcome priority who else none) := by
  induction rs with
  | nil => exact fun x => ⟨fun r => by simp, fun who => by simp, rfl⟩
  | cons r rs ih =>
    intro x
    obtain ⟨new, rest⟩ := List.nodup_cons.1 nodup
    obtain ⟨claim1, pending1, frozen1⟩ := x.decide_moves priority r
    obtain ⟨claim, pending, frozen⟩ := ih rest (x.decide priority r)
    have other {q : Res} (hq : q ∈ rs) : (x.decide priority r).claim q = x.claim q := by
      rw [claim1, if_neg fun e : q = r => new (e ▸ hq)]
    refine ⟨fun q => (claim q).trans ?_, fun who => (pending who).trans ?_, frozen.trans frozen1⟩
    · by_cases first : q = r
      · subst first; simp [new, claim1]
      · by_cases named : q ∈ rs <;> simp [named, first, other, claim1]
    · rw [pending1, Option.map_map]
      refine congrArg (Option.map · _) (funext fun pc => ?_)
      rw [Function.comp, takeOutcomes_comp]
      refine congrArg (takeOutcomes · pc) (funext fun q => ?_)
      by_cases first : q = r
      · subst first; simp [new]
      · by_cases named : q ∈ rs <;> simp [named, first, other]

/-- Every record that a test picks decided (R47, R57). -/
theorem Arb.decideAll_moves (x : Arb) (priority : PerReq Nat) (pick : Claim → Bool) :
    x.Moves (x.decideAll priority pick) (fun r => if pick (x.claim r) then (x.claim r).decided priority else x.claim r)
      (fun who r => if pick (x.claim r) then (x.claim r).outcome priority who else none) := by
  have moves := Arb.foldl_decide priority ((List.nodup_finRange 104).filter fun r => pick (x.claim r)) x
  unfold Arb.decideAll
  simpa only [List.mem_filter, List.mem_finRange, true_and] using moves

end Sys2Proof.Machine
end

/-!
The operations of the claims and the links that keep the capacities and the claim records: the requests and timers of ARB,
what a link event hands to ARB (R53, R55), and every change of a link's lanes or record.
-/
section
namespace Sys2Proof.Machine

/-! ## One entry a requester (R44) -/

theorem joinContest_nodup {cs : List (Requester × Level)} {who : Requester} {l : Level}
    (nodup : (cs.map Prod.fst).Nodup) : ((joinContest cs who l).map Prod.fst).Nodup := by
  unfold joinContest
  split
  · have same : (cs.map fun e => if e.1 = who then (who, l) else e).map Prod.fst = cs.map Prod.fst := by
      rw [List.map_map]
      refine List.map_congr_left fun e _ => ?_
      by_cases own : e.1 = who <;> simp [own]
    rwa [same]
  · next absent =>
    rw [List.map_append, List.map_cons, List.map_nil, ← List.concat_eq_append]
    refine nodup.concat fun listed => absent ?_
    obtain ⟨e, he, own⟩ := List.mem_map.1 listed
    exact List.any_eq_true.2 ⟨e, he, decide_eq_true own⟩

/-- A claim record with one contender entry a requester. -/
abbrev Claim.Bounded (c : Claim) : Prop := (c.contenders.map Prod.fst).Nodup

theorem claimRecord_bounded {now : Frame} {window : Nat} {who : Requester} {l : Level} {c : Claim} (b : c.Bounded) :
    (claimRecord now window who l c).1.Bounded := by
  unfold claimRecord
  split
  · split
    · exact List.nodup_nil
    · exact List.nodup_singleton who
  · exact joinContest_nodup b
  · split
    · exact List.nodup_nil
    · split <;> exact List.nodup_nil
  · exact b

theorem releaseRecord_bounded {who : Requester} {c : Claim} (b : c.Bounded) : (releaseRecord who c).1.Bounded := by
  unfold releaseRecord
  split
  · split <;> exact List.nodup_nil
  all_goals exact b

theorem overrideRecord_bounded {who : Requester} {c : Claim} (b : c.Bounded) : (overrideRecord who c).1.Bounded := by
  cases c with
  | opened | contended => exact List.nodup_nil
  | held h l =>
    dsimp only [overrideRecord]
    split
    · exact List.nodup_nil
    · cases l <;> exact List.nodup_nil
  | orphaned d l t => cases l <;> exact List.nodup_nil

theorem Claim.decided_bounded {priority : PerReq Nat} {c : Claim} (b : c.Bounded) : (c.decided priority).Bounded := by
  unfold Claim.decided
  split
  · exact b
  · exact List.nodup_nil

theorem Claim.teardown_bounded {d : Desk} {grace : Option Frame} {c : Claim} (b : c.Bounded) :
    (c.teardown d grace).Bounded := by
  unfold Claim.teardown
  split
  · next t cs =>
    have left : ((cs.filter fun e => !decide (e.1 = d.req)).map Prod.fst).Nodup := b.sublist (List.filter_sublist.map _)
    split
    · exact List.nodup_nil
    · next e => rwa [e] at left
  · split <;> exact List.nodup_nil
  all_goals exact b

theorem Claim.bounded_of_key {c c' : Claim} (same : c'.contenders = c.contenders) (b : c.Bounded) : c'.Bounded := by
  rwa [Claim.Bounded, same]

/-- A claim table whose records are bounded and whose pending claims are those of another, or fewer. -/
theorem Arb.Bounded.of {x y : Arb} (b : x.Bounded) (claims : ∀ r, (x.claim r).Bounded → (y.claim r).Bounded)
    (pending : ∀ who pc, y.pendingClaims.get who = some pc →
      pc.length ≤ 16 ∨ ∃ pc', x.pendingClaims.get who = some pc' ∧ pc.length = pc'.length) : y.Bounded := by
  obtain ⟨records, waiting⟩ := b
  refine ⟨fun r => claims r (records r), fun who pc e => ?_⟩
  rcases pending who pc e with size | ⟨pc', e', size⟩
  · exact size
  · rw [size]; exact waiting who pc' e'

theorem Arb.Moves.bounded {x y : Arb} {record : Res → Claim} {outcome : Requester → Res → Option Code}
    (m : x.Moves y record outcome) (records : ∀ r, (x.claim r).Bounded → (record r).Bounded) (b : x.Bounded) : y.Bounded := by
  refine b.of (fun r => m.claim r ▸ records r) fun who pc e => .inr ?_
  rw [m.pending, Option.map_eq_some_iff] at e
  obtain ⟨pc', e', rfl⟩ := e
  exact ⟨pc', e', takeOutcomes_length ..⟩

/-! ## Records in agreement with the freeze and the links -/

/-- The claim table is no part of a link. -/
theorem Hub.linkUp_arb (h : Hub) (x : Arb) (d : Desk) : Hub.linkUp { h with arb := x } d = h.linkUp d := rfl

theorem Claim.Ok.with_arb {h : Hub} {c : Claim} (ok : c.Ok h) {x : Arb} (frozen : x.frozen = h.arb.frozen) :
    c.Ok { h with arb := x } :=
  ok.of_same frozen fun d => (Hub.linkUp_arb h x d).trans

/-- A new claim table whose records agree takes effect. -/
theorem Hub.Keeps.arb {h : Hub} {x : Arb} (bound : h.arb.Bounded → x.Bounded)
    (ok : h.ClaimsOk → ∀ r, (x.claim r).Ok { h with arb := x }) : h.Keeps { h with arb := x } :=
  ⟨.arb bound, ok⟩

/-- The table of an event that leaves the show freeze, its records each in agreement. -/
theorem Hub.Keeps.moves {h : Hub} {x : Arb} {record : Res → Claim} {outcome : Requester → Res → Option Code}
    (m : h.arb.Moves x record outcome) (bounded : ∀ r, (h.arb.claim r).Bounded → (record r).Bounded)
    (ok : ∀ r, (h.arb.claim r).Ok h → (record r).Ok h) : h.Keeps { h with arb := x } := by
  refine .arb (m.bounded bounded) fun c r => ?_
  have agreed := ok r (c r)
  rw [m.claim]
  exact agreed.with_arb m.frozen

theorem joinContest_ne_nil (cs : List (Requester × Level)) (who : Requester) (l : Level) : joinContest cs who l ≠ [] := by
  unfold joinContest
  split
  · next any => cases cs <;> simp_all
  · simp

theorem claimRecord_ok {h : Hub} {now : Frame} {window : Nat} {who : Requester} {l : Level} {c : Claim}
    (clear : h.arb.frozen = false) (ok : c.Ok h) : (claimRecord now window who l c).1.Ok h := by
  unfold claimRecord
  split
  · split
    · trivial
    · exact ⟨List.cons_ne_nil _ _, clear⟩
  · exact ⟨joinContest_ne_nil _ _ _, clear⟩
  · split
    · trivial
    · split <;> trivial
  · exact ok

theorem releaseRecord_ok {h : Hub} {who : Requester} {c : Claim} (ok : c.Ok h) : (releaseRecord who c).1.Ok h := by
  unfold releaseRecord
  split
  · split <;> trivial
  all_goals exact ok

theorem overrideRecord_ok {h : Hub} {who : Requester} {c : Claim} (ok : c.Ok h) : (overrideRecord who c).1.Ok h := by
  cases c with
  | opened | contended => trivial
  | held w l =>
    dsimp only [overrideRecord]
    split
    · trivial
    · cases l <;> trivial
  | orphaned d l t =>
    cases l with
    | shared => trivial
    | exclusive => exact ok

theorem Claim.decided_ok {h : Hub} {priority : PerReq Nat} {c : Claim} (ok : c.Ok h) : (c.decided priority).Ok h := by
  unfold Claim.decided
  split
  · exact ok
  · trivial

/-! ## Requests and timers of ARB -/

theorem commitClaims_keeps {h : Hub} {x : Arb} (k : h.Keeps { h with arb := x }) : h.Keeps (commitClaims x h) :=
  k.trans (notifyEach_quiet _ _).keeps

theorem answerClaim_keeps (h : Hub) (who : Requester) : h.Keeps (answerClaim h who) := by
  unfold answerClaim
  split
  · exact .refl h
  · split
    · refine .trans ?_ (answerTo_quiet ..).keeps
      refine .arb (fun b => b.of (fun _ => id) fun y pc e => .inr ?_) fun c => c
      rw [PerReq.get_set] at e
      split at e
      · cases e
      · exact ⟨pc, e, rfl⟩
    · exact .refl h

theorem answerClaims_keeps (h : Hub) : h.Keeps (answerClaims h) := .foldl answerClaim_keeps _ h

theorem arbClaim_keeps (who : Requester) (ns : List Nat) (l : Nat) (h : Hub) : h.Keeps (arbClaim who ns l h) := by
  unfold arbClaim
  split
  · next rs l named _ =>
    split
    · exact (answerTo_quiet ..).keeps
    · next clear =>
      obtain ⟨size, nodup⟩ := resources?_some named
      obtain ⟨moves, outcomes⟩ := claimEach_moves h.now h.sto.install.windowFrames who l nodup h.arb
      have table : h.Keeps { h with arb := (claimEach h.now h.sto.install.windowFrames who l rs h.arb).1 } := by
        refine .moves moves (fun r b => ?_) fun r ok => ?_
        · split
          · exact claimRecord_bounded b
          · exact b
        · split
          · exact claimRecord_ok (by simpa using clear) ok
          · exact ok
      refine .trans (commitClaims_keeps (table.trans ?_)) (answerClaims_keeps _)
      refine .arb (fun b => b.of (fun _ => id) fun y pc e => ?_) fun c => c
      rw [PerReq.get_set] at e
      split at e
      · cases e
        left
        rwa [outcomes, List.length_map]
      · exact .inr ⟨pc, e, rfl⟩
  · exact (answerTo_quiet ..).keeps

theorem arbRelease_keeps (who : Requester) (ns : List Nat) (h : Hub) : h.Keeps (arbRelease who ns h) := by
  unfold arbRelease
  split
  · exact (answerTo_quiet ..).keeps
  · next rs named =>
    split
    · exact (answerTo_quiet ..).keeps
    · obtain ⟨-, nodup⟩ := resources?_some named
      refine .trans (commitClaims_keeps (.moves (releaseEach_moves who nodup h.arb).1 (fun r b => ?_) fun r ok => ?_))
        (answerTo_quiet ..).keeps
      · split
        · exact releaseRecord_bounded b
        · exact b
      · split
        · exact releaseRecord_ok ok
        · exact ok

theorem claimLostTo_quiet (who : Requester) (lost : List (Requester × Res)) (h : Hub) (f : Requester) :
    h.Quiet (claimLostTo who lost h f) := by
  unfold claimLostTo
  dsimp only
  split
  · exact .refl h
  · exact notifyRequester_quiet ..

theorem arbOverride_keeps (who : Requester) (ns : List Nat) (h : Hub) : h.Keeps (arbOverride who ns h) := by
  unfold arbOverride
  split
  · exact (answerTo_quiet ..).keeps
  · next rs named =>
    split
    · exact (answerTo_quiet ..).keeps
    · split
      · exact (answerTo_quiet ..).keeps
      · obtain ⟨-, nodup⟩ := resources?_some named
        have table : h.Keeps (commitClaims (overrideEach who rs h.arb).1 h) := by
          refine commitClaims_keeps (.moves (overrideEach_moves who nodup h.arb).1 (fun r b => ?_) fun r ok => ?_)
          · split
            · exact overrideRecord_bounded b
            · exact b
          · split
            · exact overrideRecord_ok ok
            · exact ok
        refine ((table.trans ?_).trans (answerClaims_keeps _)).trans (answerTo_quiet ..).keeps
        exact (Hub.Quiet.foldl (claimLostTo_quiet who _) _ _).keeps

theorem decideAll_keeps (h : Hub) (pick : Claim → Bool) :
    h.Keeps { h with arb := h.arb.decideAll h.sto.install.priority pick } := by
  refine .moves (Arb.decideAll_moves _ _ pick) (fun r b => ?_) fun r ok => ?_
  · split
    · exact Claim.decided_bounded b
    · exact b
  · split
    · exact Claim.decided_ok ok
    · exact ok

theorem windowExpiry_keeps (h : Hub) : h.Keeps (windowExpiry h) :=
  (commitClaims_keeps (decideAll_keeps h _)).trans (answerClaims_keeps _)

theorem graceExpiry_keeps (d : Desk) (h : Hub) : h.Keeps (graceExpiry d h) := by
  refine commitClaims_keeps (.moves (outcome := fun _ _ => none) ⟨fun r => Tbl.get_of _ r, fun who => by simp, rfl⟩
    (fun r b => ?_) fun r ok => ?_)
  · refine Claim.bounded_of_key ?_ b
    cases h.arb.claim r <;> simp only [Claim.graceOver]
    split <;> rfl
  · cases e : h.arb.claim r <;> rw [e] at ok <;> simp only [Claim.graceOver]
    · trivial
    · exact ok
    · trivial
    · split
      · trivial
      · exact ok

/-- The winner of a contest that has a contender. -/
theorem winnerOf_some (priority : PerReq Nat) {cs : List (Requester × Level)} (some_ : cs ≠ []) :
    ∃ w, winnerOf priority cs = some w := by
  cases cs with
  | nil => exact absurd rfl some_
  | cons e es =>
    unfold winnerOf
    split
    · exact ⟨_, rfl⟩
    · split <;> exact ⟨_, rfl⟩

/-- A record that agrees is not contended once it is decided. -/
theorem Claim.decided_state {h : Hub} {priority : PerReq Nat} {c : Claim} (ok : c.Ok h) :
    (c.decided priority).state ≠ .contended := by
  cases c with
  | contended t cs =>
    obtain ⟨⟨w, l⟩, won⟩ := winnerOf_some priority ok.1
    have winner : (Claim.contended t cs).winner priority = some (w, l) := won
    simp [Claim.decided, winner, Claim.state]
  | opened | held | orphaned =>
    simp [Claim.decided, Claim.winner, Claim.contenders, winnerOf, Claim.state]

theorem answerClaim_arb (h : Hub) (who : Requester) :
    (answerClaim h who).arb.claims = h.arb.claims ∧ (answerClaim h who).arb.frozen = h.arb.frozen := by
  unfold answerClaim
  split
  · exact ⟨rfl, rfl⟩
  · split
    · rw [(answerTo_quiet ..).arb]; exact ⟨rfl, rfl⟩
    · exact ⟨rfl, rfl⟩

/-- Answering pending claims leaves the records and the freeze. -/
theorem answerClaims_arb (h : Hub) :
    (answerClaims h).arb.claims = h.arb.claims ∧ (answerClaims h).arb.frozen = h.arb.frozen := by
  simp [answerClaims, Requester.all, answerClaim_arb]

theorem answerClaims_claim (h : Hub) (r : Res) : (answerClaims h).arb.claim r = h.arb.claim r := by
  rw [Arb.claim, (answerClaims_arb h).1]
  rfl

@[simp] theorem commitClaims_arb (x : Arb) (h : Hub) : (commitClaims x h).arb = x := (notifyEach_quiet _ _).arb

/-- FREEZE decides every contest, so that none stands under the freeze, and removes the grace deadlines (R57). -/
theorem arbFreeze_keeps (who : Requester) (h : Hub) : h.Keeps (arbFreeze who h) := by
  unfold arbFreeze
  split
  · exact (answerTo_quiet ..).keeps
  · split
    · exact (answerTo_quiet ..).keeps
    · have decided := (commitClaims_keeps (decideAll_keeps h fun _ => true)).trans (answerClaims_keeps _)
      have settled (ok : h.ClaimsOk) (r : Res) :
          ((answerClaims (commitClaims (h.arb.decideAll h.sto.install.priority fun _ => true) h)).arb.claim r).state
            ≠ .contended := by
        rw [answerClaims_claim, commitClaims_arb, (Arb.decideAll_moves ..).claim]
        exact Claim.decided_state (ok r)
      dsimp only
      generalize answerClaims (commitClaims (h.arb.decideAll h.sto.install.priority fun _ => true) h) = k at *
      refine .trans ?_ ((notifyAll_quiet ..).trans (answerTo_quiet ..)).keeps
      refine ⟨decided.toFits.trans (.arb fun b => b.of (fun r c => ?_) fun y pc e => .inr ⟨pc, e, rfl⟩), fun ok r => ?_⟩
      · refine Claim.bounded_of_key ?_ c
        simp only [Arb.claim, Tbl.get_of]
        cases Tbl.get k.arb.claims r <;> rfl
      · have agreed := decided.claims ok r
        have apart := settled ok r
        have record : Arb.claim { k.arb with claims := Tbl.of fun r => (k.arb.claim r).noGrace, frozen := true } r =
            (k.arb.claim r).noGrace := Tbl.get_of _ r
        rw [record]
        cases e : k.arb.claim r <;> rw [e] at agreed apart <;> unfold Claim.noGrace
        · trivial
        · exact absurd rfl apart
        · trivial
        · exact Claim.ok_orphaned.2 ⟨(Hub.linkUp_arb ..).trans agreed.1, by simp⟩

/-! ## Link events (R53, R55) -/

/-- The grace deadline of holds orphaned now: none under the show freeze (R53, R57). -/
def Hub.graceDeadline (h : Hub) : Option Frame :=
  if h.arb.frozen then none else some (later h.now h.sto.install.graceFrames)

/-- The claim table after a desk's teardown (R48, R53). -/
def Arb.tornDown (x : Arb) (d : Desk) (grace : Option Frame) : Arb :=
  { x with
    claims := Tbl.of fun r => (x.claim r).teardown d grace
    pendingClaims := x.pendingClaims.set d.req none }

/-- The claim table after a desk's return (R55). -/
def Arb.restored (x : Arb) (d : Desk) : Arb := { x with claims := Tbl.of fun r => (x.claim r).restore d }

/-- The notices of a desk's return (R55). -/
def restoredNotices (x : Arb) (d : Desk) : List Notice :=
  (cut 16 7 (restoredAt x d .shared)).map (Notice.claimRestored d .shared) ++
    (cut 16 7 (restoredAt x d .exclusive)).map (Notice.claimRestored d .exclusive)

theorem arbDown_eq (d : Desk) (h : Hub) : arbDown d h = commitClaims (h.arb.tornDown d h.graceDeadline) h := rfl

theorem arbUp_eq (d : Desk) (h : Hub) :
    arbUp d h = notifyEach (restoredNotices h.arb d) { h with arb := h.arb.restored d } := rfl

@[simp] theorem Arb.tornDown_claim (x : Arb) (d : Desk) (grace : Option Frame) (r : Res) :
    (x.tornDown d grace).claim r = (x.claim r).teardown d grace := Tbl.get_of _ r

@[simp] theorem Arb.tornDown_frozen (x : Arb) (d : Desk) (grace : Option Frame) :
    (x.tornDown d grace).frozen = x.frozen := by unfold Arb.tornDown; rfl

@[simp] theorem Arb.restored_frozen (x : Arb) (d : Desk) : (x.restored d).frozen = x.frozen := by
  unfold Arb.restored; rfl

@[simp] theorem Arb.restored_pending (x : Arb) (d : Desk) : (x.restored d).pendingClaims = x.pendingClaims := by
  unfold Arb.restored; rfl

theorem Arb.tornDown_pending (x : Arb) (d : Desk) (grace : Option Frame) (who : Requester) :
    (x.tornDown d grace).pendingClaims.get who = if who = d.req then none else x.pendingClaims.get who := by
  unfold Arb.tornDown
  exact PerReq.get_set ..

@[simp] theorem Arb.restored_claim (x : Arb) (d : Desk) (r : Res) : (x.restored d).claim r = (x.claim r).restore d :=
  Tbl.get_of _ r

theorem arbDown_fits (d : Desk) (h : Hub) : h.Fits (arbDown d h) := by
  rw [arbDown_eq]
  refine .trans (k := { h with arb := h.arb.tornDown d h.graceDeadline })
    (.arb fun b => b.of (fun r c => ?_) fun y pc e => .inr ?_) (notifyEach_quiet _ _).toFits
  · rw [Arb.tornDown_claim]
    exact Claim.teardown_bounded c
  · rw [Arb.tornDown_pending] at e
    split at e
    · cases e
    · exact ⟨pc, e, rfl⟩

theorem arbUp_fits (d : Desk) (h : Hub) : h.Fits (arbUp d h) := by
  rw [arbUp_eq]
  refine .trans (k := { h with arb := h.arb.restored d })
    (.arb fun b => b.of (fun r c => ?_) fun y pc e => .inr ⟨pc, ?_, rfl⟩) (notifyEach_quiet _ _).toFits
  · refine Claim.bounded_of_key ?_ c
    rw [Arb.restored_claim]
    cases h.arb.claim r <;> simp only [Claim.restore]
    split <;> rfl
  · rwa [Arb.restored_pending] at e

/-- The records after the teardown of a desk whose link is not UP (R53). -/
theorem arbDown_claims {d : Desk} {h : Hub} (down : h.linkUp d = false)
    (ok : ∀ r, (h.arb.claim r).Ok h) : (arbDown d h).ClaimsOk := by
  rw [arbDown_eq]
  refine (notifyEach_quiet _ { h with arb := h.arb.tornDown d h.graceDeadline }).keeps.claims fun r => ?_
  have agreed := ok r
  rw [Arb.tornDown_claim]
  cases e : h.arb.claim r with
  | opened => trivial
  | orphaned =>
    rw [e] at agreed
    exact agreed.with_arb (Arb.tornDown_frozen ..)
  | held w l =>
    simp only [Claim.teardown]
    split
    · refine Claim.ok_orphaned.2 ⟨(Hub.linkUp_arb ..).trans down, ?_⟩
      cases f : h.arb.frozen <;> simp [f, Hub.graceDeadline]
    · trivial
  | contended t cs =>
    rw [e] at agreed
    simp only [Claim.teardown]
    split
    · trivial
    · exact Claim.ok_contended.2 ⟨List.cons_ne_nil _ _, (Arb.tornDown_frozen ..).trans (Claim.ok_contended.1 agreed).2⟩

/-- The records after a desk's return: none of its orphans stands, and no other link has changed (R55). -/
theorem arbUp_claims {d : Desk} {h : Hub} {b : Hub} (ok : b.ClaimsOk) (arb : h.arb = b.arb)
    (other : ∀ e, e ≠ d → h.linkUp e = b.linkUp e) : (arbUp d h).ClaimsOk := by
  rw [arbUp_eq]
  refine (notifyEach_quiet _ { h with arb := h.arb.restored d }).keeps.claims fun r => ?_
  have agreed := ok r
  rw [← arb] at agreed
  rw [Arb.restored_claim]
  cases e : h.arb.claim r with
  | opened => trivial
  | held w l => trivial
  | contended t cs =>
    rw [e, Claim.ok_contended, ← arb] at agreed
    exact Claim.ok_contended.2 ⟨agreed.1, (Arb.restored_frozen ..).trans agreed.2⟩
  | orphaned o l t =>
    rw [e, Claim.ok_orphaned, ← arb] at agreed
    obtain ⟨down, grace⟩ := agreed
    simp only [Claim.restore]
    split
    · trivial
    · next apart => exact Claim.ok_orphaned.2 ⟨(Hub.linkUp_arb ..).trans ((other o apart).trans down), by rw [Arb.restored_frozen]; exact grace⟩

theorem linkEvent_fits (before : LinkState) (d : Desk) (h : Hub) : h.Fits (linkEvent before d h) := by
  have leaves (h : Hub) : h.Fits (reqLeavesUp d (tbkLeavesUp d (monLeavesUp d h))) :=
    (((monLeavesUp_quiet d h).trans (endTalk_quiet d _ _)).trans (reqLeavesUp_quiet d _)).toFits
  have down (h : Hub) : h.Fits (hlmDown d (reqDown d h)) := ((reqDown_quiet d h).trans (hlmDown_quiet d _)).toFits
  unfold linkEvent
  split
  · exact leaves h
  · exact ((arbDown_fits d h).trans (leaves _)).trans (down _)
  · exact ((arbDown_fits d h).trans (monDown_quiet _).toFits).trans (down _)
  · exact ((arbUp_fits d h).trans (commitMon_quiet ..).toFits).trans (hlmUp_quiet d _).toFits
  · exact (arbUp_fits d h).trans (commitMon_quiet ..).toFits
  all_goals exact .refl h

/-- A link event keeps the claim records in agreement: `b` is the part before the link changed. -/
theorem linkEvent_claims {b h : Hub} {d : Desk} (ok : b.ClaimsOk) (arb : h.arb = b.arb)
    (other : ∀ e, e ≠ d → h.linkUp e = b.linkUp e) : (linkEvent (b.links.get d).state d h).ClaimsOk := by
  have leaves (h : Hub) : h.Keeps (reqLeavesUp d (tbkLeavesUp d (monLeavesUp d h))) :=
    (((monLeavesUp_quiet d h).trans (endTalk_quiet d _ _)).trans (reqLeavesUp_quiet d _)).keeps
  have down (h : Hub) : h.Keeps (hlmDown d (reqDown d h)) := ((reqDown_quiet d h).trans (hlmDown_quiet d _)).keeps
  have fallen (e : (h.links.get d).state ≠ .up) : h.ClaimsOk := ok.mono arb fun x off => by
    by_cases same : x = d
    · subst same; simp [Hub.linkUp, e]
    · rwa [other x same]
  have stood (e : (b.links.get d).state = .up) : h.ClaimsOk := ok.mono arb fun x off => by
    by_cases same : x = d
    · subst same; exact absurd e (by simpa [Hub.linkUp] using off)
    · rwa [other x same]
  have notUp (e : (h.links.get d).state ≠ .up) : h.linkUp d = false := by simp [Hub.linkUp, e]
  unfold linkEvent
  split
  · next after => exact (leaves h).claims (fallen (by simp [after]))
  · next after =>
    have e : (h.links.get d).state ≠ .up := by simp [after]
    exact ((leaves _).trans (down _)).claims (arbDown_claims (notUp e) (fallen e))
  · next after =>
    have e : (h.links.get d).state ≠ .up := by simp [after]
    exact ((monDown_quiet _).keeps.trans (down _)).claims (arbDown_claims (notUp e) (fallen e))
  · exact ((commitMon_quiet ..).keeps.trans (hlmUp_quiet d _).keeps).claims (arbUp_claims ok arb other)
  · exact (commitMon_quiet ..).keeps.claims (arbUp_claims ok arb other)
  · next before _ => exact stood before
  all_goals next after => exact fallen (by simp [after])

end Sys2Proof.Machine
end

/-!
The lanes and links, requests in execution, the frame period and the power-on: every step keeps the capacities (R39 to
R181) and the claim records (R53, R55, R57).
-/
section
namespace Sys2Proof.Machine

/-! ## A change of a link settled -/

theorem resumeTest_quiet {d : Desk} {h k : Hub} (e : resumeTest d h = some k) : h.Quiet k := by
  unfold resumeTest at e
  split at e
  · cases e
  · next t test =>
    split at e
    · cases e
      refine .trans (k := h.setTest d (some { t with status := .running, leadIn := true })) (.setTest_of test rfl) ?_
      exact .setLane (.same rfl rfl rfl rfl rfl rfl)
    · cases e

/-- What a change of a link is followed by, before it is handed to the other blocks: `settleLink` but for the event. -/
theorem settleLink_told (b : Hub) (d : Desk) (first : Side) (h : Hub) :
    ∃ k, h.Quiet k ∧ settleLink b d first h = linkEvent (b.links.get d).state d k := by
  have resumed : h.Quiet ((resumeTest d h).getD h) := by
    cases e : resumeTest d h with
    | none => exact .refl h
    | some k => exact resumeTest_quiet e
  refine ⟨_, ?_, rfl⟩
  have told := ((resumed.trans (tellLaneChange_quiet b ⟨d, first⟩ _)).trans (tellLaneChange_quiet b ⟨d, first.other⟩ _)).trans
    (tellLinkChange_quiet (b.links.get d) d _)
  split
  · exact told.trans (tellTest_quiet d _)
  · exact told

/-- A change of one link, with its notices and its event, keeps the capacities and the claim records. -/
theorem settleLink_keeps {b h : Hub} {d : Desk} (fits : b.Fits h) (arb : h.arb = b.arb)
    (other : ∀ e, e ≠ d → (h.links.get e).state = (b.links.get e).state) (first : Side) :
    b.Keeps (settleLink b d first h) := by
  obtain ⟨k, told, settled⟩ := settleLink_told b d first h
  rw [settled]
  exact ⟨(fits.trans told.toFits).trans (linkEvent_fits _ d k), fun ok => linkEvent_claims ok (told.arb.trans arb)
    fun e ne => Hub.linkUp_of_state ((told.state e).trans (other e ne))⟩

/-- A link's record replaced, and settled. -/
theorem settleLink_setLink {b h : Hub} {d : Desk} {k : Link} (quiet : b.Quiet h) (fits : (h.links.get d).Fits h.now k)
    (first : Side) : b.Keeps (settleLink b d first (h.setLink d k)) :=
  settleLink_keeps (quiet.toFits.trans (.setLink fits)) quiet.arb
    (fun e ne => by rw [Hub.setLink_links, if_neg ne]; exact quiet.state e) first

/-- A change of lanes alone, settled. -/
theorem settleLink_quiet {b h : Hub} (quiet : b.Quiet h) (d : Desk) (first : Side) : b.Keeps (settleLink b d first h) :=
  settleLink_keeps quiet.toFits quiet.arb (fun e _ => quiet.state e) first

theorem switchLink_keeps (d : Desk) (old : Side) (h : Hub) : h.Keeps (switchLink d old h) :=
  settleLink_setLink (.refl h) (.switchFrom ..) old

/-! ## Health (R94 to R97) -/

theorem plannedSwitch_keeps (l : LaneId) (v : Verdict) (h : Hub) : h.Keeps (plannedSwitch l v h) := by
  unfold plannedSwitch
  split
  · exact switchLink_keeps ..
  · exact .refl h

theorem setVerdict_keeps (l : LaneId) (v : Verdict) (h : Hub) : h.Keeps (setVerdict l v h) := by
  unfold setVerdict
  dsimp only
  split
  · exact .refl h
  · refine .trans ?_ (plannedSwitch_keeps ..)
    refine .trans ?_ (notifyDeskPanel_quiet ..).keeps
    exact Hub.Quiet.keeps (.setHealth _ _ id)

theorem computeVerdict_keeps (l : LaneId) (h : Hub) : h.Keeps (computeVerdict l h) := setVerdict_keeps ..

theorem computeVerdicts_keeps (h : Hub) : h.Keeps (computeVerdicts h) := .foldl (fun h l => computeVerdict_keeps l h) _ h

/-- Counts that are added to saturate (R94). -/
theorem Health.add_bounded (x : Health) (n : PerCounter Nat) :
    Health.Bounded { x with counters := x.counters.add n } := by
  have top (n : Nat) : saturate16 n ≤ 65535 := Nat.min_le_left ..
  exact ⟨top _, top _, top _, top _, top _⟩

theorem countHealth_keeps (l : LaneId) (n : PerCounter Nat) (h : Hub) : h.Keeps (countHealth l n h) := by
  refine .trans ?_ (computeVerdict_keeps l _)
  exact Hub.Quiet.keeps (.setHealth l _ fun _ => Health.add_bounded _ n)

theorem countSlip_keeps (d : Desk) (h : Hub) : h.Keeps (countSlip d h) := by
  unfold countSlip
  split
  · exact .refl h
  · exact countHealth_keeps ..

/-! ## Frame results (R69) -/

/-- The alignment buffer at the result of a period: the frames that stay are behind the number due. -/
theorem LaneRec.pruned_bounded {l : LaneRec} {now lat : Frame} (b : l.Bounded now) (early : l.arrived = false)
    (sync : l.latency = some lat) :
    ((pruned (now - lat) l.buffer).map UpFrame.number).Nodup ∧
      ∀ f ∈ pruned (now - lat) l.buffer, 1 ≤ LaneRec.age now lat f ∧ LaneRec.age now lat f < 32 := by
  obtain ⟨-, -, -, nodup, -, -, ages⟩ := b
  refine ⟨nodup.sublist (List.filter_sublist.map _), fun f hf => ?_⟩
  obtain ⟨held, recent⟩ := List.mem_filter.1 hf
  have age := ages lat sync f held
  rw [if_neg (by simp [early])] at age
  exact ⟨age.1, of_decide_eq_true recent⟩

/-- Frames of distinct ages below n are at most n. -/
theorem length_le_of_ages {now lat : Frame} {n : Nat} {fs : List UpFrame} (nodup : (fs.map UpFrame.number).Nodup)
    (ages : ∀ f ∈ fs, LaneRec.age now lat f < n) : fs.length ≤ n := by
  have apart : (fs.map (LaneRec.age now lat)).Nodup := by
    have : fs.map (LaneRec.age now lat) = (fs.map UpFrame.number).map fun x => (now - lat - x).toNat := by
      rw [List.map_map]; rfl
    rw [this]
    refine nodup.map fun x y e => ?_
    have := BitVec.eq_of_toNat_eq e
    bv_omega
  have within : fs.map (LaneRec.age now lat) ⊆ List.range n := by
    intro a ha
    obtain ⟨f, hf, rfl⟩ := List.mem_map.1 ha
    exact List.mem_range.2 (ages f hf)
  simpa using (apart.subperm within).length_le

/-- A good result adds the frame of the number due (R69). -/
theorem LaneRec.Fits.good {l : LaneRec} {now lat : Frame} {f : UpFrame} (early : l.arrived = false)
    (sync : l.latency = some lat) (number : f.number = now - lat) (stay : Bool) (length : Nat) :
    l.Fits now ({ l with arrived := true, rx := some f }.good (now - lat) f stay length) := by
  refine ⟨fun _ => rfl, fun b => ?_⟩
  obtain ⟨nodup, ages⟩ := LaneRec.pruned_bounded b early sync
  have zero : LaneRec.age now lat f = 0 := by simp [LaneRec.age, number]
  have recent : ∀ g ∈ pruned (now - lat) l.buffer ++ [f], LaneRec.age now lat g < 32 := by
    intro g hg
    rcases List.mem_append.1 hg with old | new
    · exact (ages g old).2
    · rw [List.mem_singleton.1 new, zero]; decide
  have apart : ((pruned (now - lat) l.buffer ++ [f]).map UpFrame.number).Nodup := by
    rw [List.map_append, List.map_cons, List.map_nil, ← List.concat_eq_append]
    refine nodup.concat fun listed => ?_
    obtain ⟨g, hg, same⟩ := List.mem_map.1 listed
    have : LaneRec.age now lat g = 0 := by rw [LaneRec.age, same]; exact zero
    have := (ages g hg).1
    omega
  refine ⟨b.1, Nat.zero_le _, length_le_of_ages apart recent, apart, fun _ => rfl, fun none => ?_, fun x e g hg => ?_⟩
  · simp [LaneRec.good, sync] at none
  · have : lat = x := by simpa [LaneRec.good, sync] using e
    subst this
    exact recent g hg

/-- A bad result adds none (R69). -/
theorem LaneRec.Fits.bad {l : LaneRec} {now lat : Frame} (f : Option UpFrame) (early : l.arrived = false)
    (sync : l.latency = some lat) : l.Fits now ({ l with arrived := true, rx := f }.bad (now - lat)) := by
  refine ⟨fun _ => rfl, fun b => ?_⟩
  obtain ⟨nodup, ages⟩ := LaneRec.pruned_bounded b early sync
  refine ⟨b.1, Nat.min_le_left .., length_le_of_ages nodup fun g hg => (ages g hg).2, nodup, fun _ => rfl,
    fun none => ?_, fun x e g hg => ?_⟩
  · simp [LaneRec.bad, sync] at none
  · have : lat = x := by simpa [LaneRec.bad, sync] using e
    subst this
    exact (ages g hg).2

/-- A frame, or a lost one, noted on a lane out of sync (R68). -/
theorem LaneRec.Fits.noted {l : LaneRec} {now : Frame} (f : Option UpFrame) (unsync : l.latency = none) :
    l.Fits now { l with arrived := true, rx := f } := by
  refine ⟨fun _ => rfl, fun ⟨run, bad, _, _, _, empty, _⟩ => ?_⟩
  have : l.buffer = [] := empty unsync
  refine ⟨run, bad, ?_, ?_, fun _ => rfl, empty, fun x e => ?_⟩
  · simp [this]
  · simp [this]
  · simp [unsync] at e

/-- The acquire run stops at 4 (R68, Table 4-1). -/
theorem LaneRec.Fits.acquire {l : LaneRec} {now : Frame} (f : Option UpFrame) : l.Fits now (l.acquire f) := by
  unfold LaneRec.acquire
  refine ⟨?_, fun ⟨run, rest⟩ => ?_⟩
  · repeat' split
    all_goals exact id
  · repeat' split
    · exact ⟨Nat.zero_le _, rest⟩
    · exact ⟨Nat.zero_le _, rest⟩
    · exact ⟨Nat.min_le_left .., rest⟩
    · exact ⟨by simp, rest⟩

theorem LaneRec.Fits.trans {now : Frame} {l m n : LaneRec} (a : l.Fits now m) (b : m.Fits now n) : l.Fits now n :=
  ⟨b.arrived ∘ a.arrived, b.bounded ∘ a.bounded⟩

theorem Hub.setLane_setLane (h : Hub) (l : LaneId) (r q : LaneRec) : (h.setLane l r).setLane l q = h.setLane l q := by
  have lane : (h.setLane l r).links.get l.link =
      { h.links.get l.link with lanes := (h.links.get l.link).lanes.set l.side r } := by
    rw [Hub.setLane_links, if_pos rfl]
  unfold Hub.setLane at lane ⊢
  rw [lane, PerSide.set_set]
  simp [Hub.setLink]

theorem hlmResult_keeps (l : LaneId) (f : Option UpFrame) (h : Hub) : h.Keeps (hlmResult l f h) := by
  unfold hlmResult
  dsimp only
  split
  · split
    · exact .refl h
    · exact countHealth_keeps ..
  · refine .trans ?_ (countHealth_keeps ..)
    exact Hub.Quiet.keeps (.setTest _ _ fun _ x e => by cases e; exact Nat.min_le_left ..)

theorem testingReturns_keeps (l : LaneId) (f : UpFrame) (h : Hub) : h.Keeps (testingReturns l f h) := by
  have lane : h.Quiet (h.setLane l { h.lane l with
      state := .qualifying, qualified := false, qualifyCount := 0, qualifyDue := false }) :=
    .setLane (.same rfl rfl rfl rfl rfl rfl)
  unfold testingReturns
  dsimp only
  split
  · split
    · exact settleLink_setLink lane (.enterUp ..) _
    · exact settleLink_quiet lane _ _
  · exact .refl h

theorem goodResult_keeps {l : LaneId} {f : UpFrame} {h : Hub} {lat : Frame} (early : (h.lane l).arrived = false)
    (sync : (h.lane l).latency = some lat) (number : f.number = h.now - lat) :
    h.Keeps (goodResult l (h.now - lat) f (h.setLane l { h.lane l with arrived := true, rx := some f })) := by
  unfold goodResult
  dsimp only
  refine .trans ?_ (hlmResult_keeps ..)
  refine .trans ?_ (testingReturns_keeps ..)
  rw [Hub.setLane_setLane, Hub.setLane_lane, if_pos rfl]
  exact Hub.Quiet.keeps (.setLane (.good early sync number _ _))

theorem badResult_keeps {l : LaneId} (f : Option UpFrame) {h : Hub} {lat : Frame} (early : (h.lane l).arrived = false)
    (sync : (h.lane l).latency = some lat) :
    h.Keeps (badResult l (h.now - lat) (h.setLane l { h.lane l with arrived := true, rx := f })) := by
  unfold badResult
  refine .trans ?_ (hlmResult_keeps ..)
  rw [Hub.setLane_setLane, Hub.setLane_lane, if_pos rfl]
  exact Hub.Quiet.keeps (.setLane (.bad f early sync))

/-- The first frame of a lane in a period, or the loss of it. -/
theorem receive_keeps {l : LaneId} (f : Option UpFrame) {h : Hub} (early : (h.lane l).arrived = false) :
    h.Keeps (receive l f h) := by
  unfold receive
  dsimp only
  split
  · next lat sync =>
    split
    · exact badResult_keeps none early sync
    · next f =>
      split
      · next good =>
        refine goodResult_keeps early sync ?_
        simp only [LaneRec.isGood, Bool.and_eq_true, decide_eq_true_eq] at good
        exact good.1
      · exact badResult_keeps _ early sync
  · next unsync =>
    split
    · rw [Hub.setLane_setLane]
      exact Hub.Quiet.keeps (.setLane ((LaneRec.Fits.noted f unsync).trans (.acquire f)))
    · exact Hub.Quiet.keeps (.setLane (.noted f unsync))

theorem upstreamFrame_keeps (l : LaneId) (bytes : List Byte) (h : Hub) : h.Keeps (upstreamFrame l bytes h) := by
  unfold upstreamFrame
  split
  · exact .refl h
  · next early => exact receive_keeps _ (by simpa using early)

theorem missingFrame_keeps (l : LaneId) (h : Hub) : h.Keeps (missingFrame l h) := by
  unfold missingFrame
  split
  · exact .refl h
  · next early => exact receive_keeps _ (by simpa using early)

theorem recordLink_keeps (d : Desk) (h : Hub) : h.Keeps (recordLink d h) :=
  (missingFrame_keeps _ h).trans (missingFrame_keeps _ _)

/-! ## Acquisition, qualification, faults, holdover -/

/-- The lane that has acquired: its frame, of the number due, is its buffer (R68). -/
theorem LaneRec.Fits.acquired {l : LaneRec} {now : Frame} {f : UpFrame} (rx : l.rx = some f) :
    l.Fits now { l with
      state := .qualifying, latency := some (now - f.number), qualifyCount := 0, badRun := 0, qualified := false
      buffer := [f], qualifyDue := false } := by
  refine ⟨id, fun ⟨run, _, _, _, arrived, _⟩ => ⟨run, Nat.zero_le _, by simp, List.nodup_singleton _, arrived, by simp,
    fun lat e g hg => ?_⟩⟩
  cases e
  rw [List.mem_singleton.1 hg, if_pos (arrived (by simp [rx]))]
  simp [LaneRec.age]

theorem acquisitionComplete_keeps (l : LaneId) (h : Hub) : h.Keeps (acquisitionComplete l h) := by
  unfold acquisitionComplete
  dsimp only
  split
  · exact .refl h
  · next f rx =>
    split
    · split
      · exact Hub.Quiet.keeps (.setLane ⟨id, fun ⟨_, rest⟩ => ⟨by simp, rest⟩⟩)
      · have lane := Hub.Quiet.setLane (h := h) (LaneRec.Fits.acquired (now := h.now) rx)
        split
        · exact settleLink_setLink lane (.enterUp ..) _
        · exact settleLink_quiet lane _ _
        · exact settleLink_quiet lane _ _
    · exact .refl h

/-- A lane's count of qualification handed to its event (R71). -/
theorem LaneRec.Fits.qualified (now : Frame) (l : LaneRec) : l.Fits now { l with qualifyDue := false } :=
  .same rfl rfl rfl rfl rfl rfl

theorem qualificationComplete_keeps (l : LaneId) (h : Hub) : h.Keeps (qualificationComplete l h) := by
  have confirmed : h.Quiet (h.setLink l.link { h.links.get l.link with provisional := false }) :=
    .setLink ⟨id, fun _ => .refl ..⟩ rfl
  have same : (h.setLink l.link { h.links.get l.link with provisional := false }).lane l = h.lane l := by
    rw [Hub.setLink_lane, if_pos rfl]; rfl
  have active : h.Quiet ((h.setLink l.link { h.links.get l.link with provisional := false }).setLane l
     { h.lane l with qualified := true, qualifyDue := false }) := by
    refine confirmed.trans (.setLane ?_)
    rw [same]
    exact .same rfl rfl rfl rfl rfl rfl
  have ready : h.Quiet (h.setLane l { h.lane l with state := .ready, qualified := true, qualifyDue := false }) :=
    .setLane (.same rfl rfl rfl rfl rfl rfl)
  have entered (lat : Frame) : h.Fits (h.setLink l.link (((h.setLane l { h.lane l with qualifyDue := false }).links.get
      l.link).enterUp h.now l.side lat true)) := by
    refine .setLink (.trans ⟨?_, fun side => ?_⟩ (.enterUp ..))
    · rw [Hub.setLane_links, if_pos rfl]
      exact id
    · rw [Hub.setLane_links, if_pos rfl]
      show LaneRec.Fits _ _ (((h.links.get l.link).lanes.set l.side _).get side)
      rw [PerSide.get_set]
      split
      · next e => subst e; exact .qualified ..
      · exact .refl ..
  unfold qualificationComplete
  dsimp only
  split
  · split
    · exact settleLink_quiet active _ _
    · exact settleLink_quiet ready _ _
    · exact settleLink_keeps (entered _) rfl (fun e ne => by rw [Hub.setLink_links, if_neg ne]) _
    · exact .refl h
  · exact .refl h

theorem recordTested_keeps (l : LaneId) (h : Hub) : h.Keeps (recordTested l h) := by
  unfold recordTested
  split
  · exact missingFrame_keeps ..
  · exact .refl h

theorem hlmFault_keeps (l : LaneId) (cause : FaultCause) (prior : LaneState) (active : Bool) (h : Hub) :
    h.Keeps (hlmFault l cause prior active h) := by
  refine .trans ?_ (faultTest_quiet l active _).keeps
  refine .trans (countHealth_keeps l (faultCount cause) h) ?_
  exact Hub.Quiet.keeps (.setHealth _ _ id)

theorem laneFault_keeps (l : LaneId) (cause : FaultCause) (st : LaneState) (h : Hub) :
    h.Keeps (laneFault l cause st h) := by
  unfold laneFault
  dsimp only
  have before := (recordTested_keeps l h).trans (testComplete_quiet l.link _).keeps
  generalize testComplete l.link (recordTested l h) = k at *
  have lane : k.Quiet (k.setLane l ((k.lane l).outOfSync st)) := .setLane (.outOfSync ..)
  refine (before.trans ?_).trans (hlmFault_keeps ..)
  split
  · exact settleLink_setLink lane (.respond ..) _
  · exact settleLink_quiet lane _ _

theorem setLight_quiet (l : LaneId) (b : Bool) (h : Hub) : h.Quiet (setLight l b h) :=
  .setLane (.same rfl rfl rfl rfl rfl rfl)

theorem frameLoss_keeps (l : LaneId) (h : Hub) : h.Keeps (frameLoss l h) := by
  unfold frameLoss
  split
  · exact laneFault_keeps ..
  · exact .refl h

theorem lightAppears_keeps (l : LaneId) (h : Hub) : h.Keeps (lightAppears l h) := by
  unfold lightAppears
  dsimp only
  split
  · exact .refl h
  · split
    · refine settleLink_quiet ((setLight_quiet l true h).trans (.setLane ?_)) _ _
      exact ⟨id, fun ⟨_, rest⟩ => ⟨Nat.zero_le _, rest⟩⟩
    · exact (setLight_quiet ..).keeps

theorem lightLoss_keeps (l : LaneId) (h : Hub) : h.Keeps (lightLoss l h) := by
  unfold lightLoss
  dsimp only
  split
  · have dark := ((recordLink_keeps l.link h).trans (frameLoss_keeps l _)).trans (setLight_quiet l false _).keeps
    split
    · exact dark
    · exact dark.trans (laneFault_keeps ..)
  · exact .refl h

theorem holdoverExpiry_keeps (d : Desk) (h : Hub) : h.Keeps (holdoverExpiry d h) := by
  unfold holdoverExpiry
  dsimp only
  split
  · exact settleLink_setLink (.refl h) (.leave ..) _
  · exact .refl h

/-! ## Requests on links and tests -/

theorem lnkLaneSwitch_keeps (who : Requester) (link : Nat) (h : Hub) : h.Keeps (lnkLaneSwitch who link h) := by
  unfold lnkLaneSwitch
  split
  · exact (answerTo_quiet ..).keeps
  · split
    · split
      · split
        · exact (switchLink_keeps ..).trans (answerTo_quiet ..).keeps
        · exact (answerTo_quiet ..).keeps
      · exact (answerTo_quiet ..).keeps
    · exact (answerTo_quiet ..).keeps

theorem lnkLinkRestart_keeps (who : Requester) (link : Nat) (h : Hub) : h.Keeps (lnkLinkRestart who link h) := by
  unfold lnkLinkRestart
  split
  · exact (answerTo_quiet ..).keeps
  · next d _ =>
    refine ((testComplete_quiet d h).keeps.trans ?_).trans (answerTo_quiet ..).keeps
    exact settleLink_setLink (.refl _) (.restart ..) _

theorem hlmClearHealth_keeps (who : Requester) (lane : Nat) (h : Hub) : h.Keeps (hlmClearHealth who lane h) := by
  unfold hlmClearHealth
  split
  · exact (answerTo_quiet ..).keeps
  · split
    · refine .trans (.trans ?_ (setVerdict_keeps ..)) (answerTo_quiet ..).keeps
      exact Hub.Quiet.keeps (.setHealth _ _ fun _ => by simp [Health.Bounded])
    · exact (answerTo_quiet ..).keeps

theorem hlmLaneTest_keeps (who : Requester) (lane seconds : Nat) (h : Hub) : h.Keeps (hlmLaneTest who lane seconds h) := by
  unfold hlmLaneTest
  split
  · exact (answerTo_quiet ..).keeps
  · next l _ =>
    split
    · split
      · split
        · exact (answerTo_quiet ..).keeps
        · split
          · refine .trans ?_ ((tellTest_quiet ..).trans (answerTo_quiet ..)).keeps
            refine settleLink_quiet (.trans ?_ (.setLane ?_)) _ _
            · exact .setTest _ _ fun _ x e => by cases e; exact Nat.zero_le _
            · exact .same rfl rfl rfl rfl rfl rfl
          · exact (answerTo_quiet ..).keeps
      · exact (answerTo_quiet ..).keeps
    · exact (answerTo_quiet ..).keeps

/-! ## The store and the restart -/

theorem installChanged_keeps (h : Hub) : h.Keeps (installChanged h) :=
  (computeVerdicts_keeps h).trans (commitMon_quiet ..).keeps

theorem finishEntry_keeps (k : WriteKind) (h : Hub) : h.Keeps (finishEntry k h) := by
  cases k with
  | save => exact .refl h
  | lock => exact Hub.Quiet.keeps .same
  | erase =>
    have erased : h.Quiet { h with sto := { h.sto with install := Install.defaults, lock := false } } := .same
    exact erased.keeps.trans (installChanged_keeps _)

theorem completeWrite_keeps (w : RunningWrite) (h : Hub) : h.Keeps (completeWrite w h) := by
  unfold completeWrite
  refine .trans ?_ ((answerWaiting_quiet ..).trans (startNext_quiet _)).keeps
  refine .trans ?_ (finishEntry_keeps ..)
  obtain ⟨-, -, -, -, -, list, -⟩ := Sto.commit_other h.sto w.snapshot
  have written : h.Quiet { h with sto := { h.sto.commit w.snapshot with running := none } } := .same (list := list)
  dsimp only
  split
  · exact written.keeps
  · exact (written.trans (setStatus_quiet ..)).keeps

theorem storeWriteComplete_keeps (h : Hub) : h.Keeps (storeWriteComplete h) := by
  have signalled : h.Quiet { h with sto := h.sto.signalTaken } := .same
  unfold storeWriteComplete
  dsimp only
  split
  · exact signalled.keeps
  · split
    · exact signalled.keeps.trans (completeWrite_keeps ..)
    · exact signalled.keeps

theorem stoWriteInstall_keeps (who : Requester) (settings : List Byte) (h : Hub) :
    h.Keeps (stoWriteInstall who settings h) := by
  unfold stoWriteInstall
  split
  · exact (answerTo_quiet ..).keeps
  · next x _ =>
    split
    · exact (answerTo_quiet ..).keeps
    · have taken : h.Quiet { h with sto := { h.sto with install := x } } := .same
      exact (taken.keeps.trans (installChanged_keeps _)).trans (addEntry_quiet ..).keeps

theorem Arb.restart_keeps (h : Hub) : h.Keeps { h with arb := h.arb.restart } := by
  refine .arb (fun b => b.of (fun r c => ?_) fun who pc e => ?_) fun ok r => ?_
  · rw [Arb.restart_claim]
    split
    · exact c
    · exact List.nodup_nil
  · rw [Arb.restart_pending] at e
    cases e
  · rw [Arb.restart_claim]
    split
    · exact (ok r).with_arb (Arb.restart_frozen _)
    · trivial

theorem Req.restart_quiet (h : Hub) : h.Quiet { h with req := h.req.restart } := by
  refine ⟨⟨rfl, fun _ => id, fun ⟨queues, ns, asms, rest⟩ => ⟨fun r => ?_, fun d => ?_, fun d => ?_, rest⟩⟩, rfl, fun _ => rfl⟩
  · cases r with
    | panel => exact (List.length_take_le' ..).trans (queues .panel)
    | a | b | c => exact Nat.zero_le _
  · show ((PerDesk.of fun d => (h.req.desks.get d).restart).get d).notices.length ≤ 8
    rw [PerDesk.get_of]
    exact Nat.zero_le _
  · show ∀ a, ((PerDesk.of fun d => (h.req.desks.get d).restart).get d).asm = some a → _
    rw [PerDesk.get_of]
    exact asms d

theorem hubRestart_keeps (who : Requester) (h : Hub) : h.Keeps (hubRestart who h) := by
  have blocks := (hlmRestart_quiet h).trans (handTalk_quiet { (hlmRestart h).tbk with
    records := PerDesk.of fun _ => none, grants := Vector.replicate 32 none, order := [] } (hlmRestart h))
  unfold hubRestart
  refine .trans ?_ ((notifyAll_quiet ..).trans (answerTo_quiet ..)).keeps
  refine blocks.keeps.trans ((Arb.restart_keeps _).trans ((Req.restart_quiet _).keeps.trans ?_))
  exact Hub.Quiet.keeps (.pnl _ fun b => ⟨Nat.zero_le _, b.2⟩)

end Sys2Proof.Machine
end

/-!
Requests in execution, the frame period and the power-on; with them every command keeps the capacities and the claim records.
-/
section
namespace Sys2Proof.Machine

/-! ## Requests in execution (R159) -/

theorem handOver_keeps (who : Requester) (prepared : Bool) (c : Call) (h : Hub) : h.Keeps (handOver who prepared c h) := by
  cases c with
  | setInput => exact (pcuSetInput_quiet ..).keeps
  | readInput => exact (pcuReadInput_quiet ..).keeps
  | setGang => exact (pcuSetGang_quiet ..).keeps
  | readGang => exact (pcuReadGang_quiet ..).keeps
  | setTracking => exact (pcuSetTracking_quiet ..).keeps
  | setTrim => exact (pcuSetTrim_quiet ..).keeps
  | claim => exact arbClaim_keeps ..
  | release => exact arbRelease_keeps ..
  | override => exact arbOverride_keeps ..
  | freeze => exact arbFreeze_keeps ..
  | readClaims => exact (arbReadClaims_quiet ..).keeps
  | setPatch => exact (monSetPatch_quiet ..).keeps
  | outputEnable => exact (monOutputEnable_quiet ..).keeps
  | readOutput => exact (monReadOutput_quiet ..).keeps
  | talkOn => exact (tbkTalkOn_quiet ..).keeps
  | talkOff => exact (tbkTalkOff_quiet ..).keeps
  | readLink => exact (lnkReadLink_quiet ..).keeps
  | readHealth => exact (hlmReadHealth_quiet ..).keeps
  | clearHealth => exact hlmClearHealth_keeps ..
  | laneSwitch => exact lnkLaneSwitch_keeps ..
  | laneTest => exact hlmLaneTest_keeps ..
  | laneTestStop => exact (hlmLaneTestStop_quiet ..).keeps
  | writeInstall => exact stoWriteInstall_keeps ..
  | lockInstall => exact (stoLockInstall_quiet ..).keeps
  | eraseInstall => exact (stoEraseInstall_quiet ..).keeps
  | saveNow => exact (addEntry_quiet ..).keeps
  | hubRestart => exact hubRestart_keeps ..
  | linkRestart => exact lnkLinkRestart_keeps ..
  | readNotices => exact (pnlReadNotices_quiet ..).keeps
  | erasePrepare =>
    have prepared : h.Quiet { h with sto := { h.sto with erasePrepared := true } } := .same
    exact (prepared.trans (answerTo_quiet ..)).keeps
  | readTalk | readInstall | unknown | malformed => exact (answerTo_quiet ..).keeps

theorem carryOut_keeps (who : Requester) (prepared : Bool) (c : Call) (h : Hub) : h.Keeps (carryOut who prepared c h) := by
  unfold carryOut
  repeat' split
  · exact (answerTo_quiet ..).keeps
  · exact (answerTo_quiet ..).keeps
  · exact handOver_keeps ..

theorem takeHead_keeps (who : Requester) (h : Hub) : h.Keeps (takeHead who h) := by
  unfold takeHead
  dsimp only
  split
  · exact .refl h
  · split
    · refine .trans (Hub.Quiet.keeps ?_) (carryOut_keeps ..)
      refine .trans ?_ (clearPrepare_quiet ..)
      exact .setQueue who _ id
    · exact .refl h

theorem arrive_keeps (who : Requester) (e : QEntry) (h : Hub) : h.Keeps (arrive who e h) := by
  unfold arrive
  dsimp only
  split
  · next room =>
    refine .trans (Hub.Quiet.keeps ?_) (takeHead_keeps ..)
    refine .trans ?_ (arrivalHold_quiet ..)
    refine .setQueue who _ fun _ => ?_
    rw [List.length_append]
    exact room
  · exact Hub.Quiet.keeps (.setQueue who _ id)

theorem messageArrives_keeps (d : Desk) (bytes : List Byte) (h : Hub) : h.Keeps (messageArrives d bytes h) := by
  unfold messageArrives
  repeat' split
  · exact .refl h
  · exact arrive_keeps ..
  · exact .refl h

theorem requestArrival_keeps (d : Desk) (bytes : List Byte) (h : Hub) : h.Keeps (requestArrival d bytes h) := by
  unfold requestArrival
  split
  · exact messageArrives_keeps ..
  · exact .refl h

theorem submit_keeps (who : Requester) (tag : Byte) (c : Call) (h : Hub) : h.Keeps (submit who tag c h) := by
  unfold submit
  repeat' split
  · exact arrive_keeps ..
  · exact arrive_keeps ..
  · exact .refl h

/-- A request that leaves its queue makes room (R160). -/
theorem ReqQueue.pop_length (q : ReqQueue) (b : q.items.length ≤ 8) : q.pop.items.length ≤ 8 :=
  (List.tail_sublist _).length_le.trans b

theorem answerDelivery_keeps (d : Desk) (h : Hub) : h.Keeps (answerDelivery d h) := by
  unfold answerDelivery
  split
  · refine .trans (Hub.Quiet.keeps ?_) (takeHead_keeps ..)
    refine .trans ?_ (.setDesk d _ id id)
    exact .setQueue d.req _ (ReqQueue.pop_length _)
  · exact .refl h

/-- A message under assembly stays short of its length (R156). -/
theorem asmStep_bounded {a b : Option Asm} {c : Option Cell} {m : Option (List Byte)} (e : asmStep a c = (b, m))
    (bound : ∀ x, a = some x → x.Bounded) : ∀ x, b = some x → x.Bounded := by
  unfold asmStep at e
  split at e
  · cases e
    simp
  · next c =>
    split at e
    · cases e
      intro x start
      unfold asmStart at start
      split at start
      · next length =>
        cases start
        exact ⟨by simpa using by omega, length.2⟩
      · cases start
    · split at e
      · split at e
        · cases e
          simp
        · next a =>
          dsimp only at e
          split at e
          · cases e
            simp
          · next short =>
            cases e
            intro x more
            cases more
            exact ⟨Nat.lt_of_not_le short, (bound a rfl).2⟩
      · cases e
        simp

theorem takeCell_keeps (d : Desk) (c : Option Cell) (h : Hub) : h.Keeps (takeCell d c h) := by
  have taken : h.Quiet (h.setDesk d { h.req.desks.get d with asm := (asmStep (h.req.desks.get d).asm c).1 }) :=
    .setDesk d _ id fun bound => asmStep_bounded (Prod.eta _).symm bound
  unfold takeCell
  dsimp only
  split
  · exact taken.keeps
  · exact taken.keeps.trans (messageArrives_keeps ..)

/-! ## The panel port -/

theorem writeRequest_keeps (bytes : List Byte) (h : Hub) : h.Keeps (writeRequest bytes h) := by
  unfold writeRequest
  split
  · exact (closeTxn_quiet ..).keeps
  · dsimp only
    split
    · exact ((closeTxn_quiet ..).trans (setRejected_quiet ..)).keeps
    · exact ((closeTxn_quiet ..).trans (setRejected_quiet ..)).keeps.trans (arrive_keeps ..)

theorem deliverPanel_keeps (h : Hub) : h.Keeps (deliverPanel h) := by
  refine .trans (Hub.Quiet.keeps ?_) (takeHead_keeps .panel _)
  refine .trans (k := h.setQueue .panel (h.req.queues.get .panel).pop) (.setQueue .panel _ (ReqQueue.pop_length _)) ?_
  exact .pnl _ id

theorem readAnswer_keeps (clocked : Nat) (h : Hub) : h.Keeps (readAnswer clocked h) := by
  unfold readAnswer
  dsimp only
  repeat' split
  · exact (closeTxn_quiet ..).keeps
  · exact (closeTxn_quiet ..).keeps.trans (deliverPanel_keeps _)
  · exact (closeTxn_quiet ..).keeps

/-! ## The end of a period -/

theorem sweepLanes_keeps (h : Hub) : h.Keeps (sweepLanes h) := by
  refine .trans (.foldl (f := sweepLane) (fun h l => ?_) LaneId.all h)
    (Hub.Quiet.foldl (fun h d => testComplete_quiet d h) Desk.all _).keeps
  exact ((acquisitionComplete_keeps l h).trans (frameLoss_keeps l _)).trans (qualificationComplete_keeps l _)

theorem sweepChannels_quiet (h : Hub) : h.Quiet (sweepChannels h) := by
  have crossed (h : Hub) := Hub.Quiet.foldl (fun h c => zeroCrossing_quiet c h) (List.finRange 72) h
  have timed (h : Hub) := Hub.Quiet.foldl (fun h c => transferTimeout_quiet c h) (List.finRange 72) h
  have charged (h : Hub) := Hub.Quiet.foldl (fun h c => chargeExpiry_quiet c h) (List.finRange 72) h
  have discharged (h : Hub) := Hub.Quiet.foldl (fun h c => dischargeExpiry_quiet c h) (List.finRange 72) h
  exact (((crossed h).trans (timed _)).trans (charged _)).trans (discharged _)

theorem sweepClaims_keeps (h : Hub) : h.Keeps (sweepClaims h) :=
  ((windowExpiry_keeps h).trans (.foldl (fun h d => graceExpiry_keeps d h) Desk.all _)).trans
    (.foldl (fun h d => holdoverExpiry_keeps d h) Desk.all _)

theorem sweepOutputs_quiet (h : Hub) : h.Quiet (sweepOutputs h) := by
  have faded (h : Hub) := Hub.Quiet.foldl (fun h i => fadeComplete_quiet i h) (List.finRange 32) h
  have reverted (h : Hub) := Hub.Quiet.foldl (fun h i => revertExpiry_quiet i h) (List.finRange 32) h
  have timed (h : Hub) := Hub.Quiet.foldl (fun h d => talkTimeout_quiet d h) Desk.all h
  exact ((faded h).trans (reverted _)).trans (timed _)

theorem sweep_keeps (h : Hub) : h.Keeps (sweep h) := by
  have store (h : Hub) := ((sweepOutputs_quiet h).trans (settleExpiry_quiet _)).trans (storeWriteFault_quiet _)
  have delivered (h : Hub) := Hub.Keeps.foldl (fun h d => answerDelivery_keeps d h) Desk.all h
  exact ((((sweepLanes_keeps h).trans (sweepChannels_quiet _).keeps).trans (sweepClaims_keeps _)).trans
    (store _).keeps).trans (delivered _)

/-- A take writes one entry, and drops 8 at the sixteenth (R73, R76). -/
theorem Link.Fits.take (now : Frame) (k : Link) (n : Frame) (x : TakeSource) : k.Fits now (k.take n x).1 := by
  have append (b : List Entry) (e : Entry) (fits : b.length ≤ 16) : (appendEntry b e).1.length ≤ 16 := by
    unfold appendEntry
    split
    · simp; omega
    · next short => simpa using by simp at short; omega
  refine ⟨fun ⟨fill, rescued, repeated⟩ => ⟨append _ _ fill, ?_, ?_⟩, fun _ => .refl ..⟩
  · cases x with
    | rescued => exact Nat.min_le_left ..
    | own | repeated => exact rescued
  · cases x with
    | repeated => exact Nat.min_le_left ..
    | own | rescued => exact repeated

theorem takeOne_keeps (d : Desk) (side : Side) (mayRescue : Bool) (h : Hub) : h.Keeps (takeOne d side mayRescue h) := by
  unfold takeOne
  dsimp only
  split
  · exact .refl h
  · refine .trans ?_ (takeCell_keeps ..)
    have taken (n : Frame) (x : TakeSource) : h.Quiet (h.setLink d ((h.links.get d).take n x).1) :=
      .setLink (.take ..) rfl
    split
    · exact (taken ..).keeps.trans (countSlip_keeps ..)
    · exact (taken ..).keeps

theorem takeMany_keeps (d : Desk) (side : Side) (mayRescue : Bool) (n : Nat) (h : Hub) :
    h.Keeps (takeMany d side mayRescue n h) := by
  induction n generalizing h with
  | zero => exact .refl h
  | succ n ih => exact (takeOne_keeps d side mayRescue h).trans (ih _)

theorem takeStep_keeps (h : Hub) (d : Desk) : h.Keeps (takeStep h d) := by
  unfold takeStep
  dsimp only
  repeat' split
  · exact .refl h
  · exact takeMany_keeps ..
  · exact .refl h

/-- A delivery takes one entry, and leaves 8 copies of the last (R75, R76). -/
theorem Link.deliver_fits (now : Frame) (k : Link) : k.Fits now k.deliver.1 ∧ k.deliver.1.state = k.state := by
  unfold Link.deliver
  split
  · exact ⟨.refl .., rfl⟩
  · exact ⟨⟨fun ⟨_, rest⟩ => ⟨by simp, rest⟩, fun _ => .refl ..⟩, rfl⟩
  · next full =>
    refine ⟨⟨fun ⟨fill, rest⟩ => ⟨?_, rest⟩, fun _ => .refl ..⟩, rfl⟩
    rw [full] at fill
    exact (Nat.le_succ _).trans fill

theorem deliverStep_keeps (h : Hub) (d : Desk) : h.Keeps (deliverStep h d) := by
  obtain ⟨fits, state⟩ := (h.links.get d).deliver_fits h.now
  have delivered : h.Quiet (h.setLink d (h.links.get d).deliver.1) := .setLink fits state
  unfold deliverStep
  dsimp only
  split
  · split
    · exact delivered.keeps.trans (countSlip_keeps ..)
    · exact delivered.keeps
  · exact .refl h

theorem missingFrames_keeps (h : Hub) : h.Keeps (missingFrames h) := .foldl (fun h d => recordLink_keeps d h) _ h

/-- The end of a period keeps the capacities and the claim records, and every lane has had its frame. -/
theorem endPeriod_keeps (h : Hub) : h.Keeps (endPeriod h) ∧ ∀ l, ((endPeriod h).lane l).arrived = true := by
  have rest (h : Hub) : h.Keeps (outputSamples (Desk.all.foldl deliverStep (Desk.all.foldl takeStep (sweep h)))) :=
    (((sweep_keeps h).trans (.foldl takeStep_keeps _ _)).trans (.foldl deliverStep_keeps _ _)).trans
      (outputSamples_quiet _).keeps
  refine ⟨(missingFrames_keeps h).trans (rest _), fun l => (rest _).arrived l ?_⟩
  obtain ⟨d, side⟩ := l
  unfold missingFrames Desk.all
  simp only [List.foldl_cons, List.foldl_nil, recordLink_lane]
  cases d <;> simp

/-! ## The next period -/

/-- A lane whose frame of the period has arrived, at the start of the next. -/
theorem LaneRec.newPeriod_bounded {now : Frame} {l : LaneRec} (arrived : l.arrived = true) (b : l.Bounded now) :
    l.newPeriod.Bounded (now + 1#32) := by
  obtain ⟨run, bad, size, nodup, -, empty, ages⟩ := b
  refine ⟨run, bad, size, nodup, fun e => (by cases e), empty, fun lat sync f held => ?_⟩
  have age := ages lat sync f held
  rw [if_pos arrived] at age
  have step : LaneRec.age (now + 1#32) lat f = LaneRec.age now lat f + 1 := by
    unfold LaneRec.age at age ⊢
    bv_omega
  show 1 ≤ LaneRec.age (now + 1#32) lat f ∧ LaneRec.age (now + 1#32) lat f ≤ 32
  omega

theorem advance_bounded {h : Hub} (ports : PortSamples) (arrived : ∀ l, (h.lane l).arrived = true) (b : h.Bounded) :
    (advance ports h).Bounded := by
  obtain ⟨queues, ns, asms, panel, count, health, tests, links, lanes, rest⟩ := b
  have link (d : Desk) : (advance ports h).links.get d = (h.links.get d).newPeriod := PerDesk.get_of ..
  refine ⟨queues, ns, asms, panel, count, health, tests, fun d => ?_, fun l => ?_, rest⟩
  · rw [link]
    exact links d
  · have lane : (advance ports h).lane l = (h.lane l).newPeriod := by
      unfold Hub.lane
      rw [link]
      cases l.side <;> rfl
    rw [lane]
    exact LaneRec.newPeriod_bounded (arrived l) (lanes l)

theorem advance_claims {h : Hub} (ports : PortSamples) (ok : h.ClaimsOk) : (advance ports h).ClaimsOk :=
  ok.mono rfl fun d => (Hub.linkUp_of_state (by
    show ((PerDesk.of fun d => (h.links.get d).newPeriod).get d).state = _
    rw [PerDesk.get_of]
    rfl)).trans

/-- The next period begins, with its frames, after one that ended with every lane's frame recorded. -/
theorem nextPeriod_keeps {h k : Hub} (ports : PortSamples) (ended : h.Keeps k) (arrived : ∀ l, (k.lane l).arrived = true) :
    (h.Bounded → (sendFrames ports (advance ports k)).Bounded) ∧
      (h.ClaimsOk → (sendFrames ports (advance ports k)).ClaimsOk) := by
  have sent := (sendFrames_quiet ports (advance ports k)).keeps
  exact ⟨fun b => sent.bounded (advance_bounded ports arrived (ended.bounded b)),
    fun ok => sent.claims (advance_claims ports (ended.claims ok))⟩

theorem framePeriod_keeps (ports : PortSamples) (h : Hub) :
    (h.Bounded → (framePeriod ports h).Bounded) ∧ (h.ClaimsOk → (framePeriod ports h).ClaimsOk) :=
  nextPeriod_keeps ports (endPeriod_keeps h).1 (endPeriod_keeps h).2

/-! ## The power-on (R179) -/

/-- The part restored holds nothing that waits or counts, and every resource is OPEN. -/
theorem Hub.restored_fits (h : Hub) (pins : Pins) (ports : PortSamples) :
    (h.restored pins ports).Bounded ∧ (h.restored pins ports).ClaimsOk := by
  have opened (r : Res) : (h.restored pins ports).arb.claim r = .opened := Tbl.get_replicate ..
  have lane (l : LaneId) : (h.restored pins ports).lane l = LaneRec.reset := by
    show ((PerDesk.of fun _ => Link.reset).get l.link).lane l.side = _
    rw [PerDesk.get_of]
    cases l.side <;> rfl
  refine ⟨⟨fun r => ?_, fun d => ?_, fun d => ?_, Nat.zero_le _, Nat.zero_le _, fun l => ?_, fun d => ?_, fun d => ?_,
    fun l => ?_, ⟨fun r => ?_, fun who => ?_⟩, List.nodup_nil⟩, fun r => ?_⟩
  · cases r <;> exact Nat.zero_le _
  · cases d <;> exact Nat.zero_le _
  · cases d <;> exact fun _ e => nomatch e
  · obtain ⟨d, side⟩ := l
    cases d <;> cases side <;> exact ⟨Nat.zero_le _, Nat.zero_le _, Nat.zero_le _, Nat.zero_le _, Nat.zero_le _⟩
  · cases d <;> exact fun _ e => nomatch e
  · cases d <;> exact ⟨Nat.zero_le _, Nat.zero_le _, Nat.zero_le _⟩
  · rw [lane]
    simp [LaneRec.Bounded, LaneRec.reset]
  · rw [opened]
    exact List.nodup_nil
  · cases who <;> exact fun _ e => nomatch e
  · rw [opened]
    trivial

theorem powerOnReset_keeps (pins : Pins) (ports : PortSamples) (h : Hub) :
    (powerOnReset pins ports h).Bounded ∧ (powerOnReset pins ports h).ClaimsOk := by
  obtain ⟨bounded, claims⟩ := h.restored_fits pins ports
  have told := ((tellBadRegion_quiet .install (h.restored pins ports)).trans (tellBadRegion_quiet .showData _)).keeps
  have lit (h : Hub) : h.Keeps (lightAtPowerOn pins h) := by
    refine .foldl (fun h l => ?_) _ h
    split
    · exact lightAppears_keeps ..
    · exact .refl h
  have woken := (told.trans (lit _)).trans (sendFrames_quiet ports _).keeps
  exact ⟨woken.bounded bounded, woken.claims claims⟩

/-! ## Every command -/

/-- What a command that answers the part `k` keeps. -/
theorem exec_keeps_of {s t : State} {i : Instr} {k : Hub} (e : exec i s = .next t) (x : exec i s = .next (s.withHub k))
    (keeps : (s.hub.Bounded → k.Bounded) ∧ (s.hub.ClaimsOk → k.ClaimsOk)) :
    (s.hub.Bounded → t.hub.Bounded) ∧ (s.hub.ClaimsOk → t.hub.ClaimsOk) := by
  rw [x] at e
  cases e
  exact keeps

theorem Hub.Keeps.both {h k : Hub} (keeps : h.Keeps k) : (h.Bounded → k.Bounded) ∧ (h.ClaimsOk → k.ClaimsOk) :=
  ⟨keeps.bounded, keeps.claims⟩

theorem exec_keeps {s t : State} {i : Instr} (e : exec i s = .next t) :
    (s.hub.Bounded → t.hub.Bounded) ∧ (s.hub.ClaimsOk → t.hub.ClaimsOk) := by
  cases i with
  | powerOnReset pins ports =>
    have woken := powerOnReset_keeps pins ports s.hub
    exact exec_keeps_of e rfl ⟨fun _ => woken.1, fun _ => woken.2⟩
  | framePeriod ports => exact exec_keeps_of e rfl (framePeriod_keeps ports s.hub)
  | upstreamFrame l bytes => exact exec_keeps_of e rfl (upstreamFrame_keeps l bytes _).both
  | acquisitionComplete l => exact exec_keeps_of e rfl (acquisitionComplete_keeps l _).both
  | qualificationComplete l => exact exec_keeps_of e rfl (qualificationComplete_keeps l _).both
  | frameLoss l => exact exec_keeps_of e rfl (frameLoss_keeps l _).both
  | lightAppears l => exact exec_keeps_of e rfl (lightAppears_keeps l _).both
  | lightLoss l => exact exec_keeps_of e rfl (lightLoss_keeps l _).both
  | holdoverExpiry d => exact exec_keeps_of e rfl (holdoverExpiry_keeps d _).both
  | testComplete d => exact exec_keeps_of e rfl (testComplete_quiet d _).keeps.both
  | zeroCrossing c => exact exec_keeps_of e rfl (zeroCrossing_quiet c _).keeps.both
  | transferTimeout c => exact exec_keeps_of e rfl (transferTimeout_quiet c _).keeps.both
  | chargeExpiry c => exact exec_keeps_of e rfl (chargeExpiry_quiet c _).keeps.both
  | dischargeExpiry c => exact exec_keeps_of e rfl (dischargeExpiry_quiet c _).keeps.both
  | windowExpiry => exact exec_keeps_of e rfl (windowExpiry_keeps _).both
  | graceExpiry d => exact exec_keeps_of e rfl (graceExpiry_keeps d _).both
  | fadeComplete o => exact exec_keeps_of e rfl (fadeComplete_quiet o _).keeps.both
  | revertExpiry o => exact exec_keeps_of e rfl (revertExpiry_quiet o _).keeps.both
  | safeAsserted => exact exec_keeps_of e rfl (safeAsserted_quiet _).keeps.both
  | safeReleased => exact exec_keeps_of e rfl (safeReleased_quiet _).keeps.both
  | talkTimeout d => exact exec_keeps_of e rfl (talkTimeout_quiet d _).keeps.both
  | stageTalkPress x => exact exec_keeps_of e rfl (stageChange_quiet x true _).keeps.both
  | stageTalkRelease x => exact exec_keeps_of e rfl (stageChange_quiet x false _).keeps.both
  | requestArrival d bytes => exact exec_keeps_of e rfl (requestArrival_keeps d bytes _).both
  | answerDelivery d => exact exec_keeps_of e rfl (answerDelivery_keeps d _).both
  | writeRequest bytes => exact exec_keeps_of e rfl (writeRequest_keeps bytes _).both
  | readAnswer clocked => exact exec_keeps_of e rfl (readAnswer_keeps clocked _).both
  | readNotice clocked => exact exec_keeps_of e rfl (readNotice_quiet clocked _).keeps.both
  | statusPoll clocked => exact exec_keeps_of e rfl (closeTxn_quiet _ _ _).keeps.both
  | transactionStart => exact exec_keeps_of e rfl (Hub.Quiet.pnl _ id).keeps.both
  | settleExpiry => exact exec_keeps_of e rfl (settleExpiry_quiet _).keeps.both
  | storeWriteComplete => exact exec_keeps_of e rfl (storeWriteComplete_keeps _).both
  | storeWriteFault => exact exec_keeps_of e rfl (storeWriteFault_quiet _).keeps.both
  | setInput | readInput | setGang | readGang | setTracking | setTrim | claim | release | override | freeze | readClaims |
    setPatch | outputEnable | readOutput | talkOn | talkOff | readTalk | readLink | laneSwitch | linkRestart |
    readHealth | clearHealth | laneTest | laneTestStop | readNotices | hubRestart | writeInstall | readInstall |
    lockInstall | erasePrepare | eraseInstall | saveNow => exact exec_keeps_of e rfl (submit_keeps ..).both

theorem step_keeps {s t : State} (e : step s = .next t) :
    (s.hub.Bounded → t.hub.Bounded) ∧ (s.hub.ClaimsOk → t.hub.ClaimsOk) := by
  unfold Machine.step at e
  split at e
  · cases e
    exact ⟨id, id⟩
  · next i rest _ => exact exec_keeps (s := { s with pending := rest }) e

/-- Settles O54: every operation within a period keeps the capacities, and the start of a period finds every lane's frame
recorded. -/
theorem stepKeepsTheCapacities : Obligations.StepKeepsTheCapacities := by
  unfold Obligations.StepKeepsTheCapacities
  exact fun s t bounded e => (step_keeps e).1 bounded

/-- Settles O56: the claim records are kept by every operation, a change of a link together with the event that hands it
to ARB. -/
theorem stepKeepsTheClaims : Obligations.StepKeepsTheClaims := by
  unfold Obligations.StepKeepsTheClaims
  exact fun s t ok e => (step_keeps e).2 ok

end Sys2Proof.Machine
end

/-!
Notices cut to their capacity (R60, R129), and the tables of one claim record (R41, R44, R47, R49, R51).
-/
section
namespace Sys2Proof.Machine

/-! ## Lists cut into pieces -/

/-- A list cut into pieces: they are its parts in order, every piece full that another follows. -/
theorem cut_spec {α : Type} {n : Nat} (pos : 0 < n) (fuel : Nat) : ∀ l : List α, l.length ≤ n * fuel →
    (cut n fuel l).flatten = l ∧ (∀ g ∈ cut n fuel l, 1 ≤ g.length ∧ g.length ≤ n) ∧
      (cut n fuel l).Pairwise fun f _ => f.length = n := by
  induction fuel with
  | zero =>
    intro l size
    have : l = [] := List.length_eq_zero_iff.1 (by omega)
    simp [cut, this]
  | succ fuel ih =>
    intro l size
    unfold cut
    split
    · next empty => simp [List.isEmpty_iff.1 empty]
    · next some_ =>
      have filled : 1 ≤ l.length := List.length_pos_iff.2 fun e => some_ (by simp [e])
      obtain ⟨parts, sizes, full⟩ := ih (l.drop n) (by rw [List.length_drop, Nat.mul_succ] at *; omega)
      refine ⟨by rw [List.flatten_cons, parts, List.take_append_drop], fun g hg => ?_, List.pairwise_cons.2 ⟨fun g hg => ?_, full⟩⟩
      · rcases List.mem_cons.1 hg with rfl | later
        · rw [List.length_take]; omega
        · exact sizes g later
      · have rest : 1 ≤ (l.drop n).length := by
          rw [← parts]
          exact (sizes g hg).1.trans (List.sublist_flatten_of_mem hg).length_le
        rw [List.length_drop] at rest
        rw [List.length_take]
        omega

theorem cut_map {α β : Type} (f : α → β) (n fuel : Nat) : ∀ l : List α, cut n fuel (l.map f) = (cut n fuel l).map (List.map f) := by
  induction fuel with
  | zero => exact fun l => rfl
  | succ fuel ih =>
    intro l
    unfold cut
    cases l with
    | nil => rfl
    | cons x xs => rw [← List.map_take, ← List.map_drop, ih]; rfl

/-- What every item that another follows has, every item but the last has. -/
theorem forall_dropLast_of_pairwise {α : Type} {P : α → Prop} {l : List α} (p : l.Pairwise fun a _ => P a) :
    ∀ a ∈ l.dropLast, P a := by
  induction l with
  | nil => simp
  | cons a l ih =>
    cases l with
    | nil => simp
    | cons b l =>
      obtain ⟨first, rest⟩ := List.pairwise_cons.1 p
      intro x hx
      rw [List.dropLast_cons_cons] at hx
      rcases List.mem_cons.1 hx with rfl | later
      · exact first b List.mem_cons_self
      · exact ih rest x later

/-- The members of a table that pass a test, in number order. -/
theorem filter_finRange_sorted {n : Nat} (p : Fin n → Bool) : ((List.finRange n).filter p).Pairwise (· < ·) :=
  (List.pairwise_lt_finRange n).filter p

/-! ## CLAIM_CHANGED (R60) -/

/-- The pieces into which changed records are cut: by state, holder and level, in the order of their first resource, then
at most 16 resources. -/
def claimPieces (x : Arb) : Nat → List Res → List ((ClaimState × Option Requester × Option Level) × List Res)
  | 0, _ => []
  | _, [] => []
  | fuel + 1, r :: rs =>
    let key := (x.claim r).key
    (cut 16 7 ((r :: rs).filter fun q => decide ((x.claim q).key = key))).map (Prod.mk key) ++
      claimPieces x fuel ((r :: rs).filter fun q => !decide ((x.claim q).key = key))

theorem claimGroups_eq (x : Arb) (fuel : Nat) : ∀ l : List Res,
    claimGroups x fuel l = (claimPieces x fuel l).map fun g => .claimChanged g.1.1 g.1.2.1 g.1.2.2 g.2 := by
  induction fuel with
  | zero => exact fun l => rfl
  | succ fuel ih =>
    intro l
    cases l with
    | nil => rfl
    | cons r rs =>
      simp only [claimGroups, claimPieces, List.map_append, ih, List.map_map]
      rfl

/-- What the pieces of a list in resource order are (R60): one key a piece, in resource order, at most 16; a piece that
another of its key follows is full; keys come in the order of their first resource. -/
structure PiecesOf (x : Arb) (l : List Res) (pieces : List ((ClaimState × Option Requester × Option Level) × List Res)) :
    Prop where
  mem : ∀ r, (∃ g ∈ pieces, r ∈ g.2) ↔ r ∈ l
  piece : ∀ g ∈ pieces, 1 ≤ g.2.length ∧ g.2.length ≤ 16 ∧ g.2.Pairwise (· < ·) ∧ ∀ r ∈ g.2, (x.claim r).key = g.1
  order : pieces.Pairwise fun f g =>
    (f.1 = g.1 → f.2.length = 16 ∧ ∀ r ∈ f.2, ∀ q ∈ g.2, r < q) ∧
    (f.1 ≠ g.1 → ∃ first ∈ l, (x.claim first).key = f.1 ∧ ∀ q ∈ l, (x.claim q).key = g.1 → first < q)

/-- The pieces of one key. -/
theorem PiecesOf.single {x : Arb} {l : List Res} {key : ClaimState × Option Requester × Option Level}
    (sorted : l.Pairwise (· < ·)) (size : l.length ≤ 112) (keys : ∀ r ∈ l, (x.claim r).key = key) :
    PiecesOf x l ((cut 16 7 l).map (Prod.mk key)) := by
  obtain ⟨parts, sizes, full⟩ := cut_spec (n := 16) (by omega) 7 l size
  have ordered := sorted
  rw [← parts] at ordered
  obtain ⟨inner, outer⟩ := List.pairwise_flatten.1 ordered
  have within (g : List Res) (hg : g ∈ cut 16 7 l) (r : Res) (hr : r ∈ g) : r ∈ l := by
    rw [← parts]
    exact List.mem_flatten.2 ⟨g, hg, hr⟩
  refine ⟨fun r => ⟨?_, fun hr => ?_⟩, fun g hg => ?_, ?_⟩
  · rintro ⟨g, hg, hr⟩
    obtain ⟨g, piece, rfl⟩ := List.mem_map.1 hg
    exact within g piece r hr
  · rw [← parts] at hr
    obtain ⟨g, hg, hr⟩ := List.mem_flatten.1 hr
    exact ⟨_, List.mem_map_of_mem hg, hr⟩
  · obtain ⟨g, piece, rfl⟩ := List.mem_map.1 hg
    exact ⟨(sizes g piece).1, (sizes g piece).2, inner g piece, fun r hr => keys r (within g piece r hr)⟩
  · refine List.pairwise_map.2 ((full.and outer).imp fun both => ⟨fun _ => both, fun ne => absurd rfl ne⟩)

theorem claimPieces_spec (x : Arb) (fuel : Nat) : ∀ l : List Res, l.Pairwise (· < ·) → l.length ≤ 112 → l.length ≤ fuel →
    PiecesOf x l (claimPieces x fuel l) := by
  induction fuel with
  | zero =>
    intro l _ _ short
    have : l = [] := List.length_eq_zero_iff.1 (by omega)
    subst this
    exact ⟨by simp [claimPieces], by simp [claimPieces], List.Pairwise.nil⟩
  | succ fuel ih =>
    intro l sorted size short
    cases l with
    | nil => exact ⟨by simp [claimPieces], by simp [claimPieces], List.Pairwise.nil⟩
    | cons r rs =>
      let key := (x.claim r).key
      let own := (r :: rs).filter fun q => decide ((x.claim q).key = key)
      let rest := (r :: rs).filter fun q => !decide ((x.claim q).key = key)
      have mem_own {q : Res} : q ∈ own ↔ q ∈ r :: rs ∧ (x.claim q).key = key := by simp [own]
      have mem_rest {q : Res} : q ∈ rest ↔ q ∈ r :: rs ∧ (x.claim q).key ≠ key := by simp [rest]
      have fewer : rest.length ≤ rs.length := by
        have : rest = rs.filter fun q => !decide ((x.claim q).key = key) := by simp [rest, key]
        rw [this]
        exact List.length_filter_le ..
      have firsts : PiecesOf x own ((cut 16 7 own).map (Prod.mk key)) :=
        .single (sorted.filter _) ((List.length_filter_le ..).trans size) fun q hq => (mem_own.1 hq).2
      have others : PiecesOf x rest (claimPieces x fuel rest) :=
        ih rest (sorted.filter _) ((List.length_filter_le ..).trans size) (by simp at short; omega)
      have ofFirst {g} (hg : g ∈ (cut 16 7 own).map (Prod.mk key)) : g.1 = key := by
        obtain ⟨g, -, rfl⟩ := List.mem_map.1 hg
        rfl
      have ofOther {g} (hg : g ∈ claimPieces x fuel rest) : g.1 ≠ key := by
        obtain ⟨one, -, -, keys⟩ := others.piece g hg
        obtain ⟨q, hq⟩ := List.exists_mem_of_length_pos one
        rw [← keys q hq]
        exact (mem_rest.1 ((others.mem q).1 ⟨g, hg, hq⟩)).2
      refine ⟨fun q => ?_, fun g hg => ?_, List.pairwise_append.2 ⟨?_, ?_, fun f hf g hg => ?_⟩⟩
      · show (∃ g ∈ (cut 16 7 own).map (Prod.mk key) ++ claimPieces x fuel rest, q ∈ g.2) ↔ _
        simp only [List.mem_append, or_and_right, exists_or, firsts.mem, others.mem, mem_own, mem_rest]
        tauto
      · rcases List.mem_append.1 hg with first | other
        · exact firsts.piece g first
        · exact others.piece g other
      · refine firsts.order.imp_of_mem fun hf hg both => ⟨both.1, fun ne => absurd ((ofFirst hf).trans (ofFirst hg).symm) ne⟩
      · refine others.order.imp_of_mem fun {f g} _ hg both => ⟨both.1, fun ne => ?_⟩
        obtain ⟨first, listed, keyed, least⟩ := both.2 ne
        exact ⟨first, (mem_rest.1 listed).1, keyed, fun q hq e => least q (mem_rest.2 ⟨hq, e ▸ ofOther hg⟩) e⟩
      · refine ⟨fun e => absurd (e.symm.trans (ofFirst hf)) (ofOther hg), fun _ =>
          ⟨r, List.mem_cons_self, (ofFirst hf).symm, fun q hq e => ?_⟩⟩
        rcases List.mem_cons.1 hq with rfl | later
        · exact absurd e.symm (ofOther hg)
        · exact (List.pairwise_cons.1 sorted).1 q later

/-! ## OUTPUT_STATE (R129) -/

theorem Output.notifiedChange_iff {byEnable : Bool} {x y : Output} : Output.notifiedChange byEnable x y = true ↔
    x.primary ≠ y.primary ∨ x.fallback ≠ y.fallback ∨ x.failAction ≠ y.failAction ∨ x.gap ≠ y.gap ∨
      x.pathState ≠ y.pathState ∨ x.carried ≠ y.carried ∨ x.gapTarget ≠ y.gapTarget ∨
      (byEnable = true ∧ x.enable ≠ y.enable) := by
  simp only [Output.notifiedChange, Bool.or_eq_true, Bool.and_eq_true, Bool.not_eq_true', decide_eq_false_iff_not]
  tauto

/-! ## Answers and notices, placed -/

/-- An answer leaves the notices of every desk. -/
theorem Hub.putAnswer_notices (h : Hub) (who : Requester) (x : Answer) :
    (∀ d, ((h.putAnswer who x).req.desks.get d).notices = (h.req.desks.get d).notices ∧
      ((h.putAnswer who x).req.desks.get d).gapOwed = (h.req.desks.get d).gapOwed) ∧
    (h.putAnswer who x).pnl.notices = h.pnl.notices ∧ (h.putAnswer who x).pnl.gapOwed = h.pnl.gapOwed ∧
    (h.putAnswer who x).pnl.discardCount = h.pnl.discardCount := by
  unfold Hub.putAnswer
  split
  · exact ⟨fun _ => ⟨rfl, rfl⟩, rfl, rfl, rfl⟩
  · refine ⟨fun e => ?_, rfl, rfl, rfl⟩
    dsimp only
    rw [Hub.setDesk_desks]
    split
    · next same => subst same; exact ⟨rfl, rfl⟩
    · exact ⟨rfl, rfl⟩

/-- An answer places no notice. -/
theorem answerTo_noticesOf (who : Requester) (code : Code) (body : List Byte) (h : Hub) :
    (answerTo who code body h).NoticesOf h := by
  unfold answerTo
  dsimp only
  split
  · exact Hub.putAnswer_notices ..
  · exact ⟨fun _ => ⟨rfl, rfl⟩, rfl, rfl, rfl⟩

/-- An answer touches no other requester's queue. -/
theorem answerTo_queue_other {who r : Requester} (ne : r ≠ who) (code : Code) (body : List Byte) (h : Hub) :
    (answerTo who code body h).req.queues.get r = h.req.queues.get r := by
  unfold answerTo
  dsimp only
  split
  · rw [Hub.putAnswer_queues, Hub.setQueue_queues, if_neg ne]
  · rfl

/-- The answer to a request in execution clears the discarded mark (R161). -/
theorem answerTo_queue {who : Requester} {h : Hub} {e : QEntry} {es : List QEntry}
    (x : (h.req.queues.get who).executing = true) (i : (h.req.queues.get who).items = e :: es) (code : Code)
    (body : List Byte) :
    (answerTo who code body h).req.queues.get who = { h.req.queues.get who with discarded := false } := by
  rw [answerTo_eq x i, Hub.putAnswer_queues, Hub.setQueue_queues, if_pos rfl]

theorem notifyDesk_eq (d : Desk) (n : Notice) (h : Hub) :
    notifyDesk d n h = { h with req := { h.req with desks :=
      if (h.links.get d).state = .up then h.req.desks.set d ((h.req.desks.get d).place n) else h.req.desks } } := by
  unfold notifyDesk Hub.linkUp
  by_cases up : (h.links.get d).state = .up <;> simp [up, Hub.setDesk]

theorem notifyAll_eq (n : Notice) (h : Hub) :
    notifyAll n h = { h with
      req := { h.req with desks := PerDesk.of fun d =>
        if (h.links.get d).state = .up then (h.req.desks.get d).place n else h.req.desks.get d }
      pnl := h.pnl.place n } := by
  have core := notifyAll_core n h
  have desks : (notifyAll n h).req.desks = PerDesk.of fun d =>
      if (h.links.get d).state = .up then (h.req.desks.get d).place n else h.req.desks.get d := by
    refine PerDesk.ext_get fun e => ?_
    rw [notifyAll_desks, PerDesk.get_of]
    simp [Hub.linkUp]
  have req : (notifyAll n h).req = { h.req with desks := PerDesk.of fun d =>
      if (h.links.get d).state = .up then (h.req.desks.get d).place n else h.req.desks.get d } := by
    rw [← desks]
    show _ = (⟨h.req.queues, _⟩ : Req)
    rw [← notifyAll_queues n h]
  obtain ⟨now, pcu, arb, links, hlm, mon, tbk, sto, down⟩ := Hub.core_eq core
  have pnl := notifyAll_pnl n h
  revert req pnl now pcu arb links hlm mon tbk sto down
  generalize notifyAll n h = k
  intro req now pcu arb links hlm mon tbk sto down pnl
  cases k
  simp_all

/-- Settles O5: each placing by its equation, and the pieces of OUTPUT_STATE and CLAIM_CHANGED by the recursions that cut
them. -/
theorem noticesAndAnswersArePlaced : Obligations.NoticesAndAnswersArePlaced := by
  unfold Obligations.NoticesAndAnswersArePlaced
  refine ⟨fun p n => ⟨fun room => if_pos room, fun full => if_neg (by omega)⟩, fun p n => ⟨fun room => if_pos room, ?_⟩,
    notifyAll_eq, fun d n h => ⟨notifyDesk_eq d n h, ?_, ?_, rfl⟩, fun h n ns => ⟨rfl, rfl⟩, ?_, ?_, ?_⟩
  · intro full count
    refine (if_neg (by omega)).trans ?_
    congr 1
    split <;> omega
  · rw [notifyDeskPanel, notifyPanel, notifyDesk_pnl]
  · simp [notifyRequester]
  · intro byEnable x y
    let changed := (List.finRange 32).filter fun i => Output.notifiedChange byEnable (Tbl.get x i) (Tbl.get y i)
    obtain ⟨parts, sizes, full⟩ := cut_spec (n := 3) (by omega) 11 changed
      ((List.length_filter_le ..).trans (by simp))
    refine ⟨changed, cut 3 11 changed, fun i => ?_, filter_finRange_sorted _, parts, sizes,
      forall_dropLast_of_pairwise full, ?_⟩
    · simp [changed, Output.notifiedChange_iff]
    · show (cut 3 11 (changed.map _)).map _ = _
      rw [cut_map, List.map_map]
      rfl
  · intro x y
    let changed := (List.finRange 104).filter fun r => !decide ((x.claim r).key = (y.claim r).key)
    have mem {r : Res} : r ∈ changed ↔ (x.claim r).key ≠ (y.claim r).key := by simp [changed]
    have short : changed.length ≤ 104 := (List.length_filter_le ..).trans (by simp)
    obtain ⟨listed, piece, order⟩ := claimPieces_spec y 104 changed (filter_finRange_sorted _) (by omega) short
    refine ⟨claimPieces y 104 changed, fun r => (listed r).trans mem, piece, order.imp fun both => ⟨both.1, fun ne => ?_⟩,
      claimGroups_eq y 104 changed⟩
    obtain ⟨first, among, keyed, least⟩ := both.2 ne
    exact ⟨first, mem.1 among, keyed, fun q hq => least q (mem.2 hq)⟩
  · intro who code body e es h items executing
    have q : ({ h.req.queues.get who with discarded := false } : ReqQueue) = ⟨e :: es, true, false⟩ := by
      rw [← items, ← executing]
    obtain ⟨desks, panel, -, -⟩ := answerTo_noticesOf who code body h
    exact ⟨answerTo_answerOf executing items code body, (answerTo_queue executing items code body).trans q, answerTo_core ..,
      fun r ne => ⟨answerTo_answerOf_other ne .., answerTo_queue_other ne ..⟩, fun d => (desks d).1, panel⟩

/-! ## One claim record -/

/-- Settles O19: by the state and the holder of the record. -/
theorem permissionVerdictTable : Obligations.PermissionVerdictTable := by
  unfold Obligations.PermissionVerdictTable
  intro x who r
  refine ⟨fun e => ?_, fun t cs e => ?_, fun l e => ?_, fun holder l e other => ?_, fun d l t e => ?_⟩
  all_goals simp_all [Arb.permission]

/-- The winner of a contest: those before it have a lower priority, those behind no higher one (R47). -/
theorem winnerOf_spec (priority : PerReq Nat) : ∀ {cs : List (Requester × Level)}, cs ≠ [] →
    ∃ before w behind, cs = before ++ w :: behind ∧ winnerOf priority cs = some w ∧
      (∀ e ∈ before, priority.get e.1 < priority.get w.1) ∧ ∀ e ∈ behind, priority.get e.1 ≤ priority.get w.1
  | [], some_ => absurd rfl some_
  | e :: [], _ => ⟨[], e, [], rfl, rfl, by simp, by simp⟩
  | e :: e' :: es, _ => by
    obtain ⟨before, w, behind, split_, won, lower, rest⟩ := winnerOf_spec priority (List.cons_ne_nil e' es)
    have eq : winnerOf priority (e :: e' :: es) = if priority.get e.1 < priority.get w.1 then some w else some e := by
      rw [winnerOf, won]
    by_cases less : priority.get e.1 < priority.get w.1
    · refine ⟨e :: before, w, behind, by rw [split_]; rfl, eq.trans (if_pos less), fun x hx => ?_, rest⟩
      rcases List.mem_cons.1 hx with rfl | later
      · exact less
      · exact lower x later
    · refine ⟨[], e, e' :: es, rfl, eq.trans (if_neg less), by simp, fun x hx => ?_⟩
      rw [split_] at hx
      rcases List.mem_append.1 hx with early | late
      · exact (Nat.le_of_lt (lower x early)).trans (Nat.not_lt.1 less)
      · rcases List.mem_cons.1 late with rfl | late
        · exact Nat.not_lt.1 less
        · exact (rest x late).trans (Nat.not_lt.1 less)

/-- A requester that contends already has its level replaced in place, another joins at the tail (R44). -/
theorem joinContest_eq (cs : List (Requester × Level)) (who : Requester) (l : Level) :
    ((∀ e ∈ cs, e.1 ≠ who) → joinContest cs who l = cs ++ [(who, l)]) ∧
    ((∃ e ∈ cs, e.1 = who) → joinContest cs who l = cs.map fun e => if e.1 = who then (who, l) else e) := by
  refine ⟨fun absent => if_neg fun any => ?_, fun ⟨e, he, own⟩ => if_pos ?_⟩
  · obtain ⟨e, he, own⟩ := List.any_eq_true.1 any
    exact absent e he (of_decide_eq_true own)
  · exact List.any_eq_true.2 ⟨e, he, decide_eq_true own⟩

/-- Settles O20: the rows of Tables 3-4 and 3-5 by the record as found, and the winner by recursion on the contenders. -/
theorem claimRecordTables : Obligations.ClaimRecordTables := by
  unfold Obligations.ClaimRecordTables
  refine ⟨fun now window who h l hl d t o cs => ?_, fun priority cs => winnerOf_spec priority⟩
  obtain ⟨joins, replaces⟩ := joinContest_eq cs who l
  refine ⟨rfl, fun pos => if_neg (by omega), fun absent => ?_, fun present => ?_, if_pos rfl, fun other => ?_, rfl, if_pos rfl,
    fun other => if_neg other, rfl, rfl, rfl, rfl, rfl, if_pos rfl, fun other => if_neg other, fun other => if_neg other,
    rfl, rfl⟩
  · rw [claimRecord, joins absent]
  · rw [claimRecord, replaces present]
  · cases hl <;> exact if_neg other

end Sys2Proof.Machine
end

/-!
CLAIM, RELEASE, OVERRIDE, FREEZE and the claim timers, row by row (R43 to R54, R57, R60). The records and outcomes are those
of `Arb.Moves`; what is said here of the notices, the answers of the pending claims and the rest of the part is said once
for all of them.
-/
section
namespace Sys2Proof.Machine

/-! ## Notices placed alike -/

/-- Two parts in which a notice is placed alike: the same notices wait and the same links are UP. -/
structure Hub.Alike (h k : Hub) : Prop where
  notices : h.NoticesOf k
  up : ∀ d, h.linkUp d = k.linkUp d

theorem Hub.NoticesOf.refl (h : Hub) : h.NoticesOf h := ⟨fun _ => ⟨rfl, rfl⟩, rfl, rfl, rfl⟩

theorem Hub.NoticesOf.trans {h k m : Hub} (a : h.NoticesOf k) (b : k.NoticesOf m) : h.NoticesOf m := by
  obtain ⟨desks, notices, gap, count⟩ := a
  obtain ⟨desks', notices', gap', count'⟩ := b
  exact ⟨fun d => ⟨(desks d).1.trans (desks' d).1, (desks d).2.trans (desks' d).2⟩, notices.trans notices', gap.trans gap',
    count.trans count'⟩

theorem DeskPort.place_alike {p q : DeskPort} (notices : p.notices = q.notices) (gap : p.gapOwed = q.gapOwed) (n : Notice) :
    (p.place n).notices = (q.place n).notices ∧ (p.place n).gapOwed = (q.place n).gapOwed := by
  unfold DeskPort.place
  rw [notices, gap]
  split <;> exact ⟨rfl, rfl⟩

theorem Pnl.place_alike {p q : Pnl} (notices : p.notices = q.notices) (gap : p.gapOwed = q.gapOwed)
    (count : p.discardCount = q.discardCount) (n : Notice) :
    (p.place n).notices = (q.place n).notices ∧ (p.place n).gapOwed = (q.place n).gapOwed ∧
      (p.place n).discardCount = (q.place n).discardCount := by
  unfold Pnl.place
  rw [notices, gap, count]
  split <;> exact ⟨rfl, rfl, rfl⟩

section
variable {h k : Hub}

theorem Hub.Alike.notifyDesk (a : h.Alike k) (d : Desk) (n : Notice) :
    (notifyDesk d n h).Alike (notifyDesk d n k) := by
  obtain ⟨⟨desks, panel⟩, up⟩ := a
  refine ⟨⟨fun e => ?_, by simpa using panel⟩, fun e => by simp [up]⟩
  rw [notifyDesk_desks, notifyDesk_desks, up d]
  split
  · exact DeskPort.place_alike (desks d).1 (desks d).2 n
  · exact desks e

theorem Hub.Alike.notifyPanel (a : h.Alike k) (n : Notice) : (notifyPanel n h).Alike (notifyPanel n k) := by
  obtain ⟨⟨desks, notices, gap, count⟩, up⟩ := a
  exact ⟨⟨desks, Pnl.place_alike notices gap count n⟩, up⟩

theorem Hub.Alike.notifyAll (a : h.Alike k) (n : Notice) : (notifyAll n h).Alike (notifyAll n k) :=
  (((a.notifyDesk .a n).notifyDesk .b n).notifyDesk .c n).notifyPanel n

theorem Hub.Alike.notifyEach (a : h.Alike k) (ns : List Notice) : (notifyEach ns h).Alike (notifyEach ns k) := by
  induction ns generalizing h k with
  | nil => exact a
  | cons n ns ih => exact ih (a.notifyAll n)

theorem Hub.Alike.notifyRequester (a : h.Alike k) (r : Requester) (n : Notice) :
    (notifyRequester r n h).Alike (notifyRequester r n k) := by
  unfold Machine.notifyRequester
  cases r.desk with
  | none => exact a.notifyPanel n
  | some d => exact a.notifyDesk d n

end

/-! ## What a requester waits for -/

/-- A requester waits for the same in two parts: its pending claim, its queue and its answer. -/
structure Hub.SameFor (h k : Hub) (who : Requester) : Prop where
  pending : h.arb.pendingClaims.get who = k.arb.pendingClaims.get who
  queue : h.req.queues.get who = k.req.queues.get who
  answer : h.answerOf who = k.answerOf who
  slot : ∀ d : Desk, who = d.req → (h.req.desks.get d).answer = (k.req.desks.get d).answer

section
variable {h k m : Hub} {who : Requester}

theorem Hub.SameFor.refl (h : Hub) (who : Requester) : h.SameFor h who := ⟨rfl, rfl, rfl, fun _ _ => rfl⟩

theorem Hub.SameFor.trans (a : h.SameFor k who) (b : k.SameFor m who) : h.SameFor m who :=
  ⟨a.pending.trans b.pending, a.queue.trans b.queue, a.answer.trans b.answer, fun d e => (a.slot d e).trans (b.slot d e)⟩

/-- What the requester waits for is as the event left it. -/
theorem Hub.ClaimAnswered.of_same {t t' told : Hub} {pc : PendingClaim} (a : t.ClaimAnswered h told who pc)
    (same : t'.SameFor t who) : t'.ClaimAnswered h told who pc := by
  obtain ⟨pending, queue, answer, slot⟩ := same
  obtain ⟨waits, answered⟩ := a
  refine ⟨fun open_ => ?_, fun done => ?_⟩
  · obtain ⟨pending', answer', queue'⟩ := waits open_
    exact ⟨pending.trans pending', answer.trans answer', queue.trans queue'⟩
  · obtain ⟨pending', rest⟩ := answered done
    refine ⟨pending.trans pending', fun e es items executing => ?_⟩
    obtain ⟨answer', queue', ahead⟩ := rest e es items executing
    exact ⟨answer.trans answer', queue.trans queue', fun d e => (congrArg _ (slot d e)).trans (ahead d e)⟩

end

theorem notifyDesk_sameFor (d : Desk) (n : Notice) (h : Hub) (who : Requester) : (notifyDesk d n h).SameFor h who := by
  have arb : (notifyDesk d n h).arb = h.arb := (notifyDesk_quiet d n h).arb
  refine ⟨by rw [arb], by rw [notifyDesk_queues], notifyDesk_answerOf .., fun e _ => ?_⟩
  rw [notifyDesk_desks]
  split
  · next both => rw [both.1]; exact (DeskPort.place_other _ n).2.1
  · rfl

theorem notifyPanel_sameFor (n : Notice) (h : Hub) (who : Requester) : (notifyPanel n h).SameFor h who :=
  ⟨rfl, rfl, notifyPanel_answerOf .., fun _ _ => rfl⟩

theorem notifyAll_sameFor (n : Notice) (h : Hub) (who : Requester) : (notifyAll n h).SameFor h who :=
  (notifyPanel_sameFor n _ who).trans ((notifyDesk_sameFor .c n _ who).trans
    ((notifyDesk_sameFor .b n _ who).trans (notifyDesk_sameFor .a n h who)))

theorem notifyEach_sameFor (ns : List Notice) (who : Requester) : ∀ h : Hub, (notifyEach ns h).SameFor h who := by
  induction ns with
  | nil => exact fun h => .refl h who
  | cons n ns ih => exact fun h => (ih (notifyAll n h)).trans (notifyAll_sameFor n h who)

theorem notifyRequester_sameFor (r : Requester) (n : Notice) (h : Hub) (who : Requester) :
    (notifyRequester r n h).SameFor h who := by
  unfold notifyRequester
  split
  · exact notifyPanel_sameFor n h who
  · exact notifyDesk_sameFor _ n h who

theorem Requester.desk_some {who : Requester} {d : Desk} : who.desk = some d ↔ who = d.req := by
  cases who <;> cases d <;> simp [Requester.desk, Desk.req]

/-- An answer stands behind the notices of its desk and in no other slot (R163). -/
theorem Hub.putAnswer_slot (h : Hub) (who : Requester) (x : Answer) (d : Desk) :
    ((h.putAnswer who x).req.desks.get d).answer =
      if who = d.req then some ⟨x, (h.req.desks.get d).notices.length⟩ else (h.req.desks.get d).answer := by
  unfold Hub.putAnswer
  split
  · next panel => rw [if_neg fun own => by simp [Requester.desk_some.2 own] at panel]
  · next e desk =>
    dsimp only
    rw [Hub.setDesk_desks]
    have own : who = d.req ↔ d = e := by
      rw [← Requester.desk_some, desk, Option.some.injEq, eq_comm]
    by_cases same : d = e
    · rw [if_pos same, if_pos (own.2 same), same]
    · rw [if_neg same, if_neg (mt own.1 same)]

theorem answerTo_sameFor {who y : Requester} (ne : y ≠ who) (code : Code) (body : List Byte) (h : Hub) :
    (answerTo who code body h).SameFor h y := by
  have arb : (answerTo who code body h).arb = h.arb := (answerTo_quiet who code body h).arb
  refine ⟨by rw [arb], answerTo_queue_other ne .., answerTo_answerOf_other ne .., fun d own => ?_⟩
  unfold answerTo
  dsimp only
  split
  · rw [Hub.putAnswer_slot, if_neg fun e => ne (own.trans e.symm)]
    rfl
  · rfl

/-! ## Pending claims answered (R46) -/

theorem answerClaim_sameFor {who y : Requester} (ne : y ≠ who) (h : Hub) : (answerClaim h who).SameFor h y := by
  unfold answerClaim
  split
  · exact .refl h y
  · split
    · refine (answerTo_sameFor ne ..).trans ⟨?_, rfl, rfl, fun _ _ => rfl⟩
      exact (PerReq.get_set ..).trans (if_neg ne)
    · exact .refl h y

theorem answerClaim_noticesOf (h : Hub) (who : Requester) : (answerClaim h who).NoticesOf h := by
  unfold answerClaim
  split
  · exact .refl h
  · split
    · exact answerTo_noticesOf ..
    · exact .refl h

/-- A pending claim by itself: answered when it is complete, waiting otherwise (R46). -/
theorem answerClaim_answered {h : Hub} {who : Requester} {pc : PendingClaim} (pending : h.arb.pendingClaims.get who = some pc) :
    (answerClaim h who).ClaimAnswered h h who pc := by
  let k : Hub := { h with arb := { h.arb with pendingClaims := h.arb.pendingClaims.set who none } }
  have eq : answerClaim h who = if claimComplete pc then
      answerTo who .done (outcomeBody (pc.map fun e => e.2.getD .done)) k else h := by rw [answerClaim, pending]
  have complete : claimComplete pc = true ↔ ∀ e ∈ pc, e.2 ≠ none := by
    simp [claimComplete, Option.isSome_iff_ne_none]
  rw [eq]
  refine ⟨fun ⟨e, he, none_⟩ => ?_, fun done => ?_⟩
  · rw [if_neg fun c => complete.1 c e he none_]
    exact ⟨pending, rfl, rfl⟩
  · rw [if_pos (complete.2 done)]
    refine ⟨?_, fun e es items executing =>
      ⟨answerTo_answerOf (h := k) executing items .., answerTo_queue (h := k) executing items .., ?_⟩⟩
    · rw [(answerTo_quiet ..).arb]
      exact (PerReq.get_set ..).trans (if_pos rfl)
    · rintro d rfl
      rw [answerTo_eq (h := k) executing items, Hub.putAnswer_slot, if_pos rfl]
      rfl

/-- Answering the pending claims one after another reaches each requester once. -/
theorem answerClaims_sameFor (h : Hub) (who : Requester) : ∃ k, k.SameFor h who ∧ k.NoticesOf h ∧
    (answerClaims h).SameFor (answerClaim k who) who ∧ (answerClaims h).NoticesOf h := by
  have at_ (l : List Requester) : ∀ h : Hub, (l.foldl answerClaim h).NoticesOf h ∧
      (who ∉ l → (l.foldl answerClaim h).SameFor h who) := by
    induction l with
    | nil => exact fun h => ⟨.refl h, fun _ => .refl h who⟩
    | cons y l ih =>
      intro h
      obtain ⟨notices, same⟩ := ih (answerClaim h y)
      refine ⟨notices.trans (answerClaim_noticesOf h y), fun absent => ?_⟩
      obtain ⟨other, later⟩ := not_or.1 (mt List.mem_cons.2 absent)
      exact (same later).trans (answerClaim_sameFor other h)
  obtain ⟨before, behind, split_, early, late⟩ : ∃ before behind, Requester.all = before ++ who :: behind ∧
      who ∉ before ∧ who ∉ behind := by
    cases who
    · exact ⟨[], [.b, .c, .panel], rfl, by decide, by decide⟩
    · exact ⟨[.a], [.c, .panel], rfl, by decide, by decide⟩
    · exact ⟨[.a, .b], [.panel], rfl, by decide, by decide⟩
    · exact ⟨[.a, .b, .c], [], rfl, by decide, by decide⟩
  refine ⟨before.foldl answerClaim h, (at_ before h).2 early, (at_ before h).1, ?_, (at_ Requester.all h).1⟩
  rw [answerClaims, split_, List.foldl_append, List.foldl_cons]
  exact (at_ behind _).2 late

theorem answerClaims_noticesOf (h : Hub) : (answerClaims h).NoticesOf h := by
  obtain ⟨-, -, -, -, notices⟩ := answerClaims_sameFor h .panel
  exact notices

/-- A requester's pending claim, once all are answered that are complete: `h` is the part before the event, `told` one
whose notices are those of the event. -/
theorem answerClaims_answered {k h told : Hub} {who : Requester} {pc : PendingClaim}
    (pending : k.arb.pendingClaims.get who = some pc) (queue : k.req.queues.get who = h.req.queues.get who)
    (answer : k.answerOf who = h.answerOf who) (notices : k.NoticesOf told) :
    (answerClaims k).ClaimAnswered h told who pc := by
  obtain ⟨j, same, placed, last, -⟩ := answerClaims_sameFor k who
  refine Hub.ClaimAnswered.of_same ?_ last
  obtain ⟨waits, answered⟩ := answerClaim_answered (same.pending.trans pending)
  have queue' := same.queue.trans queue
  refine ⟨fun open_ => ?_, fun done => ?_⟩
  · obtain ⟨a, b, c⟩ := waits open_
    exact ⟨a, b.trans (same.answer.trans answer), c.trans queue'⟩
  · obtain ⟨a, b⟩ := answered done
    refine ⟨a, fun e es items executing => ?_⟩
    obtain ⟨x, y, z⟩ := b e es (queue' ▸ items) (queue' ▸ executing)
    rw [queue'] at x y
    refine ⟨x, y, fun d own => ?_⟩
    rw [z d own, ((placed.trans notices).1 d).1]

/-- A requester without a pending claim is passed over. -/
theorem answerClaims_idle {k : Hub} {who : Requester} (idle : k.arb.pendingClaims.get who = none) :
    (answerClaims k).SameFor k who := by
  obtain ⟨j, same, -, last, -⟩ := answerClaims_sameFor k who
  have passed : answerClaim j who = j := by rw [answerClaim, same.pending, idle]
  rw [passed] at last
  exact last.trans same

/-! ## What ARB leaves of the part -/

/-- What the part holds besides the claims, the requests and the notices. -/
abbrev Hub.unclaimed (h : Hub) : Frame × Pcu × PerDesk Link × Hlm × Mon × Tbk × Sto × PerDesk DownFrame :=
  (h.now, h.pcu, h.links, h.hlm, h.mon, h.tbk, h.sto, h.down)

theorem Hub.unclaimed_of_core {h k : Hub} (e : h.core = k.core) : h.unclaimed = k.unclaimed := by
  obtain ⟨now, pcu, -, links, hlm, mon, tbk, sto, down⟩ := Hub.core_eq e
  simp only [Hub.unclaimed, now, pcu, links, hlm, mon, tbk, sto, down]

theorem answerTo_unclaimed (who : Requester) (code : Code) (body : List Byte) (h : Hub) :
    (answerTo who code body h).unclaimed = h.unclaimed := Hub.unclaimed_of_core (answerTo_core ..)

theorem answerClaim_unclaimed (h : Hub) (who : Requester) : (answerClaim h who).unclaimed = h.unclaimed := by
  unfold answerClaim
  split
  · rfl
  · split
    · exact answerTo_unclaimed ..
    · rfl

theorem answerClaims_unclaimed (h : Hub) : (answerClaims h).unclaimed = h.unclaimed := by
  simp only [answerClaims, Requester.all, List.foldl_cons, List.foldl_nil, answerClaim_unclaimed]

theorem commitClaims_unclaimed (x : Arb) (h : Hub) : (commitClaims x h).unclaimed = h.unclaimed :=
  (Hub.unclaimed_of_core (notifyEach_core _ { h with arb := x })).trans rfl

/-! ## CLAIM_CHANGED of an event -/

theorem claimGroups_congr {x y : Arb} (keys : ∀ r, (x.claim r).key = (y.claim r).key) (fuel : Nat) : ∀ l : List Res,
    claimGroups x fuel l = claimGroups y fuel l := by
  have pieces (fuel : Nat) : ∀ l : List Res, claimPieces x fuel l = claimPieces y fuel l := by
    induction fuel with
    | zero => exact fun l => rfl
    | succ fuel ih =>
      intro l
      cases l with
      | nil => rfl
      | cons r rs => simp only [claimPieces, keys, ih]
  exact fun l => by rw [claimGroups_eq, claimGroups_eq, pieces]

/-- The notices of an event depend on what they report of the records alone (R60). -/
theorem claimChanges_congr (b : Arb) {x y : Arb} (keys : ∀ r, (x.claim r).key = (y.claim r).key) :
    claimChanges b x = claimChanges b y := by
  simp only [claimChanges, keys, claimGroups_congr keys]

/-- The notices that a new table places: `h` is the part before the event, with what the request at hand changed of it. -/
theorem commitClaims_alike {h k : Hub} (x : Arb) (arb : k.arb = h.arb) (alike : k.Alike h) {y : Arb}
    (keys : ∀ r, (x.claim r).key = (y.claim r).key) :
    (commitClaims x k).Alike (notifyEach (claimChanges h.arb y) h) := by
  rw [commitClaims, arb, claimChanges_congr h.arb keys]
  exact Hub.Alike.notifyEach (h := { k with arb := x }) ⟨alike.notices, alike.up⟩ _

theorem Hub.taken_alike (h : Hub) (who : Requester) (tag : Byte) (c : Call) : (h.taken who tag c).Alike h :=
  ⟨.refl h, fun _ => rfl⟩

theorem commitClaims_sameFor (x : Arb) (h : Hub) (who : Requester) :
    (commitClaims x h).SameFor { h with arb := x } who := notifyEach_sameFor ..

theorem Arb.ext_of {x y : Arb} (claim : ∀ r, x.claim r = y.claim r)
    (pending : ∀ who, x.pendingClaims.get who = y.pendingClaims.get who) (frozen : x.frozen = y.frozen) : x = y := by
  have claims : x.claims = y.claims := Tbl.ext_get claim
  have pendings : x.pendingClaims = y.pendingClaims := PerReq.ext_get pending
  cases x
  cases y
  simp_all

/-- A free requester has no answer waiting. -/
theorem Free.answerOf {who : Requester} {h : Hub} (free : Free who h) : h.answerOf who = none := by
  obtain ⟨-, -, slot, -⟩ := free
  unfold Hub.slotEmpty at slot
  unfold Hub.answerOf
  cases e : who.desk <;> simp_all

theorem answerTo_taken {h k : Hub} {who : Requester} {tag : Byte} {c : Call}
    (queue : k.req.queues.get who = (h.taken who tag c).req.queues.get who) (code : Code) (body : List Byte) :
    (answerTo who code body k).answerOf who = some ⟨c.kind, tag, (h.req.queues.get who).discarded, code, body⟩ := by
  rw [Hub.taken_queue] at queue
  rw [answerTo_answerOf (by rw [queue]) (by rw [queue]), queue]

end Sys2Proof.Machine
end

/-!
The requests and timers of ARB, settled (R43 to R54, R57).
-/
section
namespace Sys2Proof.Machine

/-! ## CLAIM -/

/-- Settles O21: the records by `claimEach_moves`, the answer as that of a pending claim of its own. -/
theorem claimDecidesEachResource : Obligations.ClaimDecidesEachResource := by
  unfold Obligations.ClaimDecidesEachResource
  intro who tag ns rs n l s free named level clear
  let record := fun r => claimRecord s.hub.now s.hub.sto.install.windowFrames who l (s.hub.arb.claim r)
  let call := Call.claim ns n
  let k := s.hub.taken who tag call
  obtain ⟨now, pcu, arb, links, hlm, mon, tbk, -, -, -, install, -⟩ := Hub.taken_other s.hub who tag call
  obtain ⟨-, nodup⟩ := resources?_some named
  let p := claimEach s.hub.now s.hub.sto.install.windowFrames who l rs s.hub.arb
  let x : Arb := { p.1 with pendingClaims := p.1.pendingClaims.set who (some p.2) }
  obtain ⟨⟨claim, -, frozen⟩, outcomes⟩ : s.hub.arb.Moves p.1 _ _ ∧ p.2 = rs.map fun r => (r, (record r).2) :=
    claimEach_moves s.hub.now s.hub.sto.install.windowFrames who l nodup s.hub.arb
  let c := commitClaims x k
  let t := answerClaims c
  have event : exec (.claim who tag ns n) s = .next (s.withHub t) := by
    rw [exec_request (c := call) rfl free rfl (.inl rfl)]
    refine congrArg (fun k => Host.Outcome.next (s.withHub k)) ?_
    show arbClaim who ns n k = t
    simp only [arbClaim, named, level]
    rw [show k.arb = s.hub.arb from arb, show k.now = s.hub.now from now, show k.sto.install = s.hub.sto.install from install,
      clear]
    rfl
  have carb : c.arb = x := commitClaims_arb x k
  have tclaim (r : Res) : t.arb.claim r = p.1.claim r := by rw [answerClaims_claim, carb]; rfl
  have waiting := commitClaims_sameFor x k who
  have pending : c.arb.pendingClaims.get who = some (rs.map fun r => (r, (record r).2)) := by
    rw [carb]
    exact (PerReq.get_set ..).trans ((if_pos rfl).trans (congrArg some outcomes))
  obtain ⟨waits, answered⟩ : t.ClaimAnswered k c who _ :=
    answerClaims_answered pending waiting.queue waiting.answer (.refl c)
  have besides : t.unclaimed = k.unclaimed := (answerClaims_unclaimed c).trans (commitClaims_unclaimed x k)
  simp only [Hub.unclaimed, Prod.mk.injEq] at besides
  obtain ⟨-, pcu', links', hlm', mon', tbk', -, -⟩ := besides
  refine ⟨s.withHub t, event, fun r => (tclaim r).trans (claim r), ?_, fun decided => ?_, fun ⟨r, hr, open_⟩ => ?_, ?_,
    pcu'.trans pcu, links'.trans links, hlm'.trans hlm, mon'.trans mon, tbk'.trans tbk⟩
  · exact (answerClaims_arb c).2.trans ((congrArg Arb.frozen carb).trans (frozen.trans clear))
  · obtain ⟨removed, answer⟩ := answered fun e he => by
      obtain ⟨r, hr, rfl⟩ := List.mem_map.1 he
      exact decided r hr
    have queue : k.req.queues.get who = _ := Hub.taken_queue s.hub who tag call
    obtain ⟨body, -, -⟩ := answer ⟨tag, call⟩ [] (by rw [queue]) (by rw [queue])
    rw [queue, List.map_map] at body
    exact ⟨removed, body⟩
  · obtain ⟨still, silent, -⟩ := waits ⟨(r, (record r).2), List.mem_map_of_mem hr, open_⟩
    exact ⟨silent.trans (show k.answerOf who = none from Free.answerOf (h := s.hub) free), still⟩
  · exact (answerClaims_noticesOf c).trans
      (commitClaims_alike x arb (Hub.taken_alike ..) fun r => congrArg Claim.key (tclaim r).symm).notices

/-! ## RELEASE and OVERRIDE -/

theorem Arb.claim_withClaims (x : Arb) (f : Res → Claim) (r : Res) : Arb.claim { x with claims := Tbl.of f } r = f r :=
  Tbl.get_of f r

/-- The table after a RELEASE (R49). -/
theorem releaseEach_table (who : Requester) {rs : List Res} (nodup : rs.Nodup) (x : Arb) :
    (releaseEach who rs x).1 =
      { x with claims := Tbl.of fun r => if r ∈ rs then (releaseRecord who (x.claim r)).1 else x.claim r } := by
  obtain ⟨⟨claim, pending, frozen⟩, -⟩ := releaseEach_moves who nodup x
  refine Arb.ext_of (fun r => by rw [claim, Arb.claim_withClaims]) (fun y => ?_) frozen
  rw [pending, takeOutcomes_none, Option.map_id]
  rfl

/-- RELEASE, carried out (R49). -/
theorem exec_release {who : Requester} {tag : Byte} {ns : List Nat} {rs : List Res} {s : State} (free : Free who s.hub)
    (named : resources? ns = some rs) (clear : s.hub.arb.frozen = false) :
    let arb := { s.hub.arb with claims := Tbl.of fun r =>
      if r ∈ rs then (releaseRecord who (s.hub.arb.claim r)).1 else s.hub.arb.claim r }
    exec (.release who tag ns) s = .next (s.withHub
      (answerTo who .done (outcomeBody (rs.map fun r => (releaseRecord who (s.hub.arb.claim r)).2))
        (notifyEach (claimChanges s.hub.arb arb) { s.hub.taken who tag (.release ns) with arb := arb }))) := by
  obtain ⟨-, nodup⟩ := resources?_some named
  intro arb
  rw [exec_request (c := .release ns) rfl free rfl (.inl rfl)]
  refine congrArg (fun k => Host.Outcome.next (s.withHub k)) ?_
  obtain ⟨-, -, same, -⟩ := Hub.taken_other s.hub who tag (.release ns)
  show arbRelease who ns (s.hub.taken who tag (.release ns)) = _
  simp only [arbRelease, named]
  rw [same, clear, if_neg Bool.false_ne_true, (releaseEach_moves who nodup s.hub.arb).2, releaseEach_table who nodup,
    commitClaims, same]

/-- What an OVERRIDE takes from one former holder, in resource order (R52). -/
def lostBy (who : Requester) (x : Arb) (rs : List Res) (f : Requester) : List Res :=
  (List.finRange 104).filter fun r => decide (r ∈ rs ∧ (overrideRecord who (x.claim r)).2.2 = some f)

theorem claimLostTo_eq (who : Requester) (x : Arb) (rs : List Res) (h : Hub) (f : Requester) :
    claimLostTo who (overrideLost who x rs) h f =
      if lostBy who x rs f = [] then h else notifyRequester f (.claimLost (lostBy who x rs f) who) h := by
  have lost : ((List.finRange 104).filter fun r => (overrideLost who x rs).contains (f, r)) = lostBy who x rs f := by
    unfold lostBy
    exact congrArg (List.filter · _) (funext fun r => by rw [Bool.eq_iff_iff]; simp [mem_overrideLost])
  unfold claimLostTo
  dsimp only
  rw [lost]
  simp only [List.isEmpty_iff]

theorem claimLostTo_sameFor (who : Requester) (lost : List (Requester × Res)) (h : Hub) (f y : Requester) :
    (claimLostTo who lost h f).SameFor h y := by
  unfold claimLostTo
  dsimp only
  split
  · exact .refl h y
  · exact notifyRequester_sameFor ..

theorem claimLostTo_unclaimed (who : Requester) (lost : List (Requester × Res)) (h : Hub) (f : Requester) :
    (claimLostTo who lost h f).unclaimed = h.unclaimed := by
  unfold claimLostTo
  dsimp only
  split
  · rfl
  · exact Hub.unclaimed_of_core (notifyRequester_core ..)

/-- CLAIM_LOST to every former holder (R52). -/
def tellLost (who : Requester) (x : Arb) (rs : List Res) (h : Hub) : Hub :=
  Requester.all.foldl (fun h f =>
    if lostBy who x rs f = [] then h else notifyRequester f (.claimLost (lostBy who x rs f) who) h) h

theorem claimLostTo_all (who : Requester) (x : Arb) (rs : List Res) (h : Hub) :
    Requester.all.foldl (claimLostTo who (overrideLost who x rs)) h = tellLost who x rs h := by
  have each : claimLostTo who (overrideLost who x rs) = fun h f =>
      if lostBy who x rs f = [] then h else notifyRequester f (.claimLost (lostBy who x rs f) who) h :=
    funext fun h => funext fun f => claimLostTo_eq who x rs h f
  rw [tellLost, each]

theorem Hub.Alike.tellLost {h k : Hub} (a : h.Alike k) (who : Requester) (x : Arb) (rs : List Res) :
    (tellLost who x rs h).Alike (tellLost who x rs k) := by
  have each {h k : Hub} (a : h.Alike k) (f : Requester) :
      Hub.Alike (if lostBy who x rs f = [] then h else Machine.notifyRequester f (.claimLost (lostBy who x rs f) who) h)
        (if lostBy who x rs f = [] then k else Machine.notifyRequester f (.claimLost (lostBy who x rs f) who) k) := by
    split
    · exact a
    · exact a.notifyRequester f _
  exact each (each (each (each a .a) .b) .c) .panel

theorem tellLost_sameFor (who : Requester) (x : Arb) (rs : List Res) (h : Hub) (y : Requester) :
    (tellLost who x rs h).SameFor h y := by
  rw [← claimLostTo_all]
  have each := claimLostTo_sameFor who (overrideLost who x rs)
  exact (((each _ .panel y).trans (each _ .c y)).trans (each _ .b y)).trans (each h .a y)

theorem tellLost_unclaimed (who : Requester) (x : Arb) (rs : List Res) (h : Hub) :
    (tellLost who x rs h).unclaimed = h.unclaimed := by
  rw [← claimLostTo_all]
  simp only [Requester.all, List.foldl_cons, List.foldl_nil, claimLostTo_unclaimed]

theorem tellLost_arb (who : Requester) (x : Arb) (rs : List Res) (h : Hub) : (tellLost who x rs h).arb = h.arb := by
  rw [← claimLostTo_all]
  exact (Hub.Quiet.foldl (claimLostTo_quiet who _) _ _).arb

/-- A pending claim after an OVERRIDE (R51). -/
theorem takeOutcomes_override (x : Arb) (rs : List Res) (y : Requester) (pc : PendingClaim) :
    takeOutcomes (overrideOutcome x rs y) pc = pc.map fun e =>
      if e.1 ∈ rs ∧ e.2 = none ∧ ∃ c ∈ (x.claim e.1).contenders, c.1 = y then (e.1, some .lostArbitration) else e := by
  refine List.map_congr_left fun e _ => ?_
  obtain ⟨r, o⟩ := e
  refine Eq.trans ?_ (if_congr (P := r ∈ rs ∧ o = none ∧ contends y (x.claim r).contenders = true)
    (by rw [contends_iff]) rfl rfl)
  unfold overrideOutcome
  cases o with
  | none => by_cases taken : r ∈ rs ∧ contends y (x.claim r).contenders = true <;> simp [taken]
  | some code => simp

/-- Settles O22: a RELEASE by its table, an OVERRIDE by `overrideEach_moves`, the notices of each step in turn. -/
theorem releaseAndOverride : Obligations.ReleaseAndOverride := by
  unfold Obligations.ReleaseAndOverride
  refine ⟨fun who tag ns rs s free named clear => exec_release free named clear, ?_⟩
  intro who tag ns rs s free named clear supervisor idle lost
  let call := Call.override ns
  let k := s.hub.taken who tag call
  obtain ⟨-, pcu, arb, links, hlm, mon, tbk, -, -, -, install, -⟩ := Hub.taken_other s.hub who tag call
  obtain ⟨-, nodup⟩ := resources?_some named
  let p := overrideEach who rs s.hub.arb
  obtain ⟨⟨claim, pending, frozen⟩, outcomes, lost_⟩ : s.hub.arb.Moves p.1 _ (overrideOutcome s.hub.arb rs) ∧ _ :=
    overrideEach_moves who nodup s.hub.arb
  let c := commitClaims p.1 k
  let m := tellLost who s.hub.arb rs c
  let a := answerClaims m
  let t := answerTo who .done (outcomeBody (rs.map fun r => (overrideRecord who (s.hub.arb.claim r)).2.1)) a
  have event : exec (.override who tag ns) s = .next (s.withHub t) := by
    rw [exec_request (c := call) rfl free rfl (.inl rfl)]
    refine congrArg (fun k => Host.Outcome.next (s.withHub k)) ?_
    show arbOverride who ns k = t
    simp only [arbOverride, named]
    rw [show k.arb = s.hub.arb from arb, show k.sto.install = s.hub.sto.install from install, clear, supervisor]
    show answerTo who .done (outcomeBody p.2.1) (answerClaims (Requester.all.foldl (claimLostTo who p.2.2) c)) = t
    rw [lost_, claimLostTo_all, outcomes]
  have marb : m.arb = p.1 := (tellLost_arb ..).trans (commitClaims_arb p.1 k)
  have tarb : t.arb = a.arb := (answerTo_quiet ..).arb
  have tclaim (r : Res) : t.arb.claim r = p.1.claim r := by rw [tarb, answerClaims_claim, marb]
  have waiting (y : Requester) : m.SameFor { k with arb := p.1 } y :=
    (tellLost_sameFor ..).trans (commitClaims_sameFor p.1 k y)
  have besides : t.unclaimed = k.unclaimed := (answerTo_unclaimed ..).trans ((answerClaims_unclaimed m).trans
    ((tellLost_unclaimed ..).trans (commitClaims_unclaimed p.1 k)))
  simp only [Hub.unclaimed, Prod.mk.injEq] at besides
  obtain ⟨-, pcu', links', hlm', mon', tbk', -, -⟩ := besides
  have told : m.NoticesOf (tellLost who s.hub.arb rs (notifyEach (claimChanges s.hub.arb t.arb) s.hub)) :=
    ((commitClaims_alike p.1 arb (Hub.taken_alike ..) fun r => congrArg Claim.key (tclaim r).symm).tellLost
      who s.hub.arb rs).notices
  refine ⟨s.withHub t, event, fun r => (tclaim r).trans (claim r), ?_,
    ((answerTo_noticesOf ..).trans (answerClaims_noticesOf m)).trans told, fun y pc other waits => ?_, ?_,
    pcu'.trans pcu, links'.trans links, hlm'.trans hlm, mon'.trans mon, tbk'.trans tbk⟩
  · have own : m.arb.pendingClaims.get who = none := by rw [marb, pending, idle]; rfl
    exact answerTo_taken (c := call) ((answerClaims_idle own).queue.trans (waiting who).queue) ..
  · have named_ : m.arb.pendingClaims.get y = some (takeOutcomes (overrideOutcome s.hub.arb rs y) pc) := by
      rw [marb, pending, waits]; rfl
    have answered : a.ClaimAnswered s.hub _ y _ := answerClaims_answered named_
      ((waiting y).queue.trans (by simp [k, Hub.taken, other])) ((waiting y).answer.trans rfl) told
    rw [takeOutcomes_override] at answered
    exact answered.of_same (answerTo_sameFor other ..)
  · exact (congrArg Arb.frozen tarb).trans ((answerClaims_arb m).2.trans ((congrArg Arb.frozen marb).trans (frozen.trans clear)))

end Sys2Proof.Machine
end

/-!
The decision of contested resources and the end of grace, settled (R47, R54, R57).
-/
section
namespace Sys2Proof.Machine

/-! ## The winners of an event -/

/-- The winner of each contest that an event decides. -/
def Arb.winners (x : Arb) (priority : PerReq Nat) (pick : Claim → Bool) (r : Res) : Option (Requester × Level) :=
  if pick (x.claim r) then (x.claim r).winner priority else none

/-- A decided record is its winner's, any other stands (R47). -/
theorem Arb.decideAll_claim (x : Arb) (priority : PerReq Nat) (pick : Claim → Bool) (r : Res) :
    (x.decideAll priority pick).claim r =
      match x.winners priority pick r with
      | some (w, l) => .held w l
      | none => x.claim r := by
  rw [(x.decideAll_moves priority pick).claim, Arb.winners]
  by_cases picked : pick (x.claim r) = true
  · simp only [picked, if_true, Claim.decided]
    cases (x.claim r).winner priority <;> rfl
  · simp only [picked, Bool.false_eq_true, if_false]

/-- The outcomes that the decided contests give a pending claim (R47). -/
def Arb.decidedOutcomes (x : Arb) (winner : Res → Option (Requester × Level)) (y : Requester) (pc : PendingClaim) :
    PendingClaim :=
  pc.map fun e =>
    match winner e.1 with
    | none => e
    | some (w, _) =>
      if e.2 = none ∧ ∃ c ∈ (x.claim e.1).contenders, c.1 = y then (e.1, some (if y = w then .done else .lostArbitration))
      else e

theorem Arb.decideAll_pending (x : Arb) (priority : PerReq Nat) (pick : Claim → Bool) (y : Requester) :
    (x.decideAll priority pick).pendingClaims.get y =
      (x.pendingClaims.get y).map (x.decidedOutcomes (x.winners priority pick) y) := by
  rw [(x.decideAll_moves priority pick).pending]
  refine congrArg (Option.map · _) (funext fun pc => List.map_congr_left fun e _ => ?_)
  obtain ⟨r, o⟩ := e
  unfold Arb.winners Claim.outcome
  by_cases picked : pick (x.claim r) = true
  · cases won : (x.claim r).winner priority with
    | none => simp [picked, won]
    | some p =>
      obtain ⟨w, l⟩ := p
      simp only [picked, if_true, won]
      refine Eq.trans ?_ (if_congr (P := o = none ∧ contends y (x.claim r).contenders = true) (by rw [contends_iff]) rfl rfl)
      cases o with
      | none => by_cases own : contends y (x.claim r).contenders = true <;> simp [own]
      | some code => simp
  · simp [picked]

/-- The contests of an event decided, told and the claims then complete answered: the part of WINDOW_EXPIRY and FREEZE. -/
def decideContests (pick : Claim → Bool) (h : Hub) : Hub :=
  answerClaims (commitClaims (h.arb.decideAll h.sto.install.priority pick) h)

section
variable (pick : Claim → Bool) (h : Hub)

theorem decideContests_claim (r : Res) : (decideContests pick h).arb.claim r =
    match h.arb.winners h.sto.install.priority pick r with
    | some (w, l) => .held w l
    | none => h.arb.claim r := by
  rw [decideContests, answerClaims_claim, commitClaims_arb, Arb.decideAll_claim]

theorem decideContests_frozen : (decideContests pick h).arb.frozen = h.arb.frozen := by
  rw [decideContests, (answerClaims_arb _).2, commitClaims_arb, (Arb.decideAll_moves ..).frozen]

theorem decideContests_unclaimed : (decideContests pick h).unclaimed = h.unclaimed :=
  (answerClaims_unclaimed _).trans (commitClaims_unclaimed ..)

theorem decideContests_idle {who : Requester} (idle : h.arb.pendingClaims.get who = none) :
    (decideContests pick h).req.queues.get who = h.req.queues.get who := by
  have own : (commitClaims (h.arb.decideAll h.sto.install.priority pick) h).arb.pendingClaims.get who = none := by
    rw [commitClaims_arb, Arb.decideAll_pending, idle]; rfl
  exact (answerClaims_idle own).queue.trans (commitClaims_sameFor ..).queue

variable {pick h}

/-- The notices of the decision, the table being reported as it stands after the whole event: `b` is the part before it. -/
theorem decideContests_alike {b : Hub} (arb : h.arb = b.arb) (alike : h.Alike b) {y : Arb}
    (keys : ∀ r, ((decideContests pick h).arb.claim r).key = (y.claim r).key) :
    (decideContests pick h).Alike (notifyEach (claimChanges b.arb y) b) := by
  have told := commitClaims_alike (h.arb.decideAll h.sto.install.priority pick) arb alike fun r =>
    (congrArg Claim.key (by rw [decideContests, answerClaims_claim, commitClaims_arb])).symm.trans (keys r)
  refine ⟨(answerClaims_noticesOf _).trans told.notices, fun d => Eq.trans ?_ (told.up d)⟩
  have besides := answerClaims_unclaimed (commitClaims (h.arb.decideAll h.sto.install.priority pick) h)
  simp only [Hub.unclaimed, Prod.mk.injEq] at besides
  obtain ⟨-, -, links, -⟩ := besides
  exact congrArg (fun k : PerDesk Link => decide ((k.get d).state = .up)) links

theorem decideContests_answered {b told : Hub} {y : Requester} {pc : PendingClaim} (waits : h.arb.pendingClaims.get y = some pc)
    (queue : h.req.queues.get y = b.req.queues.get y) (answer : h.answerOf y = b.answerOf y)
    (notices : (decideContests pick h).NoticesOf told) :
    (decideContests pick h).ClaimAnswered b told y
      (h.arb.decidedOutcomes (h.arb.winners h.sto.install.priority pick) y pc) := by
  let c := commitClaims (h.arb.decideAll h.sto.install.priority pick) h
  have same : c.SameFor _ y := commitClaims_sameFor (h.arb.decideAll h.sto.install.priority pick) h y
  have pending : c.arb.pendingClaims.get y =
      some (h.arb.decidedOutcomes (h.arb.winners h.sto.install.priority pick) y pc) := by
    rw [commitClaims_arb, Arb.decideAll_pending, waits]; rfl
  have decided : (decideContests pick h).ClaimAnswered b c y _ :=
    answerClaims_answered pending (same.queue.trans queue) (same.answer.trans answer) (.refl c)
  obtain ⟨waiting, answered⟩ := decided
  refine ⟨waiting, fun done => ?_⟩
  obtain ⟨removed, rest⟩ := answered done
  refine ⟨removed, fun e es items executing => ?_⟩
  obtain ⟨body, left, ahead⟩ := rest e es items executing
  refine ⟨body, left, fun d own => (ahead d own).trans ?_⟩
  obtain ⟨desks, -⟩ := notices
  obtain ⟨placed, -⟩ := answerClaims_noticesOf c
  exact congrArg (some ∘ List.length) ((placed d).1.symm.trans (desks d).1)

end

/-! ## The timers -/

/-- Whose contest WINDOW_EXPIRY decides (R47). -/
theorem winners_windowDue (x : Arb) (priority : PerReq Nat) (now : Frame) (r : Res) :
    x.winners priority (Claim.windowDue now) r =
      match x.claim r with
      | .contended dl cs => if reached now dl then winnerOf priority cs else none
      | _ => none := by
  unfold Arb.winners
  cases x.claim r with
  | contended t cs => rfl
  | opened | held | orphaned => rfl

/-- The grace of a record (R54). -/
theorem graceOver_eq (now : Frame) (d : Desk) (c : Claim) :
    c.graceOver now d =
      match c with
      | .orphaned o l (some t) => if o = d ∧ reached now t = true then .opened else .orphaned o l (some t)
      | c => c := by
  cases c with
  | orphaned o l t =>
    cases t with
    | none => simp [Claim.graceOver, due]
    | some t => rfl
  | opened | held | contended => rfl

/-- Settles O23: a WINDOW_EXPIRY is the decision of the windows reached, a GRACE_EXPIRY its new table. -/
theorem claimTimersExpire : Obligations.ClaimTimersExpire := by
  unfold Obligations.ClaimTimersExpire
  refine ⟨fun s => ?_, fun d s => ?_⟩
  · let t := decideContests (Claim.windowDue s.hub.now) s.hub
    have winner : s.hub.arb.winners s.hub.sto.install.priority (Claim.windowDue s.hub.now) = _ :=
      funext fun r => winners_windowDue s.hub.arb s.hub.sto.install.priority s.hub.now r
    have told : t.Alike (notifyEach (claimChanges s.hub.arb t.arb) s.hub) :=
      decideContests_alike rfl ⟨.refl _, fun _ => rfl⟩ fun _ => rfl
    have besides : t.unclaimed = s.hub.unclaimed := decideContests_unclaimed ..
    simp only [Hub.unclaimed, Prod.mk.injEq] at besides
    obtain ⟨-, pcu, links, hlm, mon, tbk, sto, -⟩ := besides
    refine ⟨s.withHub t, rfl, fun r => ?_, told.notices, fun who pc waits => ?_, decideContests_frozen .., pcu, links, hlm,
      mon, tbk, sto⟩
    · have record : t.arb.claim r = _ := decideContests_claim (Claim.windowDue s.hub.now) s.hub r
      rw [winner] at record
      exact record
    · have answered : t.ClaimAnswered s.hub _ who _ := decideContests_answered waits rfl rfl told.notices
      rw [winner] at answered
      exact answered
  · have grace : (fun r => (s.hub.arb.claim r).graceOver s.hub.now d) = _ :=
      funext fun r => graceOver_eq s.hub.now d (s.hub.arb.claim r)
    show exec (.graceExpiry d) s = _
    refine Eq.trans (b := .next (s.withHub (commitClaims
      { s.hub.arb with claims := Tbl.of fun r => (s.hub.arb.claim r).graceOver s.hub.now d } s.hub))) rfl ?_
    rw [grace]
    rfl

/-! ## FREEZE -/

/-- FREEZE decides every contest (R57). -/
theorem winners_all (x : Arb) (priority : PerReq Nat) (r : Res) :
    x.winners priority (fun _ => true) r =
      match x.claim r with
      | .contended _ cs => winnerOf priority cs
      | _ => none := by
  unfold Arb.winners
  cases x.claim r with
  | contended t cs => rfl
  | opened | held | orphaned => rfl

@[simp] theorem Claim.noGrace_key (c : Claim) : c.noGrace.key = c.key := by cases c <;> rfl

theorem noGrace_decided (winner : Option (Requester × Level)) (c : Claim) :
    Claim.noGrace (match winner with | some (w, l) => .held w l | none => c) =
      match winner, c with
      | some (w, l), _ => .held w l
      | none, .orphaned d l _ => .orphaned d l none
      | none, c => c := by
  cases winner with
  | some p => rfl
  | none => cases c <;> rfl

/-- The table under the show freeze: no grace runs (R57). -/
def Arb.freeze (x : Arb) : Arb := { x with claims := Tbl.of fun r => (x.claim r).noGrace, frozen := true }

@[simp] theorem Arb.freeze_claim (x : Arb) (r : Res) : x.freeze.claim r = (x.claim r).noGrace := Tbl.get_of _ r

theorem Arb.freeze_frozen (x : Arb) : x.freeze.frozen = true := by unfold Arb.freeze; rfl

theorem Arb.freeze_pending (x : Arb) : x.freeze.pendingClaims = x.pendingClaims := by unfold Arb.freeze; rfl

/-- The records of the claims are nothing that a requester waits for. -/
theorem Hub.sameFor_arb (h : Hub) {x : Arb} (pending : x.pendingClaims = h.arb.pendingClaims) (who : Requester) :
    Hub.SameFor { h with arb := x } h who := ⟨congrArg (PerReq.get · who) pending, rfl, rfl, fun _ _ => rfl⟩

theorem Hub.Alike.with_arb {h k : Hub} (a : h.Alike k) (x : Arb) : Hub.Alike { h with arb := x } k := ⟨a.notices, a.up⟩

theorem Hub.unclaimed_arb (h : Hub) (x : Arb) : Hub.unclaimed { h with arb := x } = h.unclaimed := rfl

/-- Settles O24: the decision of every contest, then the frozen table and its notice. -/
theorem freezeFixesTheTable : Obligations.FreezeFixesTheTable := by
  unfold Obligations.FreezeFixesTheTable
  intro who tag s free supervisor clear idle
  let k := s.hub.taken who tag .freeze
  obtain ⟨-, pcu, arb, links, hlm, mon, tbk, -, -, -, install, -⟩ := Hub.taken_other s.hub who tag .freeze
  let h1 := decideContests (fun _ => true) k
  let h2 := { h1 with arb := h1.arb.freeze }
  let t := answerTo who .done [] (notifyAll (.freezeSet who) h2)
  have event : exec (.freeze who tag) s = .next (s.withHub t) := by
    rw [exec_request (c := .freeze) rfl free rfl (.inl rfl)]
    refine congrArg (fun k => Host.Outcome.next (s.withHub k)) ?_
    show arbFreeze who k = t
    unfold arbFreeze
    rw [show k.arb = s.hub.arb from arb, show k.sto.install = s.hub.sto.install from install, clear, supervisor,
      ← show k.arb = s.hub.arb from arb, ← show k.sto.install = s.hub.sto.install from install]
    rfl
  have tarb : t.arb = h1.arb.freeze := (answerTo_quiet ..).arb.trans (notifyAll_quiet _ h2).arb
  have winner : k.arb.winners k.sto.install.priority (fun _ => true) = _ :=
    funext fun r => winners_all k.arb k.sto.install.priority r
  rw [show k.arb = s.hub.arb from arb, show k.sto.install = s.hub.sto.install from install] at winner
  have told : h1.Alike (notifyEach (claimChanges s.hub.arb t.arb) s.hub) :=
    decideContests_alike arb (Hub.taken_alike ..) fun r => by rw [tarb, Arb.freeze_claim, Claim.noGrace_key]
  have besides : t.unclaimed = k.unclaimed := (answerTo_unclaimed ..).trans
    ((Hub.unclaimed_of_core (notifyAll_core _ h2)).trans ((Hub.unclaimed_arb ..).trans (decideContests_unclaimed ..)))
  simp only [Hub.unclaimed, Prod.mk.injEq] at besides
  obtain ⟨-, pcu', links', hlm', mon', tbk', -, -⟩ := besides
  have froze : h2.Alike _ := told.with_arb h1.arb.freeze
  have own (y : Requester) : h2.SameFor h1 y := Hub.sameFor_arb h1 (Arb.freeze_pending h1.arb) y
  refine ⟨s.withHub t, event, (congrArg Arb.frozen tarb).trans (Arb.freeze_frozen _), fun r => ?_,
    (answerTo_noticesOf ..).trans (froze.notifyAll (.freezeSet who)).notices, fun y pc other waits => ?_, ?_,
    pcu'.trans pcu, links'.trans links, hlm'.trans hlm, mon'.trans mon, tbk'.trans tbk⟩
  · have record := decideContests_claim (fun _ => true) k r
    rw [show k.arb = s.hub.arb from arb, show k.sto.install = s.hub.sto.install from install, winner] at record
    refine (congrArg (Arb.claim · r) tarb).trans ((Arb.freeze_claim ..).trans ?_)
    rw [show h1.arb.claim r = _ from record]
    exact noGrace_decided ..
  · have answered : h1.ClaimAnswered s.hub _ y _ := decideContests_answered (h := k) (arb ▸ waits)
      (by simp [k, Hub.taken, other]) rfl told.notices
    rw [show k.arb = s.hub.arb from arb, show k.sto.install = s.hub.sto.install from install, winner] at answered
    exact answered.of_same ((answerTo_sameFor other ..).trans ((notifyAll_sameFor _ h2 y).trans (own y)))
  · exact answerTo_taken (c := .freeze) ((notifyAll_sameFor _ h2 who).queue.trans
      ((own who).queue.trans (decideContests_idle _ k (arb ▸ idle)))) ..

end Sys2Proof.Machine
end

/-!
A link's entry to UP (R68, R71, R77, R78, R84): what the change of a link hands to the other blocks, step by step, and the
two events that bring a lane into service.
-/
section
namespace Sys2Proof.Machine

/-! ## What is told of a change -/

/-- Telling a change touches nothing but notices. -/
structure Hub.Told (h k : Hub) : Prop where
  core : k.core = h.core
  queues : k.req.queues = h.req.queues
  answers : ∀ who, k.answerOf who = h.answerOf who

section
variable {h k m : Hub}

theorem Hub.Told.refl (h : Hub) : h.Told h := ⟨rfl, rfl, fun _ => rfl⟩

theorem Hub.Told.trans (a : h.Told k) (b : k.Told m) : h.Told m :=
  ⟨b.core.trans a.core, b.queues.trans a.queues, fun who => (b.answers who).trans (a.answers who)⟩

end

theorem notifyDeskPanel_told (d : Desk) (n : Notice) (h : Hub) : h.Told (notifyDeskPanel d n h) := ⟨by simp, by simp, by simp⟩

theorem notifyAll_told (n : Notice) (h : Hub) : h.Told (notifyAll n h) := ⟨by simp, by simp, by simp⟩

theorem notifyEach_told (ns : List Notice) (h : Hub) : h.Told (notifyEach ns h) := ⟨by simp, by simp, by simp⟩

theorem tellLaneChange_told (b : Hub) (l : LaneId) (h : Hub) : h.Told (tellLaneChange b l h) := by
  unfold tellLaneChange
  split
  · exact notifyDeskPanel_told ..
  · exact .refl h

theorem tellLinkChange_told (b : Link) (d : Desk) (h : Hub) : h.Told (tellLinkChange b d h) := by
  unfold tellLinkChange
  dsimp only
  split
  · exact .refl h
  · exact notifyAll_told ..

theorem tellTest_told (d : Desk) (h : Hub) : h.Told (tellTest d h) := by
  unfold tellTest
  split
  · exact .refl h
  · exact notifyDeskPanel_told ..

/-- A lane whose state and qualification stand is not told. -/
theorem tellLaneChange_same {b h : Hub} {l : LaneId} (state : (b.lane l).state = (h.lane l).state)
    (qualified : (b.lane l).qualified = (h.lane l).qualified) : tellLaneChange b l h = h :=
  if_neg (by simp [state, qualified])

/-- A lane whose state changed, or whose qualification while it is ACTIVE, is told. -/
theorem tellLaneChange_changed {b h : Hub} {l : LaneId} (changed : (b.lane l).state ≠ (h.lane l).state ∨
    ((h.lane l).state = .active ∧ (b.lane l).qualified ≠ (h.lane l).qualified)) :
    tellLaneChange b l h = notifyDeskPanel l.link (.laneState l (h.lane l).state (h.lane l).qualified (h.links.get l.link).skew) h :=
  if_pos changed

theorem tellLinkChange_same {b : Link} {d : Desk} {h : Hub} (state : b.state = (h.links.get d).state)
    (active : b.activeLane = (h.links.get d).activeLane) (provisional : b.provisional = (h.links.get d).provisional) :
    tellLinkChange b d h = h := if_pos ⟨state, active, provisional⟩

theorem tellLinkChange_changed {b : Link} {d : Desk} {h : Hub} (changed : b.state ≠ (h.links.get d).state ∨
    b.activeLane ≠ (h.links.get d).activeLane ∨ b.provisional ≠ (h.links.get d).provisional) :
    tellLinkChange b d h = notifyAll (.linkState d (h.links.get d).state (h.links.get d).activeLane (h.links.get d).provisional) h :=
  if_neg (by tauto)

/-- The lanes and the link as they are told of, no test being resumed. -/
def tellLink (b : Hub) (d : Desk) (first : Side) (h : Hub) : Hub :=
  tellLinkChange (b.links.get d) d (tellLaneChange b ⟨d, first.other⟩ (tellLaneChange b ⟨d, first⟩ h))

theorem settleLink_plain {b h : Hub} {d : Desk} (plain : resumeTest d h = none) (first : Side) :
    settleLink b d first h = linkEvent (b.links.get d).state d (tellLink b d first h) := by
  simp [settleLink, plain, tellLink]

theorem tellLink_told (b : Hub) (d : Desk) (first : Side) (h : Hub) : h.Told (tellLink b d first h) :=
  ((tellLaneChange_told ..).trans (tellLaneChange_told ..)).trans (tellLinkChange_told ..)

theorem Hub.Told.links {h k : Hub} (t : h.Told k) : k.links = h.links := congrArg Core.links t.core

theorem Hub.Told.lane {h k : Hub} (t : h.Told k) (l : LaneId) : k.lane l = h.lane l := by rw [Hub.lane, t.links]; rfl

theorem resumeTest_untested {d : Desk} {h : Hub} (test : h.hlm.tests.get d = none) : resumeTest d h = none := by
  simp [resumeTest, test]

/-- No test resumes unless one lane is READY and the other ACTIVE and qualified (R108). -/
theorem resumeTest_none {d : Desk} {h : Hub} (lanes : ∀ side : Side, ((h.links.get d).lane side).state ≠ .ready ∨
    ((h.links.get d).lane side.other).state ≠ .active ∨ ((h.links.get d).lane side.other).qualified = false) :
    resumeTest d h = none := by
  unfold resumeTest
  split
  · rfl
  · next t _ =>
    refine if_neg ?_
    simp only [resumable, decide_eq_true_eq]
    rintro ⟨-, ready, active, qualified⟩
    rcases lanes t.lane with a | a | a
    · exact a ready
    · exact a active
    · rw [qualified] at a; cases a

/-! ## The Output Table of an event (R118, R129) -/

/-- The outputs of an event with their revert timers started where R118 requires. -/
def Hub.withReverts (h : Hub) (outs : Vector Output 32) : Vector Output 32 :=
  Tbl.of fun i => (Tbl.get outs i).startRevert h.now h.sto.install.revertDelay h.linkUp

theorem commitMon_eq (byEnable : Bool) (outs : Vector Output 32) (h : Hub) : commitMon byEnable outs h =
    notifyEach (outputChanges byEnable h.mon.outputs (h.withReverts outs))
      { h with mon := { h.mon with outputs := h.withReverts outs } } := rfl

theorem commitMon_outputs (byEnable : Bool) (outs : Vector Output 32) (h : Hub) :
    (commitMon byEnable outs h).mon = { h.mon with outputs := h.withReverts outs } := by
  rw [commitMon_eq]
  obtain ⟨-, -, -, -, -, mon, -⟩ := Hub.core_eq (notifyEach_core (outputChanges byEnable h.mon.outputs (h.withReverts outs))
    { h with mon := { h.mon with outputs := h.withReverts outs } })
  exact mon

theorem commitMon_others (byEnable : Bool) (outs : Vector Output 32) (h : Hub) :
    (commitMon byEnable outs h).now = h.now ∧ (commitMon byEnable outs h).pcu = h.pcu ∧
    (commitMon byEnable outs h).arb = h.arb ∧ (commitMon byEnable outs h).links = h.links ∧
    (commitMon byEnable outs h).hlm = h.hlm ∧ (commitMon byEnable outs h).tbk = h.tbk ∧
    (commitMon byEnable outs h).sto = h.sto ∧ (commitMon byEnable outs h).req.queues = h.req.queues := by
  rw [commitMon_eq]
  obtain ⟨now, pcu, arb, links, hlm, -, tbk, sto, -⟩ := Hub.core_eq (notifyEach_core
    (outputChanges byEnable h.mon.outputs (h.withReverts outs)) { h with mon := { h.mon with outputs := h.withReverts outs } })
  exact ⟨now, pcu, arb, links, hlm, tbk, sto, by rw [notifyEach_queues]⟩

theorem commitMon_output (byEnable : Bool) (outs : Vector Output 32) (h : Hub) (i : Out) :
    (commitMon byEnable outs h).mon.output i =
      (Tbl.get outs i).startRevert h.now h.sto.install.revertDelay h.linkUp := by
  rw [commitMon_outputs]
  exact Tbl.get_of ..

theorem Hub.Alike.with_mon {h k : Hub} (a : h.Alike k) (m : Mon) : Hub.Alike { h with mon := m } k := ⟨a.notices, a.up⟩

/-- OUTPUT_STATE of a new Output Table. -/
theorem commitMon_alike {h k : Hub} (a : h.Alike k) (byEnable : Bool) (outs : Vector Output 32) :
    (commitMon byEnable outs h).Alike
      (notifyEach (outputChanges byEnable h.mon.outputs (commitMon byEnable outs h).mon.outputs) k) := by
  rw [commitMon_outputs, commitMon_eq]
  exact (a.with_mon _).notifyEach _

/-! ## Entry to UP -/

theorem notifyEach_cons (n : Notice) (ns : List Notice) (h : Hub) : notifyEach (n :: ns) h = notifyEach ns (notifyAll n h) :=
  rfl

theorem notifyEach_append (ns ms : List Notice) (h : Hub) : notifyEach (ns ++ ms) h = notifyEach ms (notifyEach ns h) :=
  List.foldl_append ..

/-- ARB at a link's entry to UP (R55). -/
theorem arbUp_alike {h k : Hub} (a : h.Alike k) (d : Desk) : (arbUp d h).Alike (notifyEach (restoredNotices h.arb d) k) := by
  rw [arbUp_eq]
  exact (a.with_arb _).notifyEach _

theorem arbUp_arb (d : Desk) (h : Hub) : (arbUp d h).arb = h.arb.restored d := (notifyEach_quiet ..).arb

theorem arbUp_unclaimed (d : Desk) (h : Hub) : (arbUp d h).unclaimed = h.unclaimed :=
  (Hub.unclaimed_of_core (notifyEach_core ..)).trans (Hub.unclaimed_arb ..)

theorem linkEvent_same {st : LinkState} {d : Desk} {h : Hub} (same : (h.links.get d).state = st) : linkEvent st d h = h := by
  unfold linkEvent
  rw [same]
  cases st <;> rfl

theorem linkEvent_downUp {d : Desk} {h : Hub} (up : (h.links.get d).state = .up) :
    linkEvent .down d h = hlmUp d (monUp (arbUp d h)) := by
  unfold linkEvent
  simp only [up]

theorem linkEvent_holdoverUp {d : Desk} {h : Hub} (up : (h.links.get d).state = .up) :
    linkEvent .holdover d h = monUp (arbUp d h) := by
  unfold linkEvent
  simp only [up]

/-- A link that came UP on a lane: `b` is the part before, `k` the link's new record (R77, R78, R84). -/
structure Hub.CameUp (b : Hub) (l : LaneId) (k : Link) (t : Hub) : Prop where
  links : t.links = (b.setLink l.link k).links
  arb : t.arb = b.arb.restored l.link
  output : ∀ i, t.mon.output i =
    ((b.mon.output i).linkEnters t.linkUp).startRevert b.now b.sto.install.revertDelay t.linkUp
  notices : t.NoticesOf (notifyEach
    (.linkState l.link .up k.activeLane k.provisional ::
      (restoredNotices b.arb l.link ++ outputChanges false b.mon.outputs t.mon.outputs))
    (notifyDeskPanel l.link (.laneState l (k.lane l.side).state (k.lane l.side).qualified k.skew) { b with links := t.links }))
  pcu : t.pcu = b.pcu
  tbk : t.tbk = b.tbk
  sto : t.sto = b.sto
  hlm : (b.links.get l.link).state = .holdover → t.hlm = b.hlm

/-- The test of a link that comes UP from DOWN is removed (R109). -/
theorem Hub.CameUp.untested {b : Hub} {l : LaneId} {k : Link} {t : Hub} (c : b.CameUp l k t)
    (held : (b.links.get l.link).state ≠ .holdover) : b.CameUp l k (hlmUp l.link t) :=
  ⟨c.links, c.arb, c.output, c.notices, c.pcu, c.tbk, c.sto, fun h => absurd h held⟩

/-- The changes of a link that comes UP, told. -/
theorem tellLink_up {b : Hub} {l : LaneId} {k : Link} (was : (b.links.get l.link).state ≠ .up) (up : k.state = .up)
    (lane : (b.lane l).state ≠ (k.lane l.side).state) (other : k.lane l.side.other = b.lane (otherLane l)) :
    tellLink b l.link l.side (b.setLink l.link k) = notifyAll (.linkState l.link .up k.activeLane k.provisional)
      (notifyDeskPanel l.link (.laneState l (k.lane l.side).state (k.lane l.side).qualified k.skew) (b.setLink l.link k)) := by
  let h := b.setLink l.link k
  have own : h.links.get l.link = k := by simp [h]
  have at_ (side : Side) : h.lane ⟨l.link, side⟩ = k.lane side := by rw [Hub.lane, own]
  have mine : h.lane l = k.lane l.side := at_ l.side
  have first : tellLaneChange b l h = notifyDeskPanel l.link (.laneState l (k.lane l.side).state (k.lane l.side).qualified k.skew) h := by
    rw [tellLaneChange_changed (.inl (mine ▸ lane)), mine, own]
  let n := notifyDeskPanel l.link (.laneState l (k.lane l.side).state (k.lane l.side).qualified k.skew) h
  have told : h.Told n := notifyDeskPanel_told ..
  have second : tellLaneChange b ⟨l.link, l.side.other⟩ n = n := by
    have same : n.lane ⟨l.link, l.side.other⟩ = b.lane ⟨l.link, l.side.other⟩ :=
      (told.lane _).trans ((at_ _).trans other)
    exact tellLaneChange_same (by rw [same]) (by rw [same])
  have link : n.links.get l.link = k := by rw [told.links, own]
  unfold tellLink
  rw [show tellLaneChange b ⟨l.link, l.side⟩ h = n from first, second,
    tellLinkChange_changed (.inl (by rw [link, up]; exact was)), link, up]

theorem settleLink_cameUp {b : Hub} {l : LaneId} {k : Link} (was : (b.links.get l.link).state ≠ .up) (up : k.state = .up)
    (lane : (b.lane l).state ≠ (k.lane l.side).state) (other : k.lane l.side.other = b.lane (otherLane l))
    (plain : resumeTest l.link (b.setLink l.link k) = none) :
    b.CameUp l k (settleLink b l.link l.side (b.setLink l.link k)) := by
  let h := b.setLink l.link k
  let n := tellLink b l.link l.side h
  have told : h.Told n := tellLink_told ..
  obtain ⟨now, pcu, arb, links, hlm, mon, tbk, sto, -⟩ := Hub.core_eq told.core
  let m := arbUp l.link n
  have arb' : m.arb = n.arb.restored l.link := arbUp_arb l.link n
  have besides : m.unclaimed = n.unclaimed := arbUp_unclaimed l.link n
  simp only [Hub.unclaimed, Prod.mk.injEq] at besides
  obtain ⟨now', pcu', links', hlm', mon', tbk', sto', -⟩ := besides
  let outs : Vector Output 32 := Tbl.of fun i => (m.mon.output i).linkEnters m.linkUp
  let u := commitMon false outs m
  obtain ⟨-, upcu, uarb, ulinks, uhlm, utbk, usto, -⟩ := commitMon_others false outs m
  have ulinks : u.links = h.links := ulinks.trans (links'.trans links)
  have now_ : (n.links.get l.link).state = .up := by rw [links]; simp [h, up]
  have event : settleLink b l.link l.side h = u ∨
      ((b.links.get l.link).state ≠ .holdover ∧ settleLink b l.link l.side h = hlmUp l.link u) := by
    rw [settleLink_plain plain]
    cases e : (b.links.get l.link).state with
    | up => exact absurd e was
    | down => exact .inr ⟨by simp, linkEvent_downUp now_⟩
    | holdover => exact .inl (linkEvent_holdoverUp now_)
  have came : b.CameUp l k u := by
    have monSame : m.mon = b.mon := mon'.trans mon
    have upSame : m.linkUp = u.linkUp := funext fun d => by
      rw [Hub.linkUp, Hub.linkUp, ulinks, show m.links = h.links from links'.trans links]
    refine ⟨ulinks, uarb.trans (arb'.trans (congrArg (Arb.restored · l.link) arb)), fun i => ?_, ?_,
      upcu.trans (pcu'.trans pcu), utbk.trans (tbk'.trans tbk), usto.trans (sto'.trans sto),
      fun _ => uhlm.trans (hlm'.trans hlm)⟩
    · have output : u.mon.output i = _ := commitMon_output false outs m i
      rw [Tbl.get_of, upSame, monSame, show m.now = b.now from now'.trans now,
        show m.sto = b.sto from sto'.trans sto] at output
      exact output
    · have base : h.Alike { b with links := u.links } := ⟨⟨fun _ => ⟨rfl, rfl⟩, rfl, rfl, rfl⟩, fun d => by
        rw [Hub.linkUp, Hub.linkUp, ← ulinks]⟩
      have notices : n = _ := tellLink_up was up lane other
      have a1 : n.Alike (notifyAll (.linkState l.link .up k.activeLane k.provisional)
          (notifyDeskPanel l.link (.laneState l (k.lane l.side).state (k.lane l.side).qualified k.skew)
            { b with links := u.links })) := by
        rw [notices]
        exact ((base.notifyDesk l.link _).notifyPanel _).notifyAll _
      have a2 := commitMon_alike (arbUp_alike a1 l.link) false outs
      rw [← notifyEach_append, ← notifyEach_cons, show n.arb = b.arb from arb, show (arbUp l.link n).mon = b.mon from monSame] at a2
      exact Hub.Alike.notices (h := u) a2
  rcases event with e | ⟨held, e⟩
  · rw [e]; exact came
  · rw [e]
    exact came.untested held

/-- The claims of a desk that comes back (R55). -/
theorem Arb.restored_records (x : Arb) (d : Desk) :
    (∀ r level o, x.claim r = .orphaned d level o → (x.restored d).claim r = .held d.req level) ∧
    ∀ r, (∀ level o, x.claim r ≠ .orphaned d level o) → (x.restored d).claim r = x.claim r := by
  refine ⟨fun r level o e => by simp [e, Claim.restore], fun r other => ?_⟩
  rw [Arb.restored_claim]
  cases e : x.claim r with
  | orphaned o level t => exact if_neg fun (same : o = d) => other level t (same ▸ e)
  | opened | held | contended => rfl

theorem restoredAt_eq (x : Arb) (d : Desk) (level : Level) : restoredAt x d level = (List.finRange 104).filter fun r =>
    decide ((x.claim r).state = .orphaned ∧ (x.claim r).holder = some d.req ∧ (x.claim r).level = some level) := by
  refine List.filter_congr fun r _ => ?_
  cases x.claim r <;> simp [Claim.state, Claim.holder, Claim.level]

end Sys2Proof.Machine
end

/-!
ACQUISITION_COMPLETE and QUALIFICATION_COMPLETE (R68, R71, R78, R84).
-/
section
namespace Sys2Proof.Machine

/-! ## A lane's record replaced -/

/-- The record of a link with one lane's record replaced. -/
def Link.withLane (k : Link) (side : Side) (r : LaneRec) : Link := { k with lanes := k.lanes.set side r }

theorem Link.withLane_lane (k : Link) (side x : Side) (r : LaneRec) :
    (k.withLane side r).lane x = if x = side then r else k.lane x := PerSide.get_set ..

theorem Hub.setLane_eq (h : Hub) (l : LaneId) (r : LaneRec) :
    h.setLane l r = h.setLink l.link ((h.links.get l.link).withLane l.side r) := rfl

theorem Hub.setLane_link (h : Hub) (l : LaneId) (r : LaneRec) :
    (h.setLane l r).links.get l.link = (h.links.get l.link).withLane l.side r := by
  rw [Hub.setLane_eq, Hub.setLink_links, if_pos rfl]

theorem Hub.setLink_setLink (h : Hub) (d : Desk) (k k' : Link) : (h.setLink d k).setLink d k' = h.setLink d k' := by
  simp [Hub.setLink]

theorem otherLane_ne (l : LaneId) : otherLane l ≠ l := fun e => Side.other_ne l.side (congrArg LaneId.side e)

/-- The lane's partner is the lane of the link's other side. -/
theorem Hub.lane_other (h : Hub) (l : LaneId) : h.lane (otherLane l) = (h.links.get l.link).lane l.side.other := rfl

theorem Side.eq_or_other (x side : Side) : x = side ∨ x = side.other := by cases x <;> cases side <;> simp [Side.other]

/-- A change of one lane alone, told: no other block has a part in it. -/
theorem settleLink_setLane {b : Hub} {l : LaneId} {r : LaneRec} (changed : (b.lane l).state ≠ r.state ∨
      (r.state = .active ∧ (b.lane l).qualified ≠ r.qualified)) (plain : resumeTest l.link (b.setLane l r) = none) :
    settleLink b l.link l.side (b.setLane l r) =
      notifyDeskPanel l.link (.laneState l r.state r.qualified ((b.setLane l r).links.get l.link).skew) (b.setLane l r) := by
  let h := b.setLane l r
  let n := notifyDeskPanel l.link (.laneState l r.state r.qualified (h.links.get l.link).skew) h
  have told : h.Told n := notifyDeskPanel_told ..
  have own : h.lane l = r := by simp [h]
  have link : h.links.get l.link = (b.links.get l.link).withLane l.side r := Hub.setLane_link ..
  have first : tellLaneChange b ⟨l.link, l.side⟩ h = n :=
    (tellLaneChange_changed (l := l) (by rwa [own])).trans (by rw [own])
  have partner : n.lane (otherLane l) = b.lane (otherLane l) := by rw [told.lane]; simp [h, otherLane_ne]
  have second : tellLaneChange b ⟨l.link, l.side.other⟩ n = n :=
    tellLaneChange_same (l := otherLane l) (by rw [partner]) (by rw [partner])
  have nlink : n.links.get l.link = (b.links.get l.link).withLane l.side r := by rw [told.links, link]
  have third : tellLinkChange (b.links.get l.link) l.link n = n :=
    tellLinkChange_same (by rw [nlink]; rfl) (by rw [nlink]; rfl) (by rw [nlink]; rfl)
  rw [settleLink_plain plain, tellLink, first, second, third]
  have state : (b.links.get l.link).state = (n.links.get l.link).state := by rw [nlink]; rfl
  exact linkEvent_same state.symm

/-! ## Acquisition (R68) -/

/-- A lane that has acquired: QUALIFYING with the latency of the frame (R68). -/
def LaneRec.acquiredAs (r : LaneRec) (lat : Frame) (f : UpFrame) : LaneRec :=
  { r with
    state := .qualifying, latency := some lat, qualifyCount := 0, badRun := 0, qualified := false, buffer := [f]
    qualifyDue := false }

theorem skewFails_iff {other : LaneRec} {lat : Frame} : skewFails other lat = true ↔
    ∃ x, other.latency = some x ∧ other.trusted = true ∧ 32 < latencyDistance lat x := by
  unfold skewFails
  cases other.latency <;> simp

section
variable {l : LaneId} {h : Hub} {f : UpFrame}

theorem acquisitionComplete_eq (rx : (h.lane l).rx = some f) (acquiring : (h.lane l).state = .acquiring)
    (run : 4 ≤ (h.lane l).acquireRun) :
    acquisitionComplete l h =
      let h1 := h.setLane l ((h.lane l).acquiredAs (h.now - f.number) f)
      if skewFails (h.lane (otherLane l)) (h.now - f.number) then
        h.setLane l { h.lane l with acquireRun := 1, runNumber := f.number }
      else if (h.links.get l.link).state = .holdover then
        settleLink h l.link l.side (h1.setLink l.link
          ((h1.links.get l.link).enterUp h.now l.side (h.now - f.number) false))
      else settleLink h l.link l.side h1 := by
  have link : ((h.setLane l ((h.lane l).acquiredAs (h.now - f.number) f)).links.get l.link).state =
      (h.links.get l.link).state := by rw [Hub.setLane_link]; rfl
  unfold acquisitionComplete
  dsimp only
  split
  · next none_ => rw [none_] at rx; cases rx
  · next g some_ =>
    obtain rfl : g = f := Option.some.inj (some_.symm.trans rx)
    refine (if_pos ⟨acquiring, run⟩).trans (if_congr Iff.rfl rfl ?_)
    dsimp only [LaneRec.acquiredAs] at link ⊢
    rw [← link]
    split
    · next held => exact (if_pos held).symm
    · next up => exact (if_neg (by rw [up]; simp)).symm
    · next down => exact (if_neg (by rw [down]; simp)).symm

theorem acquisitionComplete_refused (rx : (h.lane l).rx = some f) (acquiring : (h.lane l).state = .acquiring)
    (run : 4 ≤ (h.lane l).acquireRun) (far : skewFails (h.lane (otherLane l)) (h.now - f.number) = true) :
    acquisitionComplete l h = h.setLane l { h.lane l with acquireRun := 1, runNumber := f.number } :=
  (acquisitionComplete_eq rx acquiring run).trans (if_pos far)

theorem acquisitionComplete_qualifying (rx : (h.lane l).rx = some f) (acquiring : (h.lane l).state = .acquiring)
    (run : 4 ≤ (h.lane l).acquireRun) (near : ¬skewFails (h.lane (otherLane l)) (h.now - f.number) = true)
    (state : (h.links.get l.link).state ≠ .holdover) :
    acquisitionComplete l h =
      settleLink h l.link l.side (h.setLane l ((h.lane l).acquiredAs (h.now - f.number) f)) :=
  (acquisitionComplete_eq rx acquiring run).trans ((if_neg near).trans (if_neg state))

theorem acquisitionComplete_holdover (rx : (h.lane l).rx = some f) (acquiring : (h.lane l).state = .acquiring)
    (run : 4 ≤ (h.lane l).acquireRun) (near : ¬skewFails (h.lane (otherLane l)) (h.now - f.number) = true)
    (state : (h.links.get l.link).state = .holdover) :
    acquisitionComplete l h = settleLink h l.link l.side (h.setLink l.link
      (((h.links.get l.link).withLane l.side ((h.lane l).acquiredAs (h.now - f.number) f)).enterUp h.now l.side
        (h.now - f.number) false)) := by
  refine ((acquisitionComplete_eq rx acquiring run).trans ((if_neg near).trans (if_pos state))).trans ?_
  rw [Hub.setLane_link, Hub.setLane_eq, Hub.setLink_setLink]

end

theorem Link.enterUp_lane (k : Link) (now : Frame) (side x : Side) (lat : Frame) (qualified : Bool) :
    (k.enterUp now side lat qualified).lane x =
      if x = side then { k.lane side with state := .active, qualified := qualified } else k.lane x := PerSide.get_set ..

/-- The links of a part after one came UP. -/
theorem Hub.CameUp.link {b : Hub} {l : LaneId} {k : Link} {t : Hub} (c : b.CameUp l k t) :
    t.links.get l.link = k ∧ ∀ d, d ≠ l.link → t.links.get d = b.links.get d := by
  rw [c.links]
  exact ⟨by simp, fun d ne => by simp [ne]⟩

/-- CLAIM_RESTORED by the records that a desk's return finds (R55). -/
theorem restoredNotices_eq (x : Arb) (d : Desk) :
    let restored : Level → List Notice := fun level =>
      (cut 16 7 ((List.finRange 104).filter fun r =>
        decide ((x.claim r).state = .orphaned ∧ (x.claim r).holder = some d.req ∧
          (x.claim r).level = some level))).map (Notice.claimRestored d level)
    restoredNotices x d = restored .shared ++ restored .exclusive := by
  intro restored
  rw [restoredNotices, restoredAt_eq, restoredAt_eq]

/-- Settles O26: the lane by itself on a link that is not in HOLDOVER, the link's return to UP on one that is. -/
theorem acquisitionCompletes : Obligations.AcquisitionCompletes := by
  unfold Obligations.AcquisitionCompletes
  refine ⟨fun l f s acquiring run rx state => ⟨fun far => ?_, fun near => ?_⟩, ?_⟩
  · exact congrArg (fun h => Host.Outcome.next (s.withHub h))
      (acquisitionComplete_refused rx acquiring run (skewFails_iff.2 far))
  · refine congrArg (fun h => Host.Outcome.next (s.withHub h)) ((acquisitionComplete_qualifying rx acquiring run
      (mt skewFails_iff.1 near) state).trans (settleLink_setLane (.inl (by rw [acquiring]; simp [LaneRec.acquiredAs])) ?_))
    refine resumeTest_none fun side => ?_
    rw [Hub.setLane_link]
    rcases Side.eq_or_other side l.side with rfl | rfl
    · left; simp [Link.withLane_lane, LaneRec.acquiredAs]
    · right; left; simp [Link.withLane_lane, LaneRec.acquiredAs]
  · intro l f s acquiring run rx state untrusted k restored
    let lat := s.hub.now - f.number
    let r := (s.hub.lane l).acquiredAs lat f
    let k1 := (k.withLane l.side r).enterUp s.hub.now l.side lat false
    have own : k1.lane l.side = { r with state := .active, qualified := false } := by
      simp [k1, Link.enterUp_lane, Link.withLane_lane]
    have partner : k1.lane l.side.other = s.hub.lane (otherLane l) := by
      simp [k1, Link.enterUp_lane, Link.withLane_lane, Hub.lane_other, k]
    have near : ¬skewFails (s.hub.lane (otherLane l)) lat = true := by
      rw [skewFails_iff]
      rintro ⟨x, -, trusted, -⟩
      rw [untrusted] at trusted
      cases trusted
    have plain : resumeTest l.link (s.hub.setLink l.link k1) = none := by
      refine resumeTest_none fun side => ?_
      rw [Hub.setLink_links, if_pos rfl]
      rcases Side.eq_or_other side l.side with rfl | rfl
      · left; simp [own]
      · right; right; simp [own]
    let t := settleLink s.hub l.link l.side (s.hub.setLink l.link k1)
    have came : s.hub.CameUp l k1 t :=
      settleLink_cameUp (by rw [state]; simp) rfl (by rw [own, acquiring]; simp) partner plain
    have event : exec (.acquisitionComplete l) s = .next (s.withHub t) :=
      congrArg (fun h => Host.Outcome.next (s.withHub h)) (acquisitionComplete_holdover rx acquiring run near state)
    obtain ⟨link, others⟩ := came.link
    have lane : t.lane l = { r with state := .active, qualified := false } := by rw [Hub.lane, link, own]
    have down : (k.withLane l.side r).state ≠ .down := by
      show k.state ≠ .down
      rw [state]; simp
    obtain ⟨back, rest⟩ := s.hub.arb.restored_records l.link
    have notices := came.notices
    rw [show k1.activeLane = some l.side from rfl, show k1.provisional = true from rfl, restoredNotices_eq, own,
      show k1.skew = (t.links.get l.link).skew by rw [link]] at notices
    refine ⟨s.withHub t, event, by rw [link]; rfl, by rw [link]; rfl, by rw [link]; rfl, by rw [link]; rfl, ?_,
      by rw [link]; rfl, ?_, ?_, by rw [lane], by rw [lane], by rw [lane]; rfl, by rw [lane]; rfl, ?_, others, came.pcu,
      came.hlm state, came.tbk, came.sto, fun r level o e => ?_, fun r e => ?_, came.output, ?_⟩
    · rw [link]
      exact congrArg some (by simp only [lat]; bv_omega)
    · rw [link]; exact if_neg down
    · rw [link]; exact if_neg down
    · rw [Hub.lane_other, link, partner]
    · rw [came.arb]; exact back r level o e
    · rw [came.arb]; exact rest r e
    · exact notices

end Sys2Proof.Machine
end

/-!
QUALIFICATION_COMPLETE (R71, R78).
-/
section
namespace Sys2Proof.Machine

section
variable {l : LaneId} {h : Hub}

/-- The lane that counts takes qualified yes on its link: READY where the link is UP, ACTIVE where it is that already or the
link is to come UP (R71, R78). -/
theorem qualificationComplete_eq (due : (h.lane l).qualifyDue = true) (counting : (h.lane l).counting = true) :
    qualificationComplete l h =
      if (h.lane l).state = .active then
        settleLink h l.link l.side ((h.setLink l.link { h.links.get l.link with provisional := false }).setLane l
          { h.lane l with qualified := true, qualifyDue := false })
      else if (h.links.get l.link).state = .up then
        settleLink h l.link l.side (h.setLane l { h.lane l with state := .ready, qualified := true, qualifyDue := false })
      else match (h.lane l).latency with
        | some lat => settleLink h l.link l.side (h.setLink l.link
            (((h.links.get l.link).withLane l.side { h.lane l with qualifyDue := false }).enterUp h.now l.side lat true))
        | none => h := by
  unfold qualificationComplete
  dsimp only
  rw [if_pos (by rw [due, counting]; rfl : ((h.lane l).qualifyDue && (h.lane l).counting) = true), ← Hub.setLane_link]
  split
  · next active => rw [if_pos active]
  · next up other => rw [if_neg other, if_pos up]
  · next lat synced other notUp => rw [if_neg other, if_neg notUp, synced]
  · next none_ other notUp => rw [if_neg other, if_neg notUp, none_]

end

theorem LaneRec.counting_qualifying {r : LaneRec} (state : r.state = .qualifying) : r.counting = true := by
  simp [LaneRec.counting, state]

theorem LaneRec.counting_active {r : LaneRec} (state : r.state = .active) (qualified : r.qualified = false) :
    r.counting = true := by
  simp [LaneRec.counting, state, qualified]

/-- The skew depends on the latencies alone. -/
theorem Link.skew_withLane {k : Link} {side : Side} {r : LaneRec} (same : r.latency = (k.lane side).latency) :
    (k.withLane side r).skew = k.skew := by
  cases side <;> simp only [Link.skew, Link.withLane, PerSide.set, same] <;> rfl

theorem Hub.setLane_alike {h : Hub} {l : LaneId} (r : LaneRec) : (h.setLane l r).Alike h := by
  refine ⟨.refl h, fun d => ?_⟩
  unfold Hub.linkUp
  rw [Hub.setLane_links]
  split <;> rfl

/-- A QUALIFYING lane of an UP link becomes READY (R71). -/
theorem qualificationComplete_ready {l : LaneId} {h : Hub} (due : (h.lane l).qualifyDue = true)
    (untested : h.hlm.tests.get l.link = none) (up : (h.links.get l.link).state = .up)
    (qualifying : (h.lane l).state = .qualifying) :
    qualificationComplete l h = notifyDeskPanel l.link (.laneState l .ready true (h.links.get l.link).skew)
      (h.setLane l { h.lane l with state := .ready, qualified := true, qualifyDue := false }) := by
  rw [qualificationComplete_eq due (LaneRec.counting_qualifying qualifying), if_neg (by simp [qualifying]), if_pos up,
    settleLink_setLane (.inl (by simp [qualifying])) (resumeTest_untested untested), Hub.setLane_link]
  exact congrArg (fun n => notifyDeskPanel l.link (.laneState l .ready true n) _) (Link.skew_withLane rfl)

/-- The link of a lane that becomes qualified while it is ACTIVE is not provisional any more (R71, R77). -/
def Link.confirmed (k : Link) (side : Side) (r : LaneRec) : Link :=
  { (k.withLane side r) with provisional := false }

/-- The ACTIVE lane takes qualified yes (R71). -/
theorem qualificationComplete_active {l : LaneId} {h : Hub} (due : (h.lane l).qualifyDue = true)
    (untested : h.hlm.tests.get l.link = none) (active : (h.lane l).state = .active)
    (unqualified : (h.lane l).qualified = false) :
    let k := h.links.get l.link
    let k1 := k.confirmed l.side { h.lane l with qualified := true, qualifyDue := false }
    let n := notifyDeskPanel l.link (.laneState l .active true k.skew) (h.setLink l.link k1)
    qualificationComplete l h =
      if k.provisional = true then notifyAll (.linkState l.link k.state k.activeLane false) n else n := by
  intro k k1 n
  let r : LaneRec := { h.lane l with qualified := true, qualifyDue := false }
  let h1 := h.setLink l.link k1
  have record : (h.setLink l.link { k with provisional := false }).setLane l r = h1 := by
    rw [Hub.setLane_eq, Hub.setLink_setLink, Hub.setLink_links, if_pos rfl]
    rfl
  rw [qualificationComplete_eq due (LaneRec.counting_active active unqualified), if_pos active]
  refine (congrArg (settleLink h l.link l.side) record).trans ((settleLink_plain (h := h1) (resumeTest_untested untested) _).trans ?_)
  have link : h1.links.get l.link = k1 := by simp [h1]
  have skew : k1.skew = k.skew := (rfl : k1.skew = (k.withLane l.side r).skew).trans (Link.skew_withLane rfl)
  have at_ (side : Side) : h1.lane ⟨l.link, side⟩ = if side = l.side then r else k.lane side := by
    rw [Hub.lane, link]
    exact Link.withLane_lane ..
  have own : h1.lane l = r := (at_ l.side).trans (if_pos rfl)
  have first : tellLaneChange h ⟨l.link, l.side⟩ h1 = n := by
    refine (tellLaneChange_changed (l := l) (.inr ⟨by rw [own]; exact active, by rw [own, unqualified]; simp [r]⟩)).trans ?_
    rw [own, link, skew, show r.state = .active from active]
  have told : h1.Told n := notifyDeskPanel_told ..
  have partner : n.lane (otherLane l) = h.lane (otherLane l) := by
    rw [told.lane]
    exact (at_ l.side.other).trans (if_neg (Side.other_ne _))
  have second : tellLaneChange h ⟨l.link, l.side.other⟩ n = n :=
    tellLaneChange_same (l := otherLane l) (by rw [partner]) (by rw [partner])
  have nlink : n.links.get l.link = k1 := by rw [told.links, link]
  have third : tellLinkChange k l.link n =
      if k.provisional = true then notifyAll (.linkState l.link k.state k.activeLane false) n else n := by
    by_cases was : k.provisional = true
    · rw [if_pos was, tellLinkChange_changed (.inr (.inr (by rw [nlink, was]; simp [k1, Link.confirmed]))), nlink]
      rfl
    · rw [if_neg was, tellLinkChange_same (by rw [nlink]; rfl) (by rw [nlink]; rfl)
        (by rw [nlink]; simpa [k1, Link.confirmed] using was)]
  rw [tellLink, first, second, third]
  have state : ((if k.provisional = true then notifyAll (.linkState l.link k.state k.activeLane false) n else n).links.get
      l.link).state = k.state := by
    split
    · rw [notifyAll_links, nlink]; rfl
    · rw [nlink]; rfl
  exact linkEvent_same state

/-- Settles O27: the lane that is READY or stays ACTIVE by its equation, the link's entry to UP as at acquisition. -/
theorem qualificationCompletes : Obligations.QualificationCompletes := by
  unfold Obligations.QualificationCompletes
  intro l s due untested k done restored
  have event {t : Hub} (e : qualificationComplete l s.hub = t) : done = .next (s.withHub t) :=
    congrArg (fun h => Host.Outcome.next (s.withHub h)) e
  refine ⟨fun up qualifying => ?_, fun up active unqualified => ?_, fun lat down qualifying synced => ?_⟩
  · let r : LaneRec := { s.hub.lane l with state := .ready, qualified := true, qualifyDue := false }
    have told := notifyDeskPanel_told l.link (.laneState l .ready true k.skew) (s.hub.setLane l r)
    have core := told.core
    obtain ⟨-, -, arb, -, -, mon, -⟩ := Hub.core_eq core
    refine ⟨_, event (qualificationComplete_ready due untested up qualifying), ?_, ?_, ?_, ?_, mon, arb⟩
    · exact (told.lane l).trans (by simp [r])
    · exact (told.lane _).trans (by simp [otherLane_ne])
    · exact (congrArg (fun x : PerDesk Link => (x.get l.link).activeLane) told.links).trans
        ((congrArg Link.activeLane (Hub.setLane_link s.hub l r) :).trans rfl)
    · exact ((Hub.setLane_alike r).notifyDesk l.link _ |>.notifyPanel _).notices
  · let r : LaneRec := { s.hub.lane l with qualified := true, qualifyDue := false }
    let h1 := s.hub.setLink l.link (k.confirmed l.side r)
    let n := notifyDeskPanel l.link (.laneState l .active true k.skew) h1
    let t := if k.provisional = true then notifyAll (.linkState l.link k.state k.activeLane false) n else n
    have told : h1.Told t := by
      refine .trans (k := n) (notifyDeskPanel_told ..) ?_
      by_cases was : k.provisional = true
      · simp only [t, if_pos was]; exact notifyAll_told ..
      · simp only [t, if_neg was]; exact .refl n
    obtain ⟨-, -, arb, links, -, mon, -⟩ := Hub.core_eq told.core
    have link : t.links.get l.link = k.confirmed l.side r := by rw [links]; simp [h1]
    have alike : h1.Alike s.hub := ⟨.refl _, fun d => by
      unfold Hub.linkUp
      rw [Hub.setLink_links]
      split
      · next e => subst e; rfl
      · rfl⟩
    refine ⟨s.withHub t, event (qualificationComplete_active due untested active unqualified), ?_, by rw [link]; rfl,
      by rw [link]; rfl, fun was => ?_, mon, arb⟩
    · rw [Hub.lane, link]
      exact (Link.withLane_lane ..).trans (if_pos rfl)
    · have spelled : t = notifyAll (.linkState l.link .up k.activeLane false) n := by simp only [t, if_pos was, up]
      show t.NoticesOf _
      rw [spelled]
      exact (((alike.notifyDesk l.link _).notifyPanel _).notifyAll _).notices
  · let r : LaneRec := { s.hub.lane l with qualifyDue := false }
    let k1 := (k.withLane l.side r).enterUp s.hub.now l.side lat true
    have own : k1.lane l.side = { s.hub.lane l with state := .active, qualified := true, qualifyDue := false } := by
      simp [k1, Link.enterUp_lane, Link.withLane_lane, r]
    have partner : k1.lane l.side.other = s.hub.lane (otherLane l) := by
      simp [k1, Link.enterUp_lane, Link.withLane_lane, Hub.lane_other, k]
    let t := settleLink s.hub l.link l.side (s.hub.setLink l.link k1)
    have came : s.hub.CameUp l k1 t := settleLink_cameUp (by rw [show (s.hub.links.get l.link).state = _ from down]; simp) rfl
      (by rw [own, qualifying]; simp) partner (resumeTest_untested untested)
    have brought : qualificationComplete l s.hub = t := by
      rw [qualificationComplete_eq due (LaneRec.counting_qualifying qualifying), if_neg (by simp [qualifying]),
        if_neg (by rw [show (s.hub.links.get l.link).state = _ from down]; simp), synced]
    obtain ⟨link, others⟩ := came.link
    obtain ⟨back, rest⟩ := s.hub.arb.restored_records l.link
    have notices := came.notices
    rw [show k1.activeLane = some l.side from rfl, show k1.provisional = false from rfl, restoredNotices_eq, own,
      show k1.skew = (t.links.get l.link).skew by rw [link]] at notices
    refine ⟨s.withHub t, event brought, by rw [link]; rfl, by rw [link]; rfl, by rw [link]; rfl, by rw [link]; rfl, ?_, ?_,
      by rw [link]; rfl, ?_, others, fun r level o e => ?_, fun r e => ?_, came.output, notices⟩
    · rw [link]; exact if_pos down
    · rw [link]; exact if_pos down
    · rw [Hub.lane, link, own]
    · rw [came.arb]; exact back r level o e
    · rw [came.arb]; exact rest r e

end Sys2Proof.Machine
end

/-!
A link's leaving UP and its entry to DOWN (R53, R85, R88, R109, R116, R125, R144, R167, R168): what each block is left with.
-/
section
namespace Sys2Proof.Machine

/-! ## What each block leaves of the part -/

/-- What no link event touches: the time, the preamps, the links, the store and the frames out. -/
abbrev Hub.steady (h : Hub) : Frame × Pcu × PerDesk Link × Sto × PerDesk DownFrame := (h.now, h.pcu, h.links, h.sto, h.down)

/-- MON and TBK act with their notices: nothing else of the part changes. -/
structure Hub.Airs (h k : Hub) : Prop where
  steady : k.steady = h.steady
  arb : k.arb = h.arb
  hlm : k.hlm = h.hlm
  queues : k.req.queues = h.req.queues

section
variable {h k m : Hub}

theorem Hub.Airs.refl (h : Hub) : h.Airs h := ⟨rfl, rfl, rfl, rfl⟩

theorem Hub.Airs.trans (a : h.Airs k) (b : k.Airs m) : h.Airs m :=
  ⟨b.steady.trans a.steady, b.arb.trans a.arb, b.hlm.trans a.hlm, b.queues.trans a.queues⟩

theorem Hub.Told.airs (t : h.Told k) : h.Airs k := by
  obtain ⟨now, pcu, arb, links, hlm, -, -, sto, down⟩ := Hub.core_eq t.core
  exact ⟨by simp only [Hub.steady, now, pcu, links, sto, down], arb, hlm, t.queues⟩

theorem Hub.Airs.mon (h : Hub) (m : Mon) : h.Airs { h with mon := m } := ⟨rfl, rfl, rfl, rfl⟩

theorem Hub.Airs.talk (h : Hub) (t : Tbk) (m : Mon) : h.Airs { h with tbk := t, mon := m } := ⟨rfl, rfl, rfl, rfl⟩

theorem Hub.linkUp_of_links (links : k.links = h.links) : k.linkUp = h.linkUp :=
  funext fun d => congrArg (fun x : PerDesk Link => decide ((x.get d).state = .up)) links

end

theorem commitMon_airs (byEnable : Bool) (outs : Vector Output 32) (h : Hub) : h.Airs (commitMon byEnable outs h) := by
  rw [commitMon_eq]
  exact (Hub.Airs.mon h _).trans (notifyEach_told ..).airs

theorem Hub.Told.mon {h k : Hub} (t : h.Told k) : k.mon = h.mon := congrArg Core.mon t.core

theorem Hub.Told.tbk {h k : Hub} (t : h.Told k) : k.tbk = h.tbk := congrArg Core.tbk t.core

theorem commitMon_tbk (byEnable : Bool) (outs : Vector Output 32) (h : Hub) : (commitMon byEnable outs h).tbk = h.tbk := by
  obtain ⟨-, -, -, -, -, tbk, -⟩ := commitMon_others byEnable outs h
  exact tbk

theorem safeMute_airs (cause : SafeCause) (h : Hub) : h.Airs (safeMute cause h) ∧ (safeMute cause h).tbk = h.tbk := by
  unfold safeMute
  exact ⟨(Hub.Airs.mon h _).trans (notifyAll_told ..).airs, (notifyAll_told ..).tbk⟩

theorem monDown_airs (h : Hub) : h.Airs (monDown h) ∧ (monDown h).tbk = h.tbk := by
  unfold monDown
  split
  · exact safeMute_airs ..
  · exact ⟨.refl h, rfl⟩

/-! ## The outputs of a link that leaves UP (R116, R118, R125) -/

theorem Output.retargetNone_enable (o : Output) : o.retargetNone.enable = o.enable := by
  unfold Output.retargetNone
  split
  · rfl
  · split <;> rfl

theorem Output.retargetSource_enable (o : Output) (t : Target) (s : Source) : (o.retargetSource t s).enable = o.enable := by
  unfold Output.retargetSource
  split
  · rfl
  · split
    · rfl
    · rfl
    all_goals split <;> rfl

/-- A choice of source leaves the enable (R122). -/
theorem Output.choose_enable (o : Output) (up : Desk → Bool) (bySetPatch : Bool) : (o.choose up bySetPatch).enable = o.enable := by
  unfold Output.choose Output.retarget
  dsimp only
  split
  · exact o.retargetNone_enable
  · exact o.retargetSource_enable ..

theorem Output.linkLeaves_enable (o : Output) (up : Desk → Bool) (d : Desk) : (o.linkLeaves up d).enable = o.enable := by
  unfold Output.linkLeaves
  split
  · split
    · rfl
    · exact o.loseSource.choose_enable ..
  · split
    · exact o.choose_enable ..
    · split <;> rfl

/-- The revert timer depends on nothing of the enable. -/
theorem Output.startRevert_enable (o : Output) (now : Frame) (delay : Nat) (up : Desk → Bool) (e : Bool) :
    ({ o with enable := e } : Output).startRevert now delay up = { o.startRevert now delay up with enable := e } := by
  unfold Output.startRevert
  rw [show ({ o with enable := e } : Output).takesFallback = o.takesFallback from rfl]
  dsimp only
  split <;> rfl

theorem Output.startRevert_enable_same (o : Output) (now : Frame) (delay : Nat) (up : Desk → Bool) :
    (o.startRevert now delay up).enable = o.enable := by
  unfold Output.startRevert
  split <;> rfl

/-- MON when a link leaves UP: its output records, but for the enables of safe members that the last link takes with it. -/
theorem monLeavesUp_spec (d : Desk) (h : Hub) : h.Airs (monLeavesUp d h) ∧ (monLeavesUp d h).tbk = h.tbk ∧
    ∀ i, (monLeavesUp d h).mon.output i =
      let o := ((h.mon.output i).linkLeaves h.linkUp d).startRevert h.now h.sto.install.revertDelay h.linkUp
      { o with enable := o.enable && !(h.allLost && Tbl.get h.sto.install.safeMember i) } := by
  let set := if h.allLost then h.safeSet else BitSet.empty 32
  let outs : Vector Output 32 := Tbl.of fun i =>
    let o := (h.mon.output i).linkLeaves h.linkUp d
    { o with enable := o.enable && !Tbl.get set i }
  let h1 := commitMon false outs h
  have told : h1.Told (monLeavesUp d h) := by
    show h1.Told (if h.allLost then notifyAll (.safeMute .allLinksLost set) h1 else h1)
    split
    · exact notifyAll_told ..
    · exact .refl h1
  refine ⟨(commitMon_airs ..).trans told.airs, told.tbk.trans (commitMon_tbk ..), fun i => ?_⟩
  have output : h1.mon.output i = _ := commitMon_output false outs h i
  rw [told.mon, output, Tbl.get_of, Output.startRevert_enable]
  dsimp only
  rw [Output.startRevert_enable_same]
  congr 1
  have member : Tbl.get set i = (h.allLost && (Tbl.get h.sto.install.safeMember i && (h.mon.output i).enable)) := by
    cases lost : h.allLost <;> simp [set, lost, Hub.safeSet, BitSet.empty]
  rw [member, Output.linkLeaves_enable]
  cases (h.mon.output i).enable <;> simp

/-! ## Talk of a link that leaves UP (R141, R144) -/

theorem Tbk.offer_without (priority : PerReq Nat) {t : Tbk} {d : Desk} (without : t.records.get d = none) (o : Out) :
    (t.offer priority o).records.get d = none := by
  unfold Tbk.offer
  split
  · exact without
  · next e _ =>
    by_cases same : d = e
    · subst same; simp [Tbk.grant, Tbk.setGrant, without]
    · simp [Tbk.grant, Tbk.setGrant, same, without]

/-- A record removed is gone, whoever receives its outputs. -/
theorem Tbk.remove_record (priority : PerReq Nat) (t : Tbk) (d : Desk) : (t.remove priority d).records.get d = none := by
  have all (os : List Out) : ∀ t : Tbk, t.records.get d = none → (os.foldl (Tbk.offer priority) t).records.get d = none := by
    induction os with
    | nil => exact fun t without => without
    | cons o os ih => exact fun t without => ih _ (Tbk.offer_without priority without o)
  exact all _ _ (by simp)

/-- What an output has besides its talk. -/
def Output.silenced (o : Output) : Output := { o with talker := none, duck := 0, duckTarget := 0 }

theorem Output.setTalker_silenced (o : Output) (talk : Option (Desk × Nat)) : (o.setTalker talk).silenced = o.silenced := rfl

/-- A desk's talk ends: of the outputs, only what concerns talk changes. -/
theorem endTalk_spec (d : Desk) (cause : TalkCause) (h : Hub) : h.Airs (endTalk d cause h) ∧
    (endTalk d cause h).tbk.records.get d = none ∧
    ∀ i, ((endTalk d cause h).mon.output i).silenced = (h.mon.output i).silenced := by
  unfold endTalk
  split
  · next none_ => exact ⟨.refl h, none_, fun _ => rfl⟩
  · let t := h.tbk.remove h.sto.install.priority d
    have told : (handTalk t h).Told (notifyTalk h.tbk (fun x =>
        if x = d then some cause else if h.tbk.sets x = t.sets x then none else some .reassigned) (handTalk t h)) :=
      notifyEach_told ..
    refine ⟨(Hub.Airs.talk h _ _).trans told.airs, ?_, fun i => ?_⟩
    · rw [told.tbk]
      exact Tbk.remove_record ..
    · rw [told.mon]
      simp only [handTalk, Mon.output, Tbl.get_of]
      split
      · rfl
      · exact Output.setTalker_silenced ..

/-! ## REQ and HLM at the entry to DOWN (R109, R168) -/

theorem setTestStatus_told (d : Desk) (t : TestRec) (st : TestStatus) (h : Hub) :
    (h.setTest d (some { t with status := st })).Told (setTestStatus d t st h) := tellTest_told ..

/-- LANE_STATE, TEST_STATUS and their like go to PANEL alone while the desk's link is not UP. -/
theorem notifyDeskPanel_req {d : Desk} {h : Hub} (down : h.linkUp d = false) (n : Notice) : (notifyDeskPanel d n h).req = h.req := by
  simp [notifyDeskPanel, notifyDesk, down, notifyPanel]

theorem tellTest_req {d : Desk} {h : Hub} (down : h.linkUp d = false) : (tellTest d h).req = h.req := by
  unfold tellTest
  split
  · rfl
  · exact notifyDeskPanel_req down _

/-- HLM at the entry to DOWN: the desk's test is aborted, nothing else of the part changes but the notice (R109). -/
theorem hlmDown_spec {d : Desk} {h : Hub} (down : h.linkUp d = false) :
    (hlmDown d h).steady = h.steady ∧ (hlmDown d h).arb = h.arb ∧ (hlmDown d h).mon = h.mon ∧ (hlmDown d h).tbk = h.tbk ∧
    (hlmDown d h).req = h.req ∧
    ∀ x, h.hlm.tests.get d = some x → (hlmDown d h).hlm.tests.get d = some { x with status := .aborted } := by
  unfold hlmDown
  split
  · next none_ => exact ⟨rfl, rfl, rfl, rfl, rfl, fun x e => by rw [none_] at e; cases e⟩
  · next t test =>
    split
    · next aborted =>
      refine ⟨rfl, rfl, rfl, rfl, rfl, fun x e => ?_⟩
      obtain rfl := Option.some.inj (test.symm.trans e)
      rw [test, ← aborted]
    · let h1 := h.setTest d (some { t with status := .aborted })
      have told : h1.Told (setTestStatus d t .aborted h) := setTestStatus_told ..
      obtain ⟨-, -, arb, -, hlm, mon, tbk, -⟩ := Hub.core_eq told.core
      refine ⟨told.airs.steady, arb, mon, tbk, tellTest_req (h := h1) down, fun x e => ?_⟩
      obtain rfl := Option.some.inj (test.symm.trans e)
      rw [hlm]
      simp [h1]

/-- REQ and HLM at the entry to DOWN, after the blocks before them. -/
theorem hlmDown_reqDown {d : Desk} {h : Hub} (down : h.linkUp d = false) :
    let t := hlmDown d (reqDown d h)
    t.steady = h.steady ∧ t.arb = h.arb ∧ t.mon = h.mon ∧ t.tbk = h.tbk ∧
    (∀ who, t.req.queues.get who = if who = d.req then ReqQueue.reset else h.req.queues.get who) ∧
    t.req.desks.get d = (h.req.desks.get d).teardown ∧
    ∀ x, h.hlm.tests.get d = some x → t.hlm.tests.get d = some { x with status := .aborted } := by
  intro t
  obtain ⟨steady, arb, mon, tbk, req, tests⟩ : t.steady = (reqDown d h).steady ∧ _ := hlmDown_spec (h := reqDown d h) down
  exact ⟨steady, arb, mon, tbk, fun who => by rw [req]; simp [reqDown], by rw [req]; simp [reqDown], tests⟩

end Sys2Proof.Machine
end

/-!
HOLDOVER_EXPIRY and LINK_RESTART: the teardown of a desk (R53, R85, R88, R109, R168).
-/
section
namespace Sys2Proof.Machine

/-! ## A desk torn down -/

/-- ARB at the entry to DOWN changes its own records alone. -/
theorem arbDown_spec (d : Desk) (h : Hub) : (arbDown d h).steady = h.steady ∧
    (arbDown d h).arb = h.arb.tornDown d h.graceDeadline ∧ (arbDown d h).hlm = h.hlm ∧ (arbDown d h).mon = h.mon ∧
    (arbDown d h).tbk = h.tbk ∧ (arbDown d h).req.queues = h.req.queues := by
  have besides := commitClaims_unclaimed (h.arb.tornDown d h.graceDeadline) h
  simp only [Hub.unclaimed, Prod.mk.injEq] at besides
  obtain ⟨now, pcu, links, hlm, mon, tbk, sto, down⟩ := besides
  rw [arbDown_eq]
  exact ⟨by simp only [Hub.steady, now, pcu, links, sto, down], commitClaims_arb .., hlm, mon, tbk, by
    rw [commitClaims, notifyEach_queues]⟩

/-- The claims of a desk torn down (R48, R53). -/
theorem tornDown_records (x : Arb) (d : Desk) (grace : Option Frame) :
    (∀ r level, x.claim r = .held d.req level → (x.tornDown d grace).claim r = .orphaned d level grace) ∧
    (∀ r w level, x.claim r = .held w level → w ≠ d.req → (x.tornDown d grace).claim r = .held w level) ∧
    ∀ r w cs, x.claim r = .contended w cs →
      let left := cs.filter fun e => !decide (e.1 = d.req)
      (x.tornDown d grace).claim r = if left = [] then .opened else .contended w left := by
  refine ⟨fun r level e => ?_, fun r w level e other => ?_, fun r w cs e => ?_⟩
  · rw [Arb.tornDown_claim, e]
    exact if_pos rfl
  · rw [Arb.tornDown_claim, e]
    exact if_neg other
  · rw [Arb.tornDown_claim, e]
    simp only [Claim.teardown]
    cases cs.filter fun e => !decide (e.1 = d.req) <;> simp

theorem steady_fields {h k : Hub} (e : k.steady = h.steady) :
    k.now = h.now ∧ k.pcu = h.pcu ∧ k.links = h.links ∧ k.sto = h.sto := by
  simp only [Hub.steady, Prod.mk.injEq] at e
  obtain ⟨now, pcu, links, sto, -⟩ := e
  exact ⟨now, pcu, links, sto⟩

/-- A desk torn down: `h` is the part at the link's entry to DOWN, `t` the part after it. -/
structure Hub.TornDown (h : Hub) (d : Desk) (t : Hub) : Prop where
  steady : t.steady = h.steady
  arb : t.arb = h.arb.tornDown d h.graceDeadline
  queue : ∀ who, t.req.queues.get who = if who = d.req then ReqQueue.reset else h.req.queues.get who
  desk : ∃ p : DeskPort, t.req.desks.get d = p.teardown
  test : ∀ x, h.hlm.tests.get d = some x → t.hlm.tests.get d = some { x with status := .aborted }

/-- REQ and HLM end what ARB began, MON and TBK having acted between; REQ may have seen the link leave UP. -/
theorem Hub.TornDown.of_airs {h k : Hub} {d : Desk} (down : h.linkUp d = false) (airs : (arbDown d h).Airs k) :
    h.TornDown d (hlmDown d (reqDown d k)) := by
  obtain ⟨steady, arb, hlm, -, -, queues⟩ := arbDown_spec d h
  have kept := airs.steady.trans steady
  obtain ⟨-, -, links, -⟩ := steady_fields kept
  obtain ⟨steady', arb', -, -, queue, desk, test⟩ :=
    hlmDown_reqDown ((congrFun (Hub.linkUp_of_links links) d).trans down)
  refine ⟨steady'.trans kept, arb'.trans (airs.arb.trans arb), fun who => ?_, ⟨_, desk⟩, fun x e => test x ?_⟩
  · rw [queue, airs.queues, queues]
  · rw [airs.hlm, hlm]; exact e

theorem linkEvent_holdoverDown {d : Desk} {h : Hub} (down : (h.links.get d).state = .down) :
    linkEvent .holdover d h = hlmDown d (reqDown d (monDown (arbDown d h))) := by
  unfold linkEvent
  simp only [down]

theorem linkEvent_upDown {d : Desk} {h : Hub} (down : (h.links.get d).state = .down) :
    linkEvent .up d h = hlmDown d (reqDown d (reqLeavesUp d (tbkLeavesUp d (monLeavesUp d (arbDown d h))))) := by
  unfold linkEvent
  simp only [down]

theorem Hub.not_linkUp {h : Hub} {d : Desk} (down : (h.links.get d).state = .down) : h.linkUp d = false := by
  simp [Hub.linkUp, down]

/-- A link's entry to DOWN from HOLDOVER. -/
theorem tornDown_holdover {d : Desk} {h : Hub} (down : (h.links.get d).state = .down) :
    h.TornDown d (linkEvent .holdover d h) ∧ (linkEvent .holdover d h).tbk = h.tbk := by
  obtain ⟨airs, tbk⟩ := monDown_airs (arbDown d h)
  obtain ⟨steady, -, -, -, talk, -⟩ := arbDown_spec d h
  obtain ⟨-, -, links, -⟩ := steady_fields (airs.steady.trans steady)
  obtain ⟨-, -, -, tbk', -⟩ := hlmDown_reqDown ((congrFun (Hub.linkUp_of_links links) d).trans (Hub.not_linkUp down))
  rw [linkEvent_holdoverDown down]
  exact ⟨.of_airs (Hub.not_linkUp down) airs, tbk'.trans (tbk.trans talk)⟩

theorem reqLeavesUp_airs (d : Desk) (h : Hub) : h.Airs (reqLeavesUp d h) := ⟨rfl, rfl, rfl, rfl⟩

/-- A link's entry to DOWN from UP: its talk ends and its outputs take the link's leaving UP, before the teardown ends. -/
theorem tornDown_up {d : Desk} {h : Hub} (down : (h.links.get d).state = .down) :
    let t := linkEvent .up d h
    h.TornDown d t ∧ t.tbk.records.get d = none ∧ (t.req.desks.get d).gapOwed = true ∧
      ∀ i, (t.mon.output i).silenced =
        let o := ((h.mon.output i).linkLeaves h.linkUp d).startRevert h.now h.sto.install.revertDelay h.linkUp
        ({ o with enable := o.enable && !(h.allLost && Tbl.get h.sto.install.safeMember i) } : Output).silenced := by
  obtain ⟨steady, -, -, arbMon, -, -⟩ := arbDown_spec d h
  obtain ⟨now, -, links, sto⟩ := steady_fields steady
  obtain ⟨airs1, -, output⟩ := monLeavesUp_spec d (arbDown d h)
  let m := monLeavesUp d (arbDown d h)
  obtain ⟨airs2, ended, silent⟩ : m.Airs (tbkLeavesUp d m) ∧ _ := endTalk_spec d .linkLost m
  let k := reqLeavesUp d (tbkLeavesUp d m)
  have airs : (arbDown d h).Airs k := (airs1.trans airs2).trans (reqLeavesUp_airs d _)
  obtain ⟨-, -, links', -⟩ := steady_fields (airs.steady.trans steady)
  obtain ⟨-, -, mon, tbk, -, desk, -⟩ := hlmDown_reqDown (h := k)
    ((congrFun (Hub.linkUp_of_links links') d).trans (Hub.not_linkUp down))
  have up : (arbDown d h).linkUp = h.linkUp := Hub.linkUp_of_links links
  have lost : (arbDown d h).allLost = h.allLost := by
    unfold Hub.allLost Hub.allDown
    rw [links, sto]
  intro t
  have event : t = hlmDown d (reqDown d k) := linkEvent_upDown down
  refine ⟨event ▸ .of_airs (Hub.not_linkUp down) airs, ?_, ?_, fun i => ?_⟩
  · rw [event, tbk]; exact ended
  · rw [event, desk]; simp [DeskPort.teardown, k, reqLeavesUp, DeskPort.leavesUp]
  · rw [event, mon]
    refine (silent i).trans ?_
    rw [output i, arbMon, up, now, sto, lost]

/-- The grace of holds orphaned now depends on the time, the freeze and the claim grace installed (R53, R57). -/
theorem Hub.graceDeadline_eq {h b : Hub} (now : h.now = b.now) (arb : h.arb = b.arb)
    (install : h.sto.install = b.sto.install) :
    h.graceDeadline = if b.arb.frozen then none else some (later b.now (b.sto.install.grace * 48000)) := by
  rw [Hub.graceDeadline, now, arb, install]
  rfl

/-! ## HOLDOVER_EXPIRY (R85) -/

/-- A link that is not UP has no ACTIVE lane. -/
theorem Link.Ok.no_active {k : Link} (ok : k.Ok) (notUp : k.state ≠ .up) (side : Side) : (k.lane side).state ≠ .active := by
  obtain ⟨up, active, -⟩ := ok
  intro e
  exact notUp (up.2 (by rw [(active side).2 e]; rfl))

theorem holdoverExpiry_eq {d : Desk} {h : Hub} {dl : Frame} (state : (h.links.get d).state = .holdover)
    (deadline : (h.links.get d).holdoverDeadline = some dl) (elapsed : reached h.now dl = true) :
    holdoverExpiry d h = settleLink h d .p (h.setLink d ((h.links.get d).leave .down none)) :=
  if_pos ⟨state, by rw [deadline]; exact elapsed⟩

/-- Settles O31: the link's record by its leaving, the rest by the desk's teardown. -/
theorem holdoverExpiryTearsTheDeskDown : Obligations.HoldoverExpiryTearsTheDeskDown := by
  unfold Obligations.HoldoverExpiryTearsTheDeskDown
  intro d dl s state deadline elapsed ok
  let k := (s.hub.links.get d).leave .down none
  let h := s.hub.setLink d k
  have own : h.links.get d = k := by simp [h]
  have plain : resumeTest d h = none := resumeTest_none fun side => by
    rw [own]
    exact .inr (.inl (ok.no_active (by rw [state]; simp) side.other))
  let n := tellLink s.hub d .p h
  have told : h.Told n := tellLink_told ..
  obtain ⟨now, pcu, arb, links, hlm, -, tbk, sto, -⟩ := Hub.core_eq told.core
  have link : n.links.get d = k := by rw [links, own]
  let t := linkEvent .holdover d n
  have event : exec (.holdoverExpiry d) s = .next (s.withHub t) := by
    refine congrArg (fun h => Host.Outcome.next (s.withHub h)) ((holdoverExpiry_eq state deadline elapsed).trans ?_)
    rw [settleLink_plain plain, state]
  obtain ⟨⟨steady, claims, queue, ⟨p, desk⟩, test⟩, talk⟩ : n.TornDown d t ∧ t.tbk = n.tbk := tornDown_holdover (by rw [link]; rfl)
  obtain ⟨-, pcu', links', -⟩ := steady_fields steady
  have link' : t.links.get d = k := by rw [links', link]
  rw [Hub.graceDeadline_eq now arb (congrArg Sto.install sto), show n.arb = s.hub.arb from arb] at claims
  obtain ⟨orphaned, kept, withdrawn⟩ := tornDown_records s.hub.arb d
    (if s.hub.arb.frozen then none else some (later s.hub.now (s.hub.sto.install.grace * 48000)))
  refine ⟨s.withHub t, event, by rw [link']; rfl, by rw [link']; rfl, by rw [link']; rfl, fun e ne => ?_, fun r level e => ?_,
    fun r w level e other => ?_, fun r w cs e => ?_, ?_, (queue d.req).trans (if_pos rfl), by rw [desk]; rfl, by rw [desk]; rfl,
    by rw [desk]; rfl, by rw [desk]; rfl, fun x e => test x (by rw [hlm]; exact e), pcu'.trans pcu, talk.trans tbk⟩
  · rw [links', links]; simp [h, ne]
  · rw [claims]; exact orphaned r level e
  · rw [claims]; exact kept r w level e other
  · rw [claims]; exact withdrawn r w cs e
  · rw [claims, Arb.tornDown_pending, if_pos rfl]

end Sys2Proof.Machine
end

/-!
LINK_RESTART (R88).
-/
section
namespace Sys2Proof.Machine

/-- TEST_COMPLETE changes the status of the desk's test, with its notice, and nothing else (R104). -/
theorem testComplete_spec (d : Desk) (h : Hub) :
    (testComplete d h).steady = h.steady ∧ (testComplete d h).arb = h.arb ∧ (testComplete d h).mon = h.mon ∧
    (testComplete d h).tbk = h.tbk ∧ (testComplete d h).req.queues = h.req.queues ∧
    ∀ x, h.hlm.tests.get d = some x → ∃ st, (testComplete d h).hlm.tests.get d = some { x with status := st } := by
  unfold testComplete
  split
  · next none_ => exact ⟨rfl, rfl, rfl, rfl, rfl, fun x e => by rw [none_] at e; cases e⟩
  · next t test =>
    have own (x : TestRec) (e : h.hlm.tests.get d = some x) : t = x := Option.some.inj (test.symm.trans e)
    split
    · let h1 := h.setTest d (some { t with status := t.outcome })
      have told : h1.Told (setTestStatus d t t.outcome h) := setTestStatus_told ..
      obtain ⟨-, -, arb, -, hlm, mon, tbk, -⟩ := Hub.core_eq told.core
      refine ⟨told.airs.steady, arb, mon, tbk, told.queues, fun x e => ⟨t.outcome, ?_⟩⟩
      rw [hlm, ← own x e]
      simp [h1]
    · exact ⟨rfl, rfl, rfl, rfl, rfl, fun x e => ⟨x.status, e⟩⟩

theorem Link.restart_lane (k : Link) (side : Side) : k.restart.lane side = (k.lane side).restart := by
  unfold Link.restart
  cases k.state <;> cases side <;> rfl

theorem Link.restart_state (k : Link) : k.restart.state = .down := by
  unfold Link.restart
  cases e : k.state <;> simp [e, Link.leave]

/-- A link that was not DOWN has nothing to take from any more (R88). -/
theorem Link.restart_left {k : Link} (notDown : k.state ≠ .down) :
    k.restart = { k.leave .down none with lanes := ⟨k.lanes.p.restart, k.lanes.s.restart⟩ } := by
  unfold Link.restart
  cases e : k.state with
  | down => exact absurd e notDown
  | up | holdover => rfl

/-- A restarted lane is out of sync, DARK or ACQUIRING by its light (R67, R88). -/
theorem LaneRec.restart_spec (r : LaneRec) : r.restart.state = (if r.light then .acquiring else .dark) ∧
    r.restart.latency = none ∧ r.restart.acquireRun = 0 ∧ r.restart.buffer = [] := ⟨rfl, rfl, rfl, rfl⟩

theorem LaneRec.restart_not_ready (r : LaneRec) : r.restart.state ≠ .ready := by
  rw [r.restart_spec.1]
  split <;> simp

/-- An answer of PANEL touches nothing of a desk. -/
theorem answerTo_panel_desks (code : Code) (body : List Byte) (h : Hub) :
    (answerTo .panel code body h).req.desks = h.req.desks := by
  unfold answerTo
  dsimp only
  split <;> rfl

/-- The part of LINK_RESTART when its link event begins: the test completed, the link restarted, the changes told. -/
def restartTold (d : Desk) (h : Hub) : Hub :=
  tellLink (testComplete d h) d .p ((testComplete d h).setLink d (h.links.get d).restart)

/-- LINK_RESTART of a link in range (R88). -/
theorem lnkLinkRestart_eq (who : Requester) (d : Desk) (h : Hub) : lnkLinkRestart who (Desk.num d) h =
    answerTo who .done [] (linkEvent (h.links.get d).state d (restartTold d h)) := by
  obtain ⟨steady, -⟩ := testComplete_spec d h
  obtain ⟨-, -, links, -⟩ := steady_fields steady
  have plain : resumeTest d ((testComplete d h).setLink d (h.links.get d).restart) = none := resumeTest_none fun side => by
    rw [Hub.setLink_links, if_pos rfl, Link.restart_lane]
    exact .inl (LaneRec.restart_not_ready _)
  simp only [lnkLinkRestart, desk?_num]
  rw [links, settleLink_plain plain, links]
  rfl

/-- What LINK_RESTART has left of the part when its link event begins. -/
theorem restartTold_spec (d : Desk) (h : Hub) :
    let n := restartTold d h
    n.now = h.now ∧ n.pcu = h.pcu ∧ n.sto = h.sto ∧ n.arb = h.arb ∧ n.mon = h.mon ∧ n.tbk = h.tbk ∧
    n.req.queues = h.req.queues ∧
    (∀ e, n.links.get e = if e = d then (h.links.get d).restart else h.links.get e) ∧
    ∀ x, h.hlm.tests.get d = some x → ∃ st, n.hlm.tests.get d = some { x with status := st } := by
  intro n
  obtain ⟨steady, arb, mon, tbk, queues, test⟩ := testComplete_spec d h
  obtain ⟨now, pcu, links, sto⟩ := steady_fields steady
  have told : Hub.Told _ n := tellLink_told (testComplete d h) d .p ((testComplete d h).setLink d (h.links.get d).restart)
  obtain ⟨now', pcu', arb', links', hlm', mon', tbk', sto', -⟩ := Hub.core_eq told.core
  refine ⟨now'.trans now, pcu'.trans pcu, sto'.trans sto, arb'.trans arb, mon'.trans mon, tbk'.trans tbk,
    told.queues.trans queues, fun e => ?_, fun x e => ?_⟩
  · rw [links', Hub.setLink_links, links]
  · rw [hlm']; exact test x e

/-- A link's entry to DOWN, or its staying there: what holds of it from any state. -/
theorem linkEvent_down {st : LinkState} {d : Desk} {n : Hub} (down : (n.links.get d).state = .down) :
    (st ≠ .down → n.TornDown d (linkEvent st d n)) ∧ (st = .down → linkEvent st d n = n) ∧
    (linkEvent st d n).steady = n.steady ∧ (linkEvent st d n).req.queues.get .panel = n.req.queues.get .panel := by
  have torn (t : n.TornDown d (linkEvent st d n)) (entered : st ≠ .down) :
      (st ≠ .down → n.TornDown d (linkEvent st d n)) ∧ (st = .down → linkEvent st d n = n) ∧
      (linkEvent st d n).steady = n.steady ∧ (linkEvent st d n).req.queues.get .panel = n.req.queues.get .panel :=
    ⟨fun _ => t, fun e => absurd e entered, t.steady, (t.queue .panel).trans (if_neg (Desk.req_ne_panel d).symm)⟩
  cases st with
  | up => exact torn (tornDown_up down).1 (by simp)
  | holdover => exact torn (tornDown_holdover down).1 (by simp)
  | down =>
    have same : linkEvent .down d n = n := linkEvent_same down
    exact ⟨fun e => absurd rfl e, fun _ => same, by rw [same], by rw [same]⟩

/-- No link is left, the restarted one being DOWN (R125). -/
theorem Hub.allLost_restarted {n b : Hub} {d : Desk} (down : (n.links.get d).state = .down)
    (others : ∀ e, e ≠ d → n.links.get e = b.links.get e) (install : n.sto.install = b.sto.install) :
    n.allLost = ((Desk.all.all fun e => decide (e = d ∨ (b.links.get e).state = .down)) && b.sto.install.allLinksLost) := by
  unfold Hub.allLost Hub.allDown
  rw [install]
  have each : (fun e => decide ((n.links.get e).state = .down)) = fun e => decide (e = d ∨ (b.links.get e).state = .down) := by
    funext e
    by_cases same : e = d
    · subst same; simp [down]
    · simp [same, others e same]
  rw [each]

/-- Settles O33: the link's record by its restart, the rest by the desk's teardown from the state it was in. -/
theorem linkRestartBringsTheLinkDown : Obligations.LinkRestartBringsTheLinkDown := by
  unfold Obligations.LinkRestartBringsTheLinkDown
  refine ⟨fun tag d s free => ?_, fun tag n s free range => ?_⟩
  · let call := Call.linkRestart (Desk.num d)
    let h := s.hub.taken .panel tag call
    obtain ⟨now, pcu, arb, links, hlm, mon, tbk, -, -, -, install, -⟩ := Hub.taken_other s.hub .panel tag call
    let n := restartTold d h
    obtain ⟨now', pcu', sto', arb', mon', tbk', queues', links', test'⟩ := restartTold_spec d h
    let e := linkEvent (s.hub.links.get d).state d n
    let t := answerTo .panel .done [] e
    have event : exec (.linkRestart .panel tag (Desk.num d)) s = .next (s.withHub t) := by
      rw [exec_request (c := call) rfl free rfl (.inr rfl)]
      refine congrArg (fun k => Host.Outcome.next (s.withHub k)) ((lnkLinkRestart_eq .panel d h).trans ?_)
      rw [show h.links = s.hub.links from links]
    have link : n.links.get d = (s.hub.links.get d).restart := (links' d).trans ((if_pos rfl).trans (by rw [links]))
    have others (x : Desk) (ne : x ≠ d) : n.links.get x = s.hub.links.get x := by
      rw [links' x, if_neg ne, links]
    have down : (n.links.get d).state = .down := by rw [link]; exact Link.restart_state _
    obtain ⟨entered, stayed, steady, panel⟩ := linkEvent_down (st := (s.hub.links.get d).state) down
    obtain ⟨-, epcu, elinks, -⟩ := steady_fields steady
    obtain ⟨-, tpcu, tarb, tlinks, thlm, tmon, ttbk, -⟩ := Hub.core_eq (answerTo_core .panel .done [] e)
    have tlink : t.links.get d = (s.hub.links.get d).restart := by rw [tlinks, elinks, link]
    have tdesk : t.req.desks.get d = e.req.desks.get d := by rw [answerTo_panel_desks]
    have tup : t.linkUp = n.linkUp := Hub.linkUp_of_links (tlinks.trans elinks)
    have arb_ : n.arb = s.hub.arb := arb'.trans arb
    have install_ : n.sto.install = s.hub.sto.install := (congrArg Sto.install sto').trans install
    have grace := Hub.graceDeadline_eq (now'.trans now) arb_ install_
    obtain ⟨orphaned, kept, withdrawn⟩ := tornDown_records s.hub.arb d
      (if s.hub.arb.frozen then none else some (later s.hub.now (s.hub.sto.install.grace * 48000)))
    refine ⟨s.withHub t, event, by rw [tlink]; exact Link.restart_state _, fun side => ?_, fun x ne => ?_, fun notDown => ?_,
      fun up => ?_, fun was => ?_, ?_, tpcu.trans (epcu.trans (pcu'.trans pcu))⟩
    · rw [tlink, Link.restart_lane]
      exact LaneRec.restart_spec _
    · rw [tlinks, elinks, others x ne]
    · obtain ⟨-, claims, queue, ⟨p, desk⟩, test⟩ := entered notDown
      have tclaims : t.arb = s.hub.arb.tornDown d _ := (tarb.trans claims).trans (by rw [arb_, grace])
      rw [← tdesk] at desk
      refine ⟨by rw [tlink, Link.restart_left notDown]; rfl, by rw [tlink, Link.restart_left notDown]; rfl,
        by rw [tlink, Link.restart_left notDown]; rfl, ?_, by rw [tlink, Link.restart_left notDown]; rfl,
        by rw [tlink, Link.restart_left notDown]; rfl, fun r level e => ?_, fun r w level e other => ?_, fun r w cs e => ?_, ?_,
        by rw [desk]; rfl, by rw [desk]; rfl, by rw [desk]; rfl, by rw [desk]; rfl, by rw [desk]; rfl, fun x held => ?_⟩
      · exact (answerTo_queue_other (Desk.req_ne_panel d) ..).trans ((queue d.req).trans (if_pos rfl))
      · rw [tclaims]; exact orphaned r level e
      · rw [tclaims]; exact kept r w level e other
      · rw [tclaims]; exact withdrawn r w cs e
      · rw [tclaims, Arb.tornDown_pending, if_pos rfl]
      · obtain ⟨st, completed⟩ := test' x (by rw [hlm]; exact held)
        rw [thlm]
        exact (test { x with status := st } completed :)
    · have fromUp : e = linkEvent .up d n := by simp only [e, up]
      obtain ⟨-, talk, gap, output⟩ := tornDown_up down
      rw [← fromUp] at talk gap output
      refine ⟨by rw [ttbk]; exact talk, by rw [tdesk]; exact gap, fun i => ?_⟩
      have silent := output i
      rw [Hub.allLost_restarted down others install_, ← tup, mon'.trans mon, now'.trans now, install_, ← tmon] at silent
      exact silent
    · have same : e = n := stayed was
      exact ⟨by rw [tarb, same, arb_], by rw [tmon, same, mon'.trans mon], by rw [ttbk, same, tbk'.trans tbk]⟩
    · exact answerTo_taken (c := call) (panel.trans (by rw [queues'])) ..
  · refine exec_answered (c := .linkRestart n) rfl free rfl (.inr rfl) ?_
    show lnkLinkRestart .panel n _ = _
    simp only [lnkLinkRestart, desk?_none.2 range]

end Sys2Proof.Machine
end

/-!
The operations that leave every link and lane as it stands: those of the preamps, the claims, the outputs, talkback, the
test records, the panel port, the frames sent and the store's writes.
-/
section
namespace Sys2Proof.Machine

/-- What changes REQ and PNL alone leaves the links. -/
theorem Hub.links_of_core {h k : Hub} (e : h.core = k.core) : h.links = k.links := congrArg Core.links e

/-- A sequence of operations each of which leaves the links leaves them. -/
theorem foldl_links {α : Type} {f : Hub → α → Hub} (keeps : ∀ h x, (f h x).links = h.links) (l : List α) (h : Hub) :
    (l.foldl f h).links = h.links := by
  induction l generalizing h with
  | nil => rfl
  | cons x l ih => exact (ih _).trans (keeps h x)

/-! ## Notices, answers and reports -/

@[simp] theorem notifyDesk_links (d : Desk) (n : Notice) (h : Hub) : (notifyDesk d n h).links = h.links :=
  Hub.links_of_core (notifyDesk_core ..)
@[simp] theorem notifyPanel_links (n : Notice) (h : Hub) : (notifyPanel n h).links = h.links := rfl
@[simp] theorem notifyRequester_links (r : Requester) (n : Notice) (h : Hub) : (notifyRequester r n h).links = h.links :=
  Hub.links_of_core (notifyRequester_core ..)
@[simp] theorem notifyLimits_links (ls : List (Desk × Notice)) (h : Hub) : (notifyLimits ls h).links = h.links :=
  Hub.links_of_core (notifyLimits_core ..)
@[simp] theorem answerTo_links (who : Requester) (code : Code) (body : List Byte) (h : Hub) :
    (answerTo who code body h).links = h.links :=
  Hub.links_of_core (answerTo_core ..)
@[simp] theorem showReportIf_links (b : Bool) (h : Hub) : (showReportIf b h).links = h.links := by cases b <;> rfl

/-! ## The preamps (chapters 1 and 2) -/

@[simp] theorem commitPcu_links (e : PcuEvent) (h : Hub) : (commitPcu e h).links = h.links := by
  unfold commitPcu
  dsimp only
  split <;> simp

@[simp] theorem pcuSetInput_links (who : Requester) (ch : Nat) (gain pad hpf phantom : Option Nat) (h : Hub) :
    (pcuSetInput who ch gain pad hpf phantom h).links = h.links := by
  unfold pcuSetInput; repeat' split
  all_goals simp
@[simp] theorem pcuReadInput_links (who : Requester) (ch : Nat) (h : Hub) : (pcuReadInput who ch h).links = h.links := by
  unfold pcuReadInput; split <;> simp
@[simp] theorem pcuSetGang_links (who : Requester) (group : Nat) (members : List Nat) (h : Hub) :
    (pcuSetGang who group members h).links = h.links := by
  unfold pcuSetGang; dsimp only; repeat' split
  all_goals simp
@[simp] theorem pcuReadGang_links (who : Requester) (g : Option Nat) (h : Hub) : (pcuReadGang who g h).links = h.links := by
  unfold pcuReadGang; repeat' split
  all_goals simp
@[simp] theorem pcuSetTracking_links (who : Requester) (desk : Nat) (channels : BitSet 72) (value : Nat) (h : Hub) :
    (pcuSetTracking who desk channels value h).links = h.links := by
  unfold pcuSetTracking; repeat' split
  all_goals simp
@[simp] theorem pcuSetTrim_links (who : Requester) (desk ch : Nat) (trim : Int) (h : Hub) :
    (pcuSetTrim who desk ch trim h).links = h.links := by
  unfold pcuSetTrim; repeat' split
  all_goals simp
@[simp] theorem zeroCrossing_links (c : Chan) (h : Hub) : (zeroCrossing c h).links = h.links := by
  unfold zeroCrossing; split <;> simp
@[simp] theorem transferTimeout_links (c : Chan) (h : Hub) : (transferTimeout c h).links = h.links := by
  unfold transferTimeout; split <;> simp
@[simp] theorem chargeExpiry_links (c : Chan) (h : Hub) : (chargeExpiry c h).links = h.links := by
  unfold chargeExpiry; split <;> simp
@[simp] theorem dischargeExpiry_links (c : Chan) (h : Hub) : (dischargeExpiry c h).links = h.links := by
  unfold dischargeExpiry; split <;> simp

/-! ## Claims (chapter 3) -/

theorem Hub.links_of_unclaimed {h k : Hub} (e : k.unclaimed = h.unclaimed) : k.links = h.links :=
  congrArg (fun u => u.2.2.1) e

@[simp] theorem commitClaims_links (x : Arb) (h : Hub) : (commitClaims x h).links = h.links :=
  Hub.links_of_unclaimed (commitClaims_unclaimed ..)
@[simp] theorem answerClaims_links (h : Hub) : (answerClaims h).links = h.links :=
  Hub.links_of_unclaimed (answerClaims_unclaimed h)
@[simp] theorem arbClaim_links (who : Requester) (rs : List Nat) (l : Nat) (h : Hub) :
    (arbClaim who rs l h).links = h.links := by
  unfold arbClaim; repeat' split
  all_goals simp
@[simp] theorem arbRelease_links (who : Requester) (rs : List Nat) (h : Hub) : (arbRelease who rs h).links = h.links := by
  unfold arbRelease; repeat' split
  all_goals simp
@[simp] theorem claimLostTo_links (who : Requester) (lost : List (Requester × Res)) (h : Hub) (f : Requester) :
    (claimLostTo who lost h f).links = h.links := by
  unfold claimLostTo; dsimp only; split <;> simp
@[simp] theorem arbOverride_links (who : Requester) (rs : List Nat) (h : Hub) : (arbOverride who rs h).links = h.links := by
  unfold arbOverride; repeat' split
  all_goals simp [foldl_links]
@[simp] theorem arbFreeze_links (who : Requester) (h : Hub) : (arbFreeze who h).links = h.links := by
  unfold arbFreeze; repeat' split
  all_goals simp
@[simp] theorem arbReadClaims_links (who : Requester) (rs : List Nat) (h : Hub) :
    (arbReadClaims who rs h).links = h.links := by
  unfold arbReadClaims; split <;> simp
@[simp] theorem windowExpiry_links (h : Hub) : (windowExpiry h).links = h.links := by simp [windowExpiry]
@[simp] theorem graceExpiry_links (d : Desk) (h : Hub) : (graceExpiry d h).links = h.links := by simp [graceExpiry]

/-! ## Outputs (chapter 6) -/

@[simp] theorem commitMon_links (b : Bool) (o : Vector Output 32) (h : Hub) : (commitMon b o h).links = h.links := by
  simp [commitMon]
@[simp] theorem safeMute_links (cause : SafeCause) (h : Hub) : (safeMute cause h).links = h.links := by simp [safeMute]
@[simp] theorem safeAsserted_links (h : Hub) : (safeAsserted h).links = h.links := by
  unfold safeAsserted; split <;> simp
@[simp] theorem safeReleased_links (h : Hub) : (safeReleased h).links = h.links := by
  unfold safeReleased; split <;> simp
@[simp] theorem fadeComplete_links (i : Out) (h : Hub) : (fadeComplete i h).links = h.links := by
  unfold fadeComplete; split <;> simp
@[simp] theorem revertExpiry_links (i : Out) (h : Hub) : (revertExpiry i h).links = h.links := by
  unfold revertExpiry; dsimp only; split <;> simp
@[simp] theorem monSetPatch_links (who : Requester) (out : Nat) (p f : Option (Nat × Nat)) (fa gap : Nat) (h : Hub) :
    (monSetPatch who out p f fa gap h).links = h.links := by
  unfold monSetPatch; repeat' split
  all_goals simp
@[simp] theorem monOutputEnable_links (who : Requester) (set : BitSet 32) (value : Nat) (h : Hub) :
    (monOutputEnable who set value h).links = h.links := by
  unfold monOutputEnable; repeat' split
  all_goals simp
@[simp] theorem monReadOutput_links (who : Requester) (out : Nat) (h : Hub) : (monReadOutput who out h).links = h.links := by
  unfold monReadOutput; split <;> simp

/-! ## Talkback (chapter 7) -/

@[simp] theorem handTalk_links (t : Tbk) (h : Hub) : (handTalk t h).links = h.links := by simp [handTalk]
@[simp] theorem notifyTalk_links (t : Tbk) (cause : Desk → Option TalkCause) (h : Hub) :
    (notifyTalk t cause h).links = h.links := notifyEach_links ..
@[simp] theorem endTalk_links (d : Desk) (cause : TalkCause) (h : Hub) : (endTalk d cause h).links = h.links := by
  unfold endTalk; split <;> simp
@[simp] theorem talkTimeout_links (d : Desk) (h : Hub) : (talkTimeout d h).links = h.links := by
  unfold talkTimeout; repeat' split
  all_goals simp
@[simp] theorem tbkRestart_links (h : Hub) : (tbkRestart h).links = h.links := by simp [tbkRestart]
@[simp] theorem tbkTalkOn_links (who : Requester) (set : BitSet 32) (duck : Nat) (h : Hub) :
    (tbkTalkOn who set duck h).links = h.links := by
  unfold tbkTalkOn carryTalkOn; dsimp only; repeat' split
  all_goals simp
@[simp] theorem tbkTalkOff_links (who : Requester) (h : Hub) : (tbkTalkOff who h).links = h.links := by
  unfold tbkTalkOff; split <;> simp
@[simp] theorem tbkReadTalk_links (who : Requester) (h : Hub) : (tbkReadTalk who h).links = h.links := answerTo_links ..
@[simp] theorem stageChange_links (i : StageIn) (b : Bool) (h : Hub) : (stageChange i b h).links = h.links := by
  unfold stageChange
  split
  · rfl
  · refine (foldl_links (fun h d => ?_) _ _).trans rfl
    split <;> simp

/-! ## Test records and health (chapter 5) -/

@[simp] theorem setTestStatus_links (d : Desk) (t : TestRec) (st : TestStatus) (h : Hub) :
    (setTestStatus d t st h).links = h.links := (setTestStatus_told d t st h).links
@[simp] theorem testComplete_links (d : Desk) (h : Hub) : (testComplete d h).links = h.links := by
  unfold testComplete; repeat' split
  all_goals simp
@[simp] theorem hlmRestart_links (h : Hub) : (hlmRestart h).links = h.links :=
  foldl_links (fun h d => testComplete_links d h) Desk.all h
@[simp] theorem faultTest_links (l : LaneId) (wasActive : Bool) (h : Hub) : (faultTest l wasActive h).links = h.links := by
  unfold faultTest suspendTest writeCapture; repeat' split
  all_goals simp
@[simp] theorem lnkReadLink_links (who : Requester) (link : Nat) (h : Hub) : (lnkReadLink who link h).links = h.links := by
  unfold lnkReadLink; split <;> simp
@[simp] theorem hlmReadHealth_links (who : Requester) (link : Nat) (h : Hub) :
    (hlmReadHealth who link h).links = h.links := by
  unfold hlmReadHealth; split <;> simp
@[simp] theorem hlmLaneTestStop_links (who : Requester) (link : Nat) (h : Hub) :
    (hlmLaneTestStop who link h).links = h.links := by
  unfold hlmLaneTestStop; dsimp only; repeat' split
  all_goals simp

/-! ## The panel port and the store (chapter 9) -/

@[simp] theorem hubRestart_links (who : Requester) (h : Hub) : (hubRestart who h).links = h.links := by simp [hubRestart]
@[simp] theorem pnlReadNotices_links (who : Requester) (flush : Nat) (h : Hub) :
    (pnlReadNotices who flush h).links = h.links := by
  unfold pnlReadNotices; split <;> simp
@[simp] theorem startNext_links (h : Hub) : (startNext h).links = h.links := by
  unfold startNext; split <;> rfl
@[simp] theorem addEntry_links (e : WriteEntry) (h : Hub) : (addEntry e h).links = h.links := startNext_links _
@[simp] theorem setStatus_links (r : RegionName) (st : RegionStatus) (cause : StoreCause) (h : Hub) :
    (setStatus r st cause h).links = h.links := notifyAll_links ..
@[simp] theorem answerWaiting_links (e : WriteEntry) (code : Code) (h : Hub) : (answerWaiting e code h).links = h.links := by
  unfold answerWaiting; split <;> simp
@[simp] theorem storeWriteFault_links (h : Hub) : (storeWriteFault h).links = h.links := by
  unfold storeWriteFault; repeat' split
  all_goals simp
@[simp] theorem settleExpiry_links (h : Hub) : (settleExpiry h).links = h.links := by
  unfold settleExpiry; split <;> simp
@[simp] theorem stoLockInstall_links (who : Requester) (h : Hub) : (stoLockInstall who h).links = h.links := by
  unfold stoLockInstall; split <;> simp
@[simp] theorem stoEraseInstall_links (who : Requester) (prepared : Bool) (h : Hub) :
    (stoEraseInstall who prepared h).links = h.links := by
  unfold stoEraseInstall; split <;> simp

end Sys2Proof.Machine
end

/-!
An invariant of the part along every command: what the changes of REQ and PNL, the requests handed to their owners, the
events of the rows and the parts of a frame period keep, every step keeps.
-/
section
namespace Sys2Proof.Machine

/-- A property of the part that says nothing of REQ and PNL, and that each event of the part keeps. -/
structure Sustained (I : Hub → Prop) : Prop where
  core : ∀ {h k : Hub}, k.core = h.core → I h → I k
  prepared : ∀ {h : Hub} (b : Bool), I h → I { h with sto := { h.sto with erasePrepared := b } }
  request : ∀ {h : Hub} (who : Requester) (prepared : Bool) (c : Call), I h → I (handOver who prepared c h)
  received : ∀ {h : Hub} (l : LaneId) (f : Option UpFrame), (h.lane l).arrived = false → I h → I (receive l f h)
  acquisition : ∀ {h : Hub} (l : LaneId), I h → I (acquisitionComplete l h)
  qualification : ∀ {h : Hub} (l : LaneId), I h → I (qualificationComplete l h)
  frameLoss : ∀ {h : Hub} (l : LaneId), I h → I (frameLoss l h)
  lightAppears : ∀ {h : Hub} (l : LaneId), I h → I (lightAppears l h)
  lightLoss : ∀ {h : Hub} (l : LaneId), I h → I (lightLoss l h)
  holdover : ∀ {h : Hub} (d : Desk), I h → I (holdoverExpiry d h)
  test : ∀ {h : Hub} (d : Desk), I h → I (testComplete d h)
  crossing : ∀ {h : Hub} (c : Chan), I h → I (zeroCrossing c h)
  timeout : ∀ {h : Hub} (c : Chan), I h → I (transferTimeout c h)
  charge : ∀ {h : Hub} (c : Chan), I h → I (chargeExpiry c h)
  discharge : ∀ {h : Hub} (c : Chan), I h → I (dischargeExpiry c h)
  window : ∀ {h : Hub}, I h → I (windowExpiry h)
  grace : ∀ {h : Hub} (d : Desk), I h → I (graceExpiry d h)
  fade : ∀ {h : Hub} (i : Out), I h → I (fadeComplete i h)
  revert : ∀ {h : Hub} (i : Out), I h → I (revertExpiry i h)
  asserted : ∀ {h : Hub}, I h → I (safeAsserted h)
  released : ∀ {h : Hub}, I h → I (safeReleased h)
  talk : ∀ {h : Hub} (d : Desk), I h → I (talkTimeout d h)
  stage : ∀ {h : Hub} (x : StageIn) (b : Bool), I h → I (stageChange x b h)
  settle : ∀ {h : Hub}, I h → I (settleExpiry h)
  written : ∀ {h : Hub}, I h → I (storeWriteComplete h)
  fault : ∀ {h : Hub}, I h → I (storeWriteFault h)
  slip : ∀ {h : Hub} (d : Desk), I h → I (countSlip d h)
  take : ∀ {h : Hub} {d : Desk} {n : Frame} (x : TakeSource), (h.links.get d).nextTake = some n → I h →
    I (h.setLink d ((h.links.get d).take n x).1)
  deliver : ∀ {h : Hub} {d : Desk}, (h.links.get d).state = .up → I h → I (h.setLink d (h.links.get d).deliver.1)
  samples : ∀ {h : Hub}, I h → I (outputSamples h)
  advances : ∀ {h : Hub} (ports : PortSamples), I h → I (advance ports h)
  sent : ∀ {h : Hub} (x : PerDesk DownFrame), I h → I { h with down := x }
  restored : ∀ (h : Hub) (pins : Pins) (ports : PortSamples), I (h.restored pins ports)

namespace Sustained
variable {I : Hub → Prop}

/-- A sequence of operations each of which keeps the property keeps it. -/
theorem foldl {α : Type} {f : Hub → α → Hub} (keeps : ∀ h x, I h → I (f h x)) (l : List α) {h : Hub} (i : I h) :
    I (l.foldl f h) := by
  induction l generalizing h with
  | nil => exact i
  | cons x l ih => exact ih (keeps h x i)

variable (K : Sustained I)
include K

/-! ## Requests in execution (R157 to R162) -/

theorem answered {h : Hub} (i : I h) (who : Requester) (code : Code) (body : List Byte) : I (answerTo who code body h) :=
  K.core (answerTo_core ..) i

theorem carryOut {h : Hub} (i : I h) (who : Requester) (prepared : Bool) (c : Call) : I (carryOut who prepared c h) := by
  unfold Machine.carryOut
  repeat' split
  · exact K.answered i ..
  · exact K.answered i ..
  · exact K.request who prepared c i

theorem takeHead {h : Hub} (i : I h) (who : Requester) : I (takeHead who h) := by
  unfold Machine.takeHead
  dsimp only
  split
  · exact i
  · split
    · have taken := K.core (Hub.core_setQueue h who { h.req.queues.get who with executing := true }) i
      refine K.carryOut ?_ ..
      unfold clearPrepare
      split
      · exact K.prepared false taken
      · exact taken
    · exact i

theorem arrive {h : Hub} (i : I h) (who : Requester) (e : QEntry) : I (arrive who e h) := by
  have hold (n : Nat) (h : Hub) : (arrivalHold who n h).core = h.core := by unfold arrivalHold; split <;> rfl
  unfold Machine.arrive
  dsimp only
  split
  · exact K.takeHead (K.core ((hold ..).trans (Hub.core_setQueue ..)) i) who
  · exact K.core (Hub.core_setQueue ..) i

theorem messageArrives {h : Hub} (i : I h) (d : Desk) (bytes : List Byte) : I (messageArrives d bytes h) := by
  unfold Machine.messageArrives
  repeat' split
  · exact i
  · exact K.arrive i ..
  · exact i

theorem requestArrival {h : Hub} (i : I h) (d : Desk) (bytes : List Byte) : I (requestArrival d bytes h) := by
  unfold Machine.requestArrival
  split
  · exact K.messageArrives i ..
  · exact i

theorem submit {h : Hub} (i : I h) (who : Requester) (tag : Byte) (c : Call) : I (submit who tag c h) := by
  unfold Machine.submit
  repeat' split
  · exact K.arrive i ..
  · exact K.arrive i ..
  · exact i

theorem answerDelivery {h : Hub} (i : I h) (d : Desk) : I (answerDelivery d h) := by
  unfold Machine.answerDelivery
  split
  · exact K.takeHead (K.core ((Hub.core_setDesk ..).trans (Hub.core_setQueue ..)) i) _
  · exact i

theorem takeCell {h : Hub} (i : I h) (d : Desk) (c : Option Cell) : I (takeCell d c h) := by
  have taken := K.core (Hub.core_setDesk h d { h.req.desks.get d with asm := (asmStep (h.req.desks.get d).asm c).1 }) i
  unfold Machine.takeCell
  dsimp only
  split
  · exact taken
  · exact K.messageArrives taken ..

/-! ## The panel port (R171 to R174) -/

theorem closeTxn {h : Hub} (i : I h) (t : Txn) (out : List Byte) : I (closeTxn t out h) := K.core (h := h) rfl i

theorem writeRequest {h : Hub} (i : I h) (bytes : List Byte) : I (writeRequest bytes h) := by
  have closed (t : Txn) (out : List Byte) (b : Bool) : I (setRejected b (Machine.closeTxn t out h)) := K.core (h := h) rfl i
  unfold Machine.writeRequest
  split
  · exact K.closeTxn i ..
  · dsimp only
    split
    · exact closed ..
    · exact K.arrive (closed ..) ..

theorem readAnswer {h : Hub} (i : I h) (clocked : Nat) : I (readAnswer clocked h) := by
  unfold Machine.readAnswer
  dsimp only
  repeat' split
  · exact K.closeTxn i ..
  · unfold deliverPanel
    refine K.takeHead (K.core (h := h) ?_ i) .panel
    rfl
  · exact K.closeTxn i ..

theorem readNotice {h : Hub} (i : I h) (clocked : Nat) : I (readNotice clocked h) := by
  unfold Machine.readNotice
  dsimp only
  repeat' split
  all_goals exact K.core (h := h) rfl i

/-! ## Frames (R68, R69, R73) -/

theorem missingFrame {h : Hub} (i : I h) (l : LaneId) : I (missingFrame l h) := by
  unfold Machine.missingFrame
  split
  · exact i
  · next early => exact K.received l none (by simpa using early) i

theorem upstreamFrame {h : Hub} (i : I h) (l : LaneId) (bytes : List Byte) : I (upstreamFrame l bytes h) := by
  unfold Machine.upstreamFrame
  split
  · exact i
  · next early => exact K.received l _ (by simpa using early) i

/-! ## The end of a period (R73, R76; log entry 4) -/

theorem takeOne {h : Hub} (i : I h) (d : Desk) (side : Side) (mayRescue : Bool) : I (takeOne d side mayRescue h) := by
  unfold Machine.takeOne
  dsimp only
  split
  · exact i
  · next n next_ =>
    have taken := K.take ((h.links.get d).source side mayRescue n) next_ i
    refine K.takeCell ?_ ..
    split
    · exact K.slip d taken
    · exact taken

theorem takeMany (d : Desk) (side : Side) (mayRescue : Bool) (n : Nat) {h : Hub} (i : I h) :
    I (takeMany d side mayRescue n h) := by
  induction n generalizing h with
  | zero => exact i
  | succ n ih => exact ih (K.takeOne i d side mayRescue)

theorem takeStep {h : Hub} (i : I h) (d : Desk) : I (takeStep h d) := by
  unfold Machine.takeStep
  dsimp only
  repeat' split
  · exact i
  · exact K.takeMany d _ _ _ i
  · exact i

theorem deliverStep {h : Hub} (i : I h) (d : Desk) : I (deliverStep h d) := by
  unfold Machine.deliverStep
  dsimp only
  split
  · next up =>
    have delivered := K.deliver up.1 i
    split
    · exact K.slip d delivered
    · exact delivered
  · exact i

theorem sweepLanes {h : Hub} (i : I h) : I (sweepLanes h) := by
  have lanes := foldl (I := I) (f := sweepLane)
    (fun _ l i => K.qualification l (K.frameLoss l (K.acquisition l i))) LaneId.all i
  unfold Machine.sweepLanes
  exact foldl (I := I) (fun _ d i => K.test d i) Desk.all lanes

theorem sweepChannels {h : Hub} (i : I h) : I (sweepChannels h) := by
  have crossed := foldl (I := I) (fun _ c i => K.crossing c i) (List.finRange 72) i
  have timed := foldl (I := I) (fun _ c i => K.timeout c i) (List.finRange 72) crossed
  have charged := foldl (I := I) (fun _ c i => K.charge c i) (List.finRange 72) timed
  unfold Machine.sweepChannels
  exact foldl (I := I) (fun _ c i => K.discharge c i) (List.finRange 72) charged

theorem sweepClaims {h : Hub} (i : I h) : I (sweepClaims h) := by
  have graces := foldl (I := I) (fun _ d i => K.grace d i) Desk.all (K.window i)
  unfold Machine.sweepClaims
  exact foldl (I := I) (fun _ d i => K.holdover d i) Desk.all graces

theorem sweepOutputs {h : Hub} (i : I h) : I (sweepOutputs h) := by
  have faded := foldl (I := I) (fun _ o i => K.fade o i) (List.finRange 32) i
  have reverted := foldl (I := I) (fun _ o i => K.revert o i) (List.finRange 32) faded
  unfold Machine.sweepOutputs
  exact foldl (I := I) (fun _ d i => K.talk d i) Desk.all reverted

theorem sweep {h : Hub} (i : I h) : I (sweep h) := by
  have timers := K.sweepOutputs (K.sweepClaims (K.sweepChannels (K.sweepLanes i)))
  unfold Machine.sweep
  exact foldl (I := I) (fun _ d i => K.answerDelivery i d) Desk.all (K.fault (K.settle timers))

theorem endPeriod {h : Hub} (i : I h) : I (endPeriod h) := by
  have recorded : I (missingFrames h) := foldl (I := I) (f := fun h d => recordLink d h)
    (fun _ d i => K.missingFrame (K.missingFrame i ⟨d, .p⟩) ⟨d, .s⟩) Desk.all i
  have taken := foldl (I := I) (fun _ d i => K.takeStep i d) Desk.all (K.sweep recorded)
  exact K.samples (foldl (I := I) (fun _ d i => K.deliverStep i d) Desk.all taken)

/-! ## The next period and the power-on (R65, R179) -/

theorem sendFrames {h : Hub} (i : I h) (ports : PortSamples) : I (sendFrames ports h) := by
  refine foldl (I := I) (f := sendFrame ports.st1 ports.st2) (fun h d i => ?_) Desk.all i
  exact K.sent (h := h.setDesk d (h.req.desks.get d).nextCell.2) _ (K.core (Hub.core_setDesk ..) i)

theorem framePeriod {h : Hub} (i : I h) (ports : PortSamples) : I (framePeriod ports h) :=
  K.sendFrames (K.advances ports (K.endPeriod i)) ports

theorem powerOnReset (h : Hub) (pins : Pins) (ports : PortSamples) : I (powerOnReset pins ports h) := by
  have told {h : Hub} (r : RegionName) (i : I h) : I (tellBadRegion r h) := by
    unfold tellBadRegion
    split
    · exact i
    · exact K.core (notifyAll_core ..) i
  refine K.sendFrames (foldl (I := I) (fun h l i => ?_) _ (told .showData (told .install (K.restored h pins ports)))) ports
  split
  · exact K.lightAppears l i
  · exact i

/-! ## Every command -/

omit K in
theorem next {s t : State} {i : Instr} {k : Hub} (e : exec i s = .next t) (x : exec i s = .next (s.withHub k))
    (ik : I k) : I t.hub := by
  rw [x] at e
  cases e
  exact ik

theorem exec {s t : State} {i : Instr} (is : I s.hub) (e : exec i s = .next t) : I t.hub := by
  cases i with
  | powerOnReset pins ports => exact next e rfl (K.powerOnReset s.hub pins ports)
  | framePeriod ports => exact next e rfl (K.framePeriod is ports)
  | upstreamFrame l bytes => exact next e rfl (K.upstreamFrame is l bytes)
  | acquisitionComplete l => exact next e rfl (K.acquisition l is)
  | qualificationComplete l => exact next e rfl (K.qualification l is)
  | frameLoss l => exact next e rfl (K.frameLoss l is)
  | lightAppears l => exact next e rfl (K.lightAppears l is)
  | lightLoss l => exact next e rfl (K.lightLoss l is)
  | holdoverExpiry d => exact next e rfl (K.holdover d is)
  | testComplete d => exact next e rfl (K.test d is)
  | zeroCrossing c => exact next e rfl (K.crossing c is)
  | transferTimeout c => exact next e rfl (K.timeout c is)
  | chargeExpiry c => exact next e rfl (K.charge c is)
  | dischargeExpiry c => exact next e rfl (K.discharge c is)
  | windowExpiry => exact next e rfl (K.window is)
  | graceExpiry d => exact next e rfl (K.grace d is)
  | fadeComplete o => exact next e rfl (K.fade o is)
  | revertExpiry o => exact next e rfl (K.revert o is)
  | safeAsserted => exact next e rfl (K.asserted is)
  | safeReleased => exact next e rfl (K.released is)
  | talkTimeout d => exact next e rfl (K.talk d is)
  | stageTalkPress x => exact next e rfl (K.stage x true is)
  | stageTalkRelease x => exact next e rfl (K.stage x false is)
  | requestArrival d bytes => exact next e rfl (K.requestArrival is d bytes)
  | answerDelivery d => exact next e rfl (K.answerDelivery is d)
  | writeRequest bytes => exact next e rfl (K.writeRequest is bytes)
  | readAnswer clocked => exact next e rfl (K.readAnswer is clocked)
  | readNotice clocked => exact next e rfl (K.readNotice is clocked)
  | statusPoll clocked => exact next e rfl (K.closeTxn is ..)
  | transactionStart => exact next e rfl (K.core (h := s.hub) rfl is)
  | settleExpiry => exact next e rfl (K.settle is)
  | storeWriteComplete => exact next e rfl (K.written is)
  | storeWriteFault => exact next e rfl (K.fault is)
  | setInput | readInput | setGang | readGang | setTracking | setTrim | claim | release | override | freeze | readClaims |
    setPatch | outputEnable | readOutput | talkOn | talkOff | readTalk | readLink | laneSwitch | linkRestart |
    readHealth | clearHealth | laneTest | laneTestStop | readNotices | hubRestart | writeInstall | readInstall |
    lockInstall | erasePrepare | eraseInstall | saveNow => exact next e rfl (K.submit is ..)

theorem step {s t : State} (is : I s.hub) (e : step s = .next t) : I t.hub := by
  unfold Machine.step at e
  split at e
  · cases e
    exact is
  · next i rest _ => exact K.exec (s := { s with pending := rest }) is e

end Sustained
end Sys2Proof.Machine
end

/-!
The link records agree with their lanes (R66, R77, Tables 4-1 and 4-4): what the changes of one lane and of one link keep,
then every operation on lanes, links, health and lane tests.
-/
section
namespace Sys2Proof.Machine

/-! ## A lane's record -/

/-- The fields that the agreement does not speak of are free. -/
theorem LaneRec.Ok.same {l m : LaneRec} (ok : l.Ok) (latency : m.latency = l.latency := by rfl)
    (state : m.state = l.state := by rfl) (qualified : m.qualified = l.qualified := by rfl) : m.Ok := by
  unfold LaneRec.Ok
  rwa [latency, state, qualified]

/-- A lane out of sync (R67, R70, R88). -/
theorem LaneRec.outOfSync_ok (l : LaneRec) {st : LaneState} (out : st = .dark ∨ st = .acquiring) : (l.outOfSync st).Ok := by
  rcases out with rfl | rfl <;> simp [LaneRec.Ok, LaneRec.outOfSync]

/-- A lane that has left the service of its link agrees (R80, step 2). -/
theorem LaneRec.Ok.stepDown {l : LaneRec} (ok : l.Ok) : l.stepDown.Ok ∧ l.stepDown.state ≠ .active := by
  unfold LaneRec.stepDown
  split
  · next active =>
    obtain ⟨sync, -, -⟩ := ok
    have synced : l.latency.isSome = true := sync.2 (.inr (.inr (.inl active)))
    cases l.qualified <;> simp [LaneRec.Ok, synced]
  all_goals next other => exact ⟨ok, by simp [other]⟩

/-- A lane that takes over agrees (R80, step 1). -/
theorem LaneRec.Ok.takeOver {l : LaneRec} (ok : l.Ok) (next : l.state = .ready ∨ l.state = .qualifying) : l.takeOver.Ok := by
  obtain ⟨sync, -, -⟩ := ok
  have synced : l.latency.isSome = true := sync.2 (by tauto)
  simp [LaneRec.Ok, LaneRec.takeOver, synced]

/-- A lane in sync that enters ACTIVE agrees, qualified or not. -/
theorem LaneRec.active_ok {l : LaneRec} (sync : l.latency.isSome = true) (qualified : Bool) :
    LaneRec.Ok { l with state := .active, qualified := qualified } := by
  simp [LaneRec.Ok, sync]

/-! ## A link's record -/

/-- A lane's record replaced by one that agrees and serves the link as the old one did. -/
theorem Link.Ok.withLane {k : Link} (ok : k.Ok) {side : Side} {r : LaneRec} (own : r.Ok)
    (active : r.state = .active ↔ (k.lane side).state = .active)
    (qualified : r.state = .active → r.qualified = (k.lane side).qualified) : (k.withLane side r).Ok := by
  obtain ⟨up, serves, provisional, held, take, lanes⟩ := ok
  refine ⟨up, fun x => ?_, provisional.trans (exists_congr fun x => and_congr_right fun served => ?_), held, take, fun x => ?_⟩
  · rw [Link.withLane_lane]
    split
    · next e => subst e; exact (serves x).trans active.symm
    · exact serves x
  · rw [Link.withLane_lane]
    split
    · next e => subst e; rw [qualified (active.2 ((serves x).1 served))]
    · rfl
  · rw [Link.withLane_lane]
    split
    · exact own
    · exact lanes x

/-- The entry to UP on a lane in sync (R75, R78, R84). -/
theorem Link.Ok.enterUp {k : Link} (ok : k.Ok) (notUp : k.state ≠ .up) {side : Side}
    (sync : (k.lane side).latency.isSome = true) (now lat : Frame) (qualified : Bool) :
    (k.enterUp now side lat qualified).Ok := by
  have own : (k.enterUp now side lat qualified).lane side = { k.lane side with state := .active, qualified := qualified } :=
    (Link.enterUp_lane ..).trans (if_pos rfl)
  have other {x : Side} (ne : x ≠ side) : (k.enterUp now side lat qualified).lane x = k.lane x :=
    (Link.enterUp_lane ..).trans (if_neg ne)
  have serves : (k.enterUp now side lat qualified).activeLane = some side := rfl
  refine ⟨by simp [Link.enterUp], fun x => ?_, ?_, by simp [Link.enterUp], by simp [Link.enterUp], fun x => ?_⟩
  · by_cases e : x = side
    · subst e; simp [own, serves]
    · simp [other e, serves, Ne.symm e, ok.no_active notUp x]
  · simp [serves, own, show (k.enterUp now side lat qualified).provisional = !qualified from rfl]
  · by_cases e : x = side
    · subst e; rw [own]; exact LaneRec.active_ok sync qualified
    · obtain ⟨-, -, -, -, -, lanes⟩ := ok
      rw [other e]; exact lanes x

/-- A link without an ACTIVE lane that leaves UP or HOLDOVER (R83, R85, R88). -/
theorem Link.leave_ok {k : Link} (lanes : ∀ side, (k.lane side).Ok) (idle : ∀ side, (k.lane side).state ≠ .active)
    {st : LinkState} (notUp : st ≠ .up) {deadline : Option Frame} (held : deadline.isSome = true ↔ st = .holdover) :
    (k.leave st deadline).Ok :=
  ⟨by simp [Link.leave, notUp], fun x => ⟨(by cases ·), fun e => absurd e (idle x)⟩, by simp [Link.leave], held,
    by simp [Link.leave, notUp], lanes⟩

theorem Link.switchFrom_taken (k : Link) (old : Side) : (k.switchFrom old).lane old.other = (k.lane old.other).takeOver := by
  simp [Link.switchFrom, Link.lane]

theorem Link.switchFrom_left (k : Link) (old : Side) : (k.switchFrom old).lane old = (k.lane old).stepDown := by
  simp [Link.switchFrom, Link.lane, (Side.other_ne old).symm]

/-- A switch of an UP link to a lane that can take over (R80). -/
theorem Link.switchFrom_ok {k : Link} {old : Side} (up : k.state = .up) (held : k.holdoverDeadline = none)
    (take : k.nextTake.isSome = true) (lanes : ∀ side, (k.lane side).Ok)
    (next : (k.lane old.other).state = .ready ∨ (k.lane old.other).state = .qualifying) : (k.switchFrom old).Ok := by
  have taken : (k.switchFrom old).lane old.other = (k.lane old.other).takeOver := k.switchFrom_taken old
  have left : (k.switchFrom old).lane old = (k.lane old).stepDown := k.switchFrom_left old
  have serves : (k.switchFrom old).activeLane = some old.other := rfl
  obtain ⟨down, idle⟩ := (lanes old).stepDown
  refine ⟨by simp [serves, show (k.switchFrom old).state = k.state from rfl, up], fun x => ?_, ?_,
    by simp [show (k.switchFrom old).holdoverDeadline = none from held, show (k.switchFrom old).state = k.state from rfl, up],
    by simp [show (k.switchFrom old).nextTake = k.nextTake from rfl, take, show (k.switchFrom old).state = k.state from rfl, up],
    fun x => ?_⟩
  · rcases Side.eq_or_other x old with rfl | rfl
    · simp [serves, left, idle]
    · simp [serves, taken, LaneRec.takeOver]
  · have provisional : (k.switchFrom old).provisional = !decide ((k.lane old.other).state = .ready) := rfl
    simp [serves, taken, provisional, LaneRec.takeOver]
  · rcases Side.eq_or_other x old with rfl | rfl
    · rw [left]; exact down
    · rw [taken]; exact (lanes _).takeOver next

/-- A switch without a fault (R86, R87). -/
theorem Link.Ok.switchFrom {k : Link} (ok : k.Ok) {old : Side} (up : k.state = .up)
    (next : (k.lane old.other).state = .ready) : (k.switchFrom old).Ok := by
  obtain ⟨-, -, -, held, take, lanes⟩ := ok
  exact Link.switchFrom_ok up (by simpa [up] using held) (take.2 up) lanes (.inl next)

/-- The link's response to the fault of its active lane (R79, Table 4-5). -/
theorem Link.Ok.respond {k : Link} (ok : k.Ok) {side : Side} (up : k.state = .up) (serving : k.activeLane = some side)
    {r : LaneRec} (own : r.Ok) (idle : r.state ≠ .active) (now : Frame) (limit : Nat) :
    ((k.withLane side r).respond now limit side).Ok := by
  obtain ⟨-, serves, -, held, take, lanes⟩ := ok
  have lanes' (x : Side) : ((k.withLane side r).lane x).Ok := by
    rw [Link.withLane_lane]
    split
    · exact own
    · exact lanes x
  have idle' (x : Side) : ((k.withLane side r).lane x).state ≠ .active := by
    rw [Link.withLane_lane]
    split
    · exact idle
    · next ne =>
      rw [Ne, ← serves x, serving]
      exact fun e => ne (Option.some.inj e).symm
  have unheld : k.holdoverDeadline = none := by simpa [up] using held
  have switched (next : ((k.withLane side r).lane side.other).state = .ready ∨
      ((k.withLane side r).lane side.other).state = .qualifying) : ((k.withLane side r).switchFrom side).Ok :=
    Link.switchFrom_ok up unheld (take.2 up) lanes' next
  unfold Link.respond
  split
  · next ready => exact switched (.inl ready)
  · next qualifying => exact switched (.inr qualifying)
  all_goals exact Link.leave_ok lanes' idle' (by simp) (by simp)

/-- The ACTIVE lane takes qualified yes (R71). -/
theorem Link.Ok.confirmed {k : Link} (ok : k.Ok) {side : Side} {r : LaneRec} (serving : (k.lane side).state = .active)
    (active : r.state = .active) (sync : r.latency.isSome = true) (qualified : r.qualified = true) :
    (k.confirmed side r).Ok := by
  have lane (x : Side) : (k.confirmed side r).lane x = if x = side then r else k.lane x := Link.withLane_lane ..
  obtain ⟨up, serves, -, held, take, lanes⟩ := ok
  have served : (k.confirmed side r).activeLane = some side := (serves side).2 serving
  refine ⟨up, fun x => ?_, ?_, held, take, fun x => ?_⟩
  · rw [lane]
    split
    · next e => subst e; simp [served, active]
    · exact serves x
  · simp [served, lane, qualified, show (k.confirmed side r).provisional = false from rfl]
  · rw [lane]
    split
    · simp [LaneRec.Ok, active, sync]
    · exact lanes x

/-- LINK_RESTART (R88). -/
theorem Link.Ok.restart {k : Link} (ok : k.Ok) : k.restart.Ok := by
  have lane (x : Side) : (k.restart.lane x).Ok ∧ (k.restart.lane x).state ≠ .active := by
    rw [Link.restart_lane]
    unfold LaneRec.restart
    cases (k.lane x).light
    · exact ⟨LaneRec.outOfSync_ok _ (.inl rfl), by simp [LaneRec.outOfSync]⟩
    · exact ⟨LaneRec.outOfSync_ok _ (.inr rfl), by simp [LaneRec.outOfSync]⟩
  by_cases down : k.state = .down
  · obtain ⟨up, -, provisional, held, take, -⟩ := ok
    have kept : k.restart = { k with lanes := ⟨k.lanes.p.restart, k.lanes.s.restart⟩ } := by simp [Link.restart, down]
    have unserved : k.activeLane = none := by simpa [down] using up
    refine ⟨by rw [kept]; exact up, fun x => ?_, ?_, by rw [kept]; exact held, by rw [kept]; exact take, fun x => (lane x).1⟩
    · have : k.restart.activeLane = none := by rw [kept]; exact unserved
      simp [this, (lane x).2]
    · have none_ : k.restart.activeLane = none := by rw [kept]; exact unserved
      have same : k.restart.provisional = k.provisional := by rw [kept]
      rw [same, provisional]
      simp [unserved, none_]
  · rw [Link.restart_left down] at lane ⊢
    exact Link.leave_ok (k := { k with lanes := ⟨k.lanes.p.restart, k.lanes.s.restart⟩ }) (st := .down) (deadline := none)
      (fun x => (lane x).1) (fun x => (lane x).2) (by simp) (by simp)

/-! ## The links of the part -/

/-- Every link record agrees with its state and its lanes (R66, R77). -/
structure Hub.LinksOk (h : Hub) : Prop where
  link : ∀ d : Desk, (h.links.get d).Ok

section
variable {h k : Hub}

theorem Hub.LinksOk.of_links (ok : h.LinksOk) (links : k.links = h.links) : k.LinksOk :=
  ⟨fun d => by rw [links]; exact ok.link d⟩

theorem Hub.LinksOk.setHealth (ok : h.LinksOk) (l : LaneId) (x : Health) : (h.setHealth l x).LinksOk := ok.of_links rfl

theorem Hub.LinksOk.setTest (ok : h.LinksOk) (d : Desk) (t : Option TestRec) : (h.setTest d t).LinksOk := ok.of_links rfl

theorem Hub.LinksOk.withSto (ok : h.LinksOk) (x : Sto) : Hub.LinksOk { h with sto := x } := ok.of_links rfl

theorem Hub.LinksOk.setLink (ok : h.LinksOk) {d : Desk} {x : Link} (own : x.Ok) : (h.setLink d x).LinksOk := by
  refine ⟨fun e => ?_⟩
  rw [Hub.setLink_links]
  split
  · exact own
  · exact ok.link e

theorem Hub.LinksOk.lane (ok : h.LinksOk) (l : LaneId) : (h.lane l).Ok := by
  obtain ⟨-, -, -, -, -, lanes⟩ := ok.link l.link
  exact lanes l.side

/-- A lane's record replaced by one that agrees and serves its link as the old one did. -/
theorem Hub.LinksOk.setLane (ok : h.LinksOk) {l : LaneId} {r : LaneRec} (own : r.Ok)
    (active : r.state = .active ↔ (h.lane l).state = .active)
    (qualified : r.state = .active → r.qualified = (h.lane l).qualified) : (h.setLane l r).LinksOk := by
  rw [Hub.setLane_eq]
  exact ok.setLink ((ok.link l.link).withLane own active qualified)

/-- A lane's record replaced, its state, its sync and its qualification as they were. -/
theorem Hub.LinksOk.setLane_same (ok : h.LinksOk) {l : LaneId} {r : LaneRec} (latency : r.latency = (h.lane l).latency := by rfl)
    (state : r.state = (h.lane l).state := by rfl) (qualified : r.qualified = (h.lane l).qualified := by rfl) :
    (h.setLane l r).LinksOk :=
  ok.setLane ((ok.lane l).same latency state qualified) (by rw [state]) fun _ => qualified

/-- A lane's record replaced, the lane serving neither before nor after. -/
theorem Hub.LinksOk.setLane_idle (ok : h.LinksOk) {l : LaneId} {r : LaneRec} (own : r.Ok)
    (before : (h.lane l).state ≠ .active) (after : r.state ≠ .active) : (h.setLane l r).LinksOk :=
  ok.setLane own (by simp [before, after]) fun active => absurd active after

end

/-! ## A change of a link settled -/

/-- What a change of a link is followed by leaves the links, but for a test that resumes. -/
theorem settleLink_links (b : Hub) (d : Desk) (first : Side) (h : Hub) :
    (settleLink b d first h).links = ((resumeTest d h).getD h).links := by
  have told (h : Hub) : (tellLinkChange (b.links.get d) d (tellLaneChange b ⟨d, first.other⟩
      (tellLaneChange b ⟨d, first⟩ h))).links = h.links := (tellLink_told b d first h).links
  unfold settleLink
  dsimp only
  rw [linkEvent_links]
  split
  · exact (tellTest_told ..).links.trans (told _)
  · exact told _

/-- A test that resumes makes its READY lane TESTING (R108). -/
theorem resumeTest_linksOk {d : Desk} {h : Hub} (ok : h.LinksOk) : ((resumeTest d h).getD h).LinksOk := by
  unfold resumeTest
  split
  · exact ok
  · next t _ =>
    split
    · next can =>
      simp only [resumable, decide_eq_true_eq] at can
      obtain ⟨-, ready, -⟩ := can
      have lane : (h.lane ⟨d, t.lane⟩).state = .ready := ready
      obtain ⟨sync, trusted, -⟩ := ok.lane ⟨d, t.lane⟩
      have tested : (h.setTest d (some { t with status := .running, leadIn := true })).LinksOk := ok.setTest ..
      have serving : (h.lane ⟨d, t.lane⟩).state ≠ .active := by simp [lane]
      exact tested.setLane_idle ⟨by simpa using sync.2 (.inr (.inl lane)), fun _ => trusted (.inl lane), by simp⟩ serving
        (by simp)
    · exact ok

theorem settleLink_linksOk {h : Hub} (ok : h.LinksOk) (b : Hub) (d : Desk) (first : Side) :
    (settleLink b d first h).LinksOk :=
  (resumeTest_linksOk ok).of_links (settleLink_links ..)

end Sys2Proof.Machine
end

/-!
Every operation on lanes, links, health and lane tests keeps the link records in agreement; with them every step.
-/
section
namespace Sys2Proof.Machine

/-! ## Switches and health (R80, R86, R87, R94 to R97) -/

theorem switchLink_linksOk {d : Desk} {old : Side} {h : Hub} (ok : h.LinksOk) (up : (h.links.get d).state = .up)
    (next : ((h.links.get d).lane old.other).state = .ready) : (switchLink d old h).LinksOk :=
  settleLink_linksOk (ok.setLink ((ok.link d).switchFrom up next)) h d old

theorem Hub.isActive_iff {h : Hub} {l : LaneId} : h.isActive l = true ↔
    (h.links.get l.link).state = .up ∧ (h.links.get l.link).activeLane = some l.side := decide_eq_true_iff

theorem plannedSwitch_linksOk {h : Hub} (ok : h.LinksOk) (l : LaneId) (v : Verdict) : (plannedSwitch l v h).LinksOk := by
  unfold plannedSwitch
  split
  · next can =>
    obtain ⟨-, active, ready, -⟩ := can
    exact switchLink_linksOk ok (Hub.isActive_iff.1 active).1 ready
  · exact ok

theorem setVerdict_linksOk {h : Hub} (ok : h.LinksOk) (l : LaneId) (v : Verdict) : (setVerdict l v h).LinksOk := by
  unfold setVerdict
  dsimp only
  split
  · exact ok
  · exact plannedSwitch_linksOk ((ok.setHealth l _).of_links (notifyDeskPanel_links ..)) l v

theorem computeVerdict_linksOk {h : Hub} (ok : h.LinksOk) (l : LaneId) : (computeVerdict l h).LinksOk :=
  setVerdict_linksOk ok l _

theorem computeVerdicts_linksOk {h : Hub} (ok : h.LinksOk) : (computeVerdicts h).LinksOk :=
  Sustained.foldl (I := Hub.LinksOk) (fun _ l ok => computeVerdict_linksOk ok l) LaneId.all ok

theorem countHealth_linksOk {h : Hub} (ok : h.LinksOk) (l : LaneId) (n : PerCounter Nat) : (countHealth l n h).LinksOk :=
  computeVerdict_linksOk (ok.setHealth l _) l

theorem countSlip_linksOk {h : Hub} (ok : h.LinksOk) (d : Desk) : (countSlip d h).LinksOk := by
  unfold countSlip
  split
  · exact ok
  · exact countHealth_linksOk ok ..

theorem hlmClearHealth_linksOk {h : Hub} (ok : h.LinksOk) (who : Requester) (lane : Nat) :
    (hlmClearHealth who lane h).LinksOk := by
  unfold hlmClearHealth
  repeat' split
  · exact ok.of_links (answerTo_links ..)
  · next l _ _ => exact (setVerdict_linksOk (ok.setHealth l _) l .good).of_links (answerTo_links ..)
  · exact ok.of_links (answerTo_links ..)

theorem installChanged_linksOk {h : Hub} (ok : h.LinksOk) : (installChanged h).LinksOk :=
  (computeVerdicts_linksOk ok).of_links (commitMon_links ..)

/-! ## Frame results (R68, R69, R84, R89) -/

theorem hlmResult_linksOk {h : Hub} (ok : h.LinksOk) (l : LaneId) (f : Option UpFrame) : (hlmResult l f h).LinksOk := by
  unfold hlmResult
  dsimp only
  split
  · split
    · exact ok
    · exact countHealth_linksOk ok ..
  · exact countHealth_linksOk (ok.setTest ..) ..

/-- A lane becomes QUALIFYING in sync; a link in HOLDOVER comes back on it (R68, R84, R89). -/
theorem qualifying_linksOk {h : Hub} (ok : h.LinksOk) {l : LaneId} {r : LaneRec} {lat : Frame}
    (idle : (h.lane l).state ≠ .active) (state : r.state = .qualifying) (sync : r.latency = some lat)
    (qualified : r.qualified = false) :
    (h.setLane l r).LinksOk ∧ ((h.links.get l.link).state = .holdover → ∀ b now,
      (settleLink b l.link l.side ((h.setLane l r).setLink l.link
        (((h.setLane l r).links.get l.link).enterUp now l.side lat false))).LinksOk) := by
  have own : r.Ok := by simp [LaneRec.Ok, state, sync, qualified]
  have set : (h.setLane l r).LinksOk := ok.setLane_idle own idle (by simp [state])
  refine ⟨set, fun held b now => settleLink_linksOk (set.setLink ((set.link l.link).enterUp ?_ ?_ ..)) ..⟩
  · rw [Hub.setLane_link, Link.withLane, held]
    simp
  · rw [Hub.setLane_link, Link.withLane_lane, if_pos rfl, sync]
    rfl

theorem testingReturns_linksOk {h : Hub} (ok : h.LinksOk) (l : LaneId) (f : UpFrame) : (testingReturns l f h).LinksOk := by
  unfold testingReturns
  dsimp only
  split
  · next returns =>
    obtain ⟨testing, -, -⟩ := returns
    obtain ⟨sync, -, -⟩ := ok.lane l
    obtain ⟨lat, latency⟩ := Option.isSome_iff_exists.1 (sync.2 (.inr (.inr (.inr testing))))
    obtain ⟨set, back⟩ := qualifying_linksOk ok (l := l)
      (r := { h.lane l with state := .qualifying, qualified := false, qualifyCount := 0, qualifyDue := false })
      (by simp [testing]) rfl latency rfl
    split
    · next x held some_ =>
      obtain rfl : lat = x := Option.some.inj (latency.symm.trans some_)
      exact back (by rwa [Hub.setLane_link] at held) ..
    · exact settleLink_linksOk set ..
  · exact ok

/-- A frame, or a lost one, received on a lane. -/
theorem receive_linksOk {h : Hub} (ok : h.LinksOk) (l : LaneId) (f : Option UpFrame) : (receive l f h).LinksOk := by
  have noted : (h.setLane l { h.lane l with arrived := true, rx := f }).LinksOk := ok.setLane_same
  have bad (due : Frame) : (badResult l due (h.setLane l { h.lane l with arrived := true, rx := f })).LinksOk :=
    hlmResult_linksOk noted.setLane_same ..
  unfold receive
  dsimp only
  repeat' split
  · exact bad _
  · exact hlmResult_linksOk (testingReturns_linksOk noted.setLane_same ..) ..
  · exact bad _
  · rw [Hub.setLane_setLane]
    unfold LaneRec.acquire
    repeat' split
    all_goals exact ok.setLane_same
  · exact noted

/-! ## Acquisition and qualification (R68, R71, R78, R84) -/

theorem acquisitionComplete_linksOk {h : Hub} (ok : h.LinksOk) (l : LaneId) : (acquisitionComplete l h).LinksOk := by
  cases rx : (h.lane l).rx with
  | none => unfold acquisitionComplete; simpa only [rx] using ok
  | some f =>
    by_cases run : (h.lane l).state = .acquiring ∧ 4 ≤ (h.lane l).acquireRun
    · obtain ⟨acquiring, run⟩ := run
      obtain ⟨set, back⟩ := qualifying_linksOk ok (l := l) (r := (h.lane l).acquiredAs (h.now - f.number) f)
        (lat := h.now - f.number) (by simp [acquiring]) rfl rfl rfl
      rw [acquisitionComplete_eq rx acquiring run]
      dsimp only
      repeat' split
      · exact ok.setLane_same
      · next held => exact back held ..
      · exact settleLink_linksOk set ..
    · unfold acquisitionComplete
      simp only [rx, if_neg run]
      exact ok

theorem qualificationComplete_linksOk {h : Hub} (ok : h.LinksOk) (l : LaneId) : (qualificationComplete l h).LinksOk := by
  by_cases due : (h.lane l).qualifyDue = true ∧ (h.lane l).counting = true
  · obtain ⟨due, counting⟩ := due
    obtain ⟨sync, -, -⟩ := ok.lane l
    have counts : (h.lane l).state = .qualifying ∨ (h.lane l).state = .active := by
      unfold LaneRec.counting at counting
      split at counting <;> simp_all
    have synced : (h.lane l).latency.isSome = true := sync.2 (by tauto)
    rw [qualificationComplete_eq due counting]
    split
    · next active =>
      refine settleLink_linksOk ?_ ..
      have record : (h.setLink l.link { h.links.get l.link with provisional := false }).setLane l
          { h.lane l with qualified := true, qualifyDue := false } =
          h.setLink l.link ((h.links.get l.link).confirmed l.side { h.lane l with qualified := true, qualifyDue := false }) := by
        rw [Hub.setLane_eq, Hub.setLink_setLink, Hub.setLink_links, if_pos rfl]
        rfl
      rw [record]
      refine ok.setLink ?_
      exact (ok.link l.link).confirmed active active synced rfl
    · next other =>
      have qualifying := counts.resolve_right other
      split
      · exact settleLink_linksOk (ok.setLane_idle (l := l)
          (r := { h.lane l with state := .ready, qualified := true, qualifyDue := false })
          (by simp [LaneRec.Ok, synced]) other (by simp)) ..
      · next notUp =>
        split
        · next lat latency =>
          have kept : ((h.links.get l.link).withLane l.side { h.lane l with qualifyDue := false }).Ok :=
            (ok.link l.link).withLane ((ok.lane l).same) Iff.rfl fun _ => rfl
          refine settleLink_linksOk (ok.setLink (kept.enterUp notUp ?_ ..)) ..
          rw [Link.withLane_lane, if_pos rfl]
          exact synced
        · exact ok
  · unfold qualificationComplete
    dsimp only
    rw [if_neg (by simpa using due)]
    exact ok

/-! ## Faults, light and holdover (R67, R70, R79, R83, R85) -/

theorem hlmFault_linksOk {h : Hub} (ok : h.LinksOk) (l : LaneId) (cause : FaultCause) (prior : LaneState) (active : Bool) :
    (hlmFault l cause prior active h).LinksOk :=
  (countHealth_linksOk ok l (faultCount cause)).of_links (faultTest_links ..)

theorem missingFrame_linksOk {h : Hub} (ok : h.LinksOk) (l : LaneId) : (missingFrame l h).LinksOk := by
  unfold missingFrame
  split
  · exact ok
  · exact receive_linksOk ok ..

theorem laneFault_linksOk {h : Hub} (ok : h.LinksOk) (l : LaneId) (cause : FaultCause) {st : LaneState}
    (out : st = .dark ∨ st = .acquiring) : (laneFault l cause st h).LinksOk := by
  have recorded : (recordTested l h).LinksOk := by
    unfold recordTested
    split
    · exact missingFrame_linksOk ok _
    · exact ok
  unfold laneFault
  dsimp only
  have before : (testComplete l.link (recordTested l h)).LinksOk := recorded.of_links (testComplete_links ..)
  generalize testComplete l.link (recordTested l h) = k at before
  have own : ((k.lane l).outOfSync st).Ok := LaneRec.outOfSync_ok _ out
  have idle : ((k.lane l).outOfSync st).state ≠ .active := by rcases out with rfl | rfl <;> simp [LaneRec.outOfSync]
  refine hlmFault_linksOk (settleLink_linksOk ?_ ..) ..
  split
  · next active =>
    obtain ⟨up, serving⟩ := Hub.isActive_iff.1 active
    rw [Hub.setLane_link, Hub.setLane_eq, Hub.setLink_setLink]
    exact before.setLink ((before.link l.link).respond up serving own idle ..)
  · next inactive =>
    refine before.setLane_idle own (fun active => inactive (Hub.isActive_iff.2 ?_)) idle
    obtain ⟨up, serves, -⟩ := before.link l.link
    have serving := (serves l.side).2 active
    exact ⟨up.2 (by rw [serving]; rfl), serving⟩

theorem frameLoss_linksOk {h : Hub} (ok : h.LinksOk) (l : LaneId) : (frameLoss l h).LinksOk := by
  unfold frameLoss
  split
  · exact laneFault_linksOk ok l _ (.inr rfl)
  · exact ok

theorem lightAppears_linksOk {h : Hub} (ok : h.LinksOk) (l : LaneId) : (lightAppears l h).LinksOk := by
  have lit : (setLight l true h).LinksOk := ok.setLane_same
  have same : ((setLight l true h).lane l) = { h.lane l with light := true } := by simp [setLight]
  unfold lightAppears
  dsimp only
  repeat' split
  · exact ok
  · next dark =>
    obtain ⟨sync, -, unqualified⟩ := ok.lane l
    have unsync : (h.lane l).latency = none := by simpa [dark] using sync
    refine settleLink_linksOk (lit.setLane_idle ?_ ?_ ?_) ..
    · rw [same]
      simp [LaneRec.Ok, unsync, unqualified (.inl dark)]
    · simp [same, dark]
    · simp
  · exact lit

theorem lightLoss_linksOk {h : Hub} (ok : h.LinksOk) (l : LaneId) : (lightLoss l h).LinksOk := by
  have recorded : (recordLink l.link h).LinksOk := missingFrame_linksOk (missingFrame_linksOk ok _) _
  have unlit : (setLight l false (frameLoss l (recordLink l.link h))).LinksOk := (frameLoss_linksOk recorded l).setLane_same
  unfold lightLoss
  dsimp only
  repeat' split
  · exact unlit
  · exact laneFault_linksOk unlit l _ (.inl rfl)
  · exact ok

theorem holdoverExpiry_linksOk {h : Hub} (ok : h.LinksOk) (d : Desk) : (holdoverExpiry d h).LinksOk := by
  unfold holdoverExpiry
  dsimp only
  split
  · next expired =>
    obtain ⟨-, -, -, -, -, lanes⟩ := ok.link d
    refine settleLink_linksOk (ok.setLink (Link.leave_ok (st := .down) (deadline := none) lanes
      (fun x => (ok.link d).no_active ?_ x) (by simp) (by simp))) ..
    simp [expired.1]
  · exact ok

/-! ## Requests (R86, R88, R102) -/

theorem lnkLaneSwitch_linksOk {h : Hub} (ok : h.LinksOk) (who : Requester) (link : Nat) :
    (lnkLaneSwitch who link h).LinksOk := by
  unfold lnkLaneSwitch
  repeat' split
  · exact ok.of_links (answerTo_links ..)
  · next up _ ready => exact (switchLink_linksOk ok up ready).of_links (answerTo_links ..)
  all_goals exact ok.of_links (answerTo_links ..)

theorem lnkLinkRestart_linksOk {h : Hub} (ok : h.LinksOk) (who : Requester) (link : Nat) :
    (lnkLinkRestart who link h).LinksOk := by
  unfold lnkLinkRestart
  split
  · exact ok.of_links (answerTo_links ..)
  · next d _ =>
    have before : (testComplete d h).LinksOk := ok.of_links (testComplete_links ..)
    exact (settleLink_linksOk (before.setLink (before.link d).restart) ..).of_links (answerTo_links ..)

theorem hlmLaneTest_linksOk {h : Hub} (ok : h.LinksOk) (who : Requester) (lane seconds : Nat) :
    (hlmLaneTest who lane seconds h).LinksOk := by
  unfold hlmLaneTest
  repeat' split
  · exact ok.of_links (answerTo_links ..)
  · exact ok.of_links (answerTo_links ..)
  · next l _ _ _ _ can =>
    have ready : (h.lane l).state = .ready := by
      simp only [testReady, decide_eq_true_eq] at can
      obtain ⟨-, -, ready⟩ := can
      exact ready
    obtain ⟨sync, trusted, -⟩ := ok.lane l
    have started : (h.setTest l.link (some (TestRec.start l.side seconds))).LinksOk := ok.setTest ..
    have serving : (h.lane l).state ≠ .active := by simp [ready]
    have tested := started.setLane_idle (l := l) (r := { h.lane l with state := .testing, qualifyDue := false })
      ⟨by simpa using sync.2 (.inr (.inl ready)), fun _ => trusted (.inl ready), by simp⟩ serving (by simp)
    exact ((settleLink_linksOk tested ..).of_links (tellTest_told ..).links).of_links (answerTo_links ..)
  all_goals exact ok.of_links (answerTo_links ..)

theorem handOver_linksOk {h : Hub} (ok : h.LinksOk) (who : Requester) (prepared : Bool) (c : Call) :
    (handOver who prepared c h).LinksOk := by
  cases c with
  | clearHealth lane => exact hlmClearHealth_linksOk ok ..
  | laneSwitch link => exact lnkLaneSwitch_linksOk ok ..
  | linkRestart link => exact lnkLinkRestart_linksOk ok ..
  | laneTest lane seconds => exact hlmLaneTest_linksOk ok ..
  | writeInstall settings =>
    show (stoWriteInstall who settings h).LinksOk
    unfold stoWriteInstall
    repeat' split
    · exact ok.of_links (answerTo_links ..)
    · exact ok.of_links (answerTo_links ..)
    · next x _ _ =>
      exact (installChanged_linksOk (ok.withSto _)).of_links (addEntry_links ..)
  | setInput | readInput | setGang | readGang | setTracking | setTrim | claim | release | override | freeze | readClaims |
    setPatch | outputEnable | readOutput | talkOn | talkOff | readTalk | readLink | readHealth | laneTestStop | readInstall |
    lockInstall | erasePrepare | eraseInstall | saveNow | hubRestart | readNotices | unknown | malformed =>
    exact ok.of_links (by simp [handOver, stoReadInstall, stoErasePrepare, stoSaveNow])

/-! ## Writes, takes and periods (R73, R75, R181) -/

theorem storeWriteComplete_linksOk {h : Hub} (ok : h.LinksOk) : (storeWriteComplete h).LinksOk := by
  have finished {h : Hub} (ok : h.LinksOk) (k : WriteKind) : (finishEntry k h).LinksOk := by
    cases k with
    | save => exact ok
    | lock => exact ok.withSto _
    | erase => exact installChanged_linksOk (ok.withSto _)
  have completed {h : Hub} (ok : h.LinksOk) (w : RunningWrite) : (completeWrite w h).LinksOk := by
    unfold completeWrite
    dsimp only
    refine Hub.LinksOk.of_links (finished ?_ w.entry.kind) ((startNext_links _).trans (answerWaiting_links ..))
    split
    · exact ok.withSto _
    · exact (ok.withSto _).of_links (setStatus_links ..)
  unfold storeWriteComplete
  dsimp only
  repeat' split
  · exact ok.withSto _
  · exact completed (ok.withSto _) _
  · exact ok.withSto _

/-- A take moves the next number of a link that has one (R73). -/
theorem Link.Ok.take {k : Link} (ok : k.Ok) {n : Frame} (next : k.nextTake = some n) (x : TakeSource) : (k.take n x).1.Ok := by
  obtain ⟨up, serves, provisional, held, take, lanes⟩ := ok
  refine ⟨up, serves, provisional, held, ?_, lanes⟩
  rw [next] at take
  exact take

/-- A delivery moves the return buffer alone (R75). -/
theorem Link.Ok.deliver {k : Link} (ok : k.Ok) : k.deliver.1.Ok := by
  unfold Link.deliver
  split <;> exact ok

theorem Link.Ok.newPeriod {k : Link} (ok : k.Ok) : k.newPeriod.Ok := by
  have lane (x : Side) : k.newPeriod.lane x = (k.lane x).newPeriod := by cases x <;> rfl
  obtain ⟨up, serves, provisional, held, take, lanes⟩ := ok
  refine ⟨up, fun x => ?_, provisional.trans (exists_congr fun x => ?_), held, take, fun x => ?_⟩
  · rw [lane]; exact serves x
  · rw [lane]; exact Iff.rfl
  · rw [lane]; exact (lanes x).same

theorem advance_linksOk {h : Hub} (ok : h.LinksOk) (ports : PortSamples) : (advance ports h).LinksOk := by
  refine ⟨fun d => ?_⟩
  have own : (advance ports h).links.get d = (h.links.get d).newPeriod := PerDesk.get_of ..
  rw [own]
  exact (ok.link d).newPeriod

/-! ## Every step -/

theorem outputSamples_links (h : Hub) : (outputSamples h).links = h.links := by
  simp only [outputSamples]

theorem restored_linksOk (h : Hub) (pins : Pins) (ports : PortSamples) : (h.restored pins ports).LinksOk := by
  refine ⟨fun d => ?_⟩
  have own : (h.restored pins ports).links.get d = Link.reset := PerDesk.get_of ..
  rw [own]
  exact reset_linkOk

/-- The agreement of the links with their lanes is kept by every event of the part. -/
theorem sustained_linksOk : Sustained Hub.LinksOk where
  core e ok := ok.of_links (congrArg Core.links e)
  prepared _ ok := ok.withSto _
  request who prepared c ok := handOver_linksOk ok who prepared c
  received l f _ ok := receive_linksOk ok l f
  acquisition l ok := acquisitionComplete_linksOk ok l
  qualification l ok := qualificationComplete_linksOk ok l
  frameLoss l ok := frameLoss_linksOk ok l
  lightAppears l ok := lightAppears_linksOk ok l
  lightLoss l ok := lightLoss_linksOk ok l
  holdover d ok := holdoverExpiry_linksOk ok d
  test d ok := ok.of_links (testComplete_links d _)
  crossing c ok := ok.of_links (zeroCrossing_links c _)
  timeout c ok := ok.of_links (transferTimeout_links c _)
  charge c ok := ok.of_links (chargeExpiry_links c _)
  discharge c ok := ok.of_links (dischargeExpiry_links c _)
  window ok := ok.of_links (windowExpiry_links _)
  grace d ok := ok.of_links (graceExpiry_links d _)
  fade i ok := ok.of_links (fadeComplete_links i _)
  revert i ok := ok.of_links (revertExpiry_links i _)
  asserted ok := ok.of_links (safeAsserted_links _)
  released ok := ok.of_links (safeReleased_links _)
  talk d ok := ok.of_links (talkTimeout_links d _)
  stage x b ok := ok.of_links (stageChange_links x b _)
  settle ok := ok.of_links (settleExpiry_links _)
  written ok := storeWriteComplete_linksOk ok
  fault ok := ok.of_links (storeWriteFault_links _)
  slip d ok := countSlip_linksOk ok d
  take x next ok := ok.setLink ((ok.link _).take next x)
  deliver _ ok := ok.setLink (ok.link _).deliver
  samples ok := ok.of_links (outputSamples_links _)
  advances ports ok := advance_linksOk ok ports
  sent _ ok := ok.of_links rfl
  restored h pins ports := restored_linksOk h pins ports

/-- Settles O55: the entry to UP, the switch, the fault and the leaving of a link each set the fields of its record together
with the states of its lanes; every other event leaves them. -/
theorem stepKeepsTheLinks : Obligations.StepKeepsTheLinks := by
  unfold Obligations.StepKeepsTheLinks
  exact fun s t ok e => (sustained_linksOk.step ⟨ok⟩ e).link

end Sys2Proof.Machine
end

/-!
LIGHT_APPEARS and LANE_SWITCH (R67, R80, R86): a change of a link's lanes that no other block has a part in.
-/
section
namespace Sys2Proof.Machine

/-- A change of a link that stays in its state is told, and nothing else follows from it. -/
theorem settleLink_still {b h : Hub} {d : Desk} (plain : resumeTest d h = none)
    (state : (h.links.get d).state = (b.links.get d).state) (first : Side) : h.Told (settleLink b d first h) := by
  have told : h.Told (tellLink b d first h) := tellLink_told ..
  rw [settleLink_plain plain, linkEvent_same (by rw [told.links, state])]
  exact told

/-! ## LIGHT_APPEARS (R67) -/

/-- A lane that is not DARK holds the light and nothing else. -/
theorem lightAppears_lit {l : LaneId} {h : Hub} (light : (h.lane l).light = false) (lit : (h.lane l).state ≠ .dark) :
    lightAppears l h = h.setLane l { h.lane l with light := true } := by
  simp [lightAppears, light, lit, setLight]

/-- A DARK lane enters ACQUIRING (R67). -/
theorem lightAppears_dark {l : LaneId} {h : Hub} (light : (h.lane l).light = false) (dark : (h.lane l).state = .dark) :
    lightAppears l h =
      settleLink h l.link l.side (h.setLane l { h.lane l with light := true, state := .acquiring, acquireRun := 0 }) := by
  simp [lightAppears, light, dark, setLight, Hub.setLane_setLane]

/-- Settles O30: a lane that is not DARK by its equation, a DARK one as a change of one lane alone. (`lightAppears` is the
model's operation.) -/
theorem lightAppearsOnALane : Obligations.LightAppears := by
  unfold Obligations.LightAppears
  intro l s light untested r
  have event {t : Hub} (e : lightAppears l s.hub = t) : exec (.lightAppears l) s = .next (s.withHub t) :=
    congrArg (fun h => Host.Outcome.next (s.withHub h)) e
  refine ⟨fun lit => event (lightAppears_lit light lit), fun dark => ?_⟩
  refine event ((lightAppears_dark light dark).trans ?_)
  exact settleLink_setLane (.inl (by rw [dark]; simp)) (resumeTest_untested untested)

/-! ## LANE_SWITCH (R80, R86) -/

/-- The lane that leaves service is READY or QUALIFYING by its qualification (R80, step 2). -/
theorem LaneRec.stepDown_active {r : LaneRec} (active : r.state = .active) :
    r.stepDown = { r with state := if r.qualified then .ready else .qualifying } := by
  unfold LaneRec.stepDown
  simp only [active]

theorem LaneRec.takeOver_ready {r : LaneRec} (ready : r.state = .ready) :
    r.takeOver = { r with state := .active, qualified := true } := by
  simp [LaneRec.takeOver, ready]

theorem Link.switchFrom_provisional {k : Link} {old : Side} (ready : (k.lane old.other).state = .ready) :
    (k.switchFrom old).provisional = false := by
  simp [Link.switchFrom, ready]

/-- A switch of a link without a test changes the link's record, with its notices (R80). -/
theorem switchLink_told {d : Desk} {old : Side} {h : Hub} (untested : h.hlm.tests.get d = none) :
    (h.setLink d ((h.links.get d).switchFrom old)).Told (switchLink d old h) :=
  settleLink_still (b := h) (h := h.setLink d _) (resumeTest_untested untested) (by simp [Link.switchFrom]) old

theorem ownsLink_iff {who : Requester} {d : Desk} : ownsLink who d = true ↔ who = .panel ∨ who = d.req := decide_eq_true_iff

theorem ownsLink_denied {who : Requester} {d : Desk} (panel : who ≠ .panel) (desk : who ≠ d.req) : ownsLink who d = false :=
  decide_eq_false (by simp [panel, desk])

section
variable {who : Requester} {d : Desk} {h : Hub}

theorem lnkLaneSwitch_denied (denied : ownsLink who d = false) :
    lnkLaneSwitch who (Desk.num d) h = answerTo who .denied [] h := by
  simp [lnkLaneSwitch, denied]

theorem lnkLaneSwitch_notUp (owns : ownsLink who d = true) (notUp : (h.links.get d).state ≠ .up) :
    lnkLaneSwitch who (Desk.num d) h = answerTo who .notUp [] h := by
  unfold lnkLaneSwitch
  simp only [desk?_num, owns, if_true]
  split
  · next up _ => exact absurd up notUp
  · rfl

/-- The request on an UP link, its partner lane READY or not (R86). -/
theorem lnkLaneSwitch_up {side : Side} (owns : ownsLink who d = true) (up : (h.links.get d).state = .up)
    (serving : (h.links.get d).activeLane = some side) :
    lnkLaneSwitch who (Desk.num d) h =
      if ((h.links.get d).lane side.other).state = .ready then answerTo who .done [] (switchLink d side h)
      else answerTo who .notReady [] h := by
  unfold lnkLaneSwitch
  simp only [desk?_num, owns, up, serving, if_true]

theorem lnkLaneSwitch_range {n : Nat} (range : desk? n = none) :
    lnkLaneSwitch who n h = answerTo who .range [] h := by
  simp [lnkLaneSwitch, range]

end

/-- Settles O32: the switch by the record that it gives the link, each refusal by its check. -/
theorem laneSwitchMovesTheLink : Obligations.LaneSwitchMovesTheLink := by
  unfold Obligations.LaneSwitchMovesTheLink
  intro who tag d s free k call result
  let h := s.hub.taken who tag call
  obtain ⟨-, pcu, arb, links, hlm, mon, tbk, -⟩ := Hub.taken_other s.hub who tag call
  have answered {code : Code} (e : lnkLaneSwitch who (Desk.num d) h = answerTo who code [] h) :
      result = .next (s.withHub (s.hub.answered who tag call code [])) :=
    exec_answered (c := call) rfl free rfl (.inl rfl) e
  have link : h.links.get d = k := by rw [links]
  refine ⟨fun side owner up serving active ready untested => ?_, fun panel desk => ?_, fun owner notUp => ?_,
    fun side owner up serving notReady => ?_, fun n range => ?_⟩
  · let m := switchLink d side h
    let t := answerTo who .done [] m
    have told : Hub.Told _ m := switchLink_told (by rw [hlm]; exact untested)
    obtain ⟨-, mpcu, marb, mlinks, -, mmon, mtbk, -⟩ := Hub.core_eq told.core
    obtain ⟨-, tpcu, tarb, tlinks, -, tmon, ttbk, -⟩ := Hub.core_eq (answerTo_core who .done [] m)
    have event : result = .next (s.withHub t) := by
      refine (exec_request (c := call) rfl free rfl (.inl rfl)).trans (congrArg (fun k => Host.Outcome.next (s.withHub k)) ?_)
      exact (lnkLaneSwitch_up (ownsLink_iff.2 owner) (by rw [link]; exact up) (by rw [link]; exact serving)).trans
        (if_pos (by rw [link]; exact ready))
    have tlink : t.links.get d = k.switchFrom side := by
      rw [tlinks, mlinks, Hub.setLink_links, if_pos rfl, link]
    refine ⟨s.withHub t, event, by rw [tlink]; exact up, by rw [tlink]; rfl, ?_, by rw [tlink]; rfl, by rw [tlink]; rfl, ?_, ?_,
      answerTo_taken (c := call) (by rw [told.queues]; rfl) .., tmon.trans (mmon.trans mon), tarb.trans (marb.trans arb),
      tpcu.trans (mpcu.trans pcu), ttbk.trans (mtbk.trans tbk)⟩
    · rw [tlink]; exact Link.switchFrom_provisional ready
    · rw [tlink, Link.switchFrom_taken, LaneRec.takeOver_ready ready]
    · rw [tlink, Link.switchFrom_left, LaneRec.stepDown_active active]
  · exact answered (lnkLaneSwitch_denied (ownsLink_denied panel desk))
  · exact answered (lnkLaneSwitch_notUp (ownsLink_iff.2 owner) (by rw [link]; exact notUp))
  · exact answered ((lnkLaneSwitch_up (ownsLink_iff.2 owner) (by rw [link]; exact up) (by rw [link]; exact serving)).trans
      (if_neg (by rw [link]; exact notReady)))
  · exact exec_answered (c := .laneSwitch n) rfl free rfl (.inl rfl) (lnkLaneSwitch_range range)

end Sys2Proof.Machine
end

/-!
Frame results and the health counters (R68, R69, R94 to R97): what a count on a lane leaves, and the frames of a lane that has
no test.
-/
section
namespace Sys2Proof.Machine

/-! ## A count and the verdict that follows (R87, R94, R96, R97) -/

theorem Hub.setHealth_setHealth (h : Hub) (l : LaneId) (x y : Health) : (h.setHealth l x).setHealth l y = h.setHealth l y := by
  obtain ⟨d, side⟩ := l
  cases d <;> cases side <;> rfl

/-- The lane's health with occurrences counted and its verdict computed. -/
def Health.counted (x : Health) (th : PerCounter Threshold) (n : PerCounter Nat) : Health :=
  ⟨x.counters.add n, verdictOf th (x.counters.add n), x.capture⟩

/-- The part with occurrences counted on a lane and its verdict computed. -/
def Hub.counted (h : Hub) (l : LaneId) (n : PerCounter Nat) : Hub :=
  h.setHealth l ((laneGet h.hlm.health l).counted h.sto.install.thresholds n)

/-- The verdict of the active lane turns FAILING beside a partner READY and GOOD: the link is switched (R87). -/
def Hub.yields (h : Hub) (l : LaneId) (new : Verdict) : Prop :=
  new = .failing ∧ (laneGet h.hlm.health l).verdict ≠ .failing ∧ h.isActive l = true ∧
    (h.lane (otherLane l)).state = .ready ∧ (laneGet h.hlm.health (otherLane l)).verdict = .good

/-- A lane's verdict replaced and reported (R97). -/
def tellVerdict (l : LaneId) (new : Verdict) (h : Hub) : Hub :=
  let x := laneGet h.hlm.health l
  notifyDeskPanel l.link (.healthVerdict l new x.verdict (verdictCounter h.sto.install.thresholds x.counters new))
    (h.setHealth l { x with verdict := new })

theorem tellVerdict_told (l : LaneId) (new : Verdict) (h : Hub) :
    (h.setHealth l { laneGet h.hlm.health l with verdict := new }).Told (tellVerdict l new h) := notifyDeskPanel_told ..

section
variable {l : LaneId} {new : Verdict} {h : Hub}

theorem setVerdict_same (same : (laneGet h.hlm.health l).verdict = new) : setVerdict l new h = h := if_pos same

theorem setVerdict_changed (changed : (laneGet h.hlm.health l).verdict ≠ new) :
    setVerdict l new h = plannedSwitch l new (tellVerdict l new h) := if_neg changed

/-- What the switch of R87 depends on, after the new verdict is held. -/
theorem tellVerdict_plan (l : LaneId) (new : Verdict) (h : Hub) :
    (tellVerdict l new h).links = h.links ∧ (tellVerdict l new h).hlm.tests = h.hlm.tests ∧
    laneGet (tellVerdict l new h).hlm.health (otherLane l) = laneGet h.hlm.health (otherLane l) := by
  obtain ⟨-, -, -, links, hlm, -⟩ := Hub.core_eq (tellVerdict_told l new h).core
  exact ⟨links, by rw [hlm]; rfl, by rw [hlm]; simp [otherLane_ne]⟩

theorem setVerdict_stays (changed : (laneGet h.hlm.health l).verdict ≠ new) (stays : ¬h.yields l new) :
    setVerdict l new h = tellVerdict l new h := by
  obtain ⟨links, -, health⟩ := tellVerdict_plan l new h
  rw [setVerdict_changed changed, plannedSwitch, if_neg]
  rintro ⟨rfl, active, ready, good⟩
  refine stays ⟨rfl, changed, ?_, ?_, health ▸ good⟩
  · rwa [Hub.isActive, links] at active
  · rwa [Hub.lane, links] at ready

theorem setVerdict_yields (yields : h.yields l new) : setVerdict l new h = switchLink l.link l.side (tellVerdict l new h) := by
  obtain ⟨rfl, changed, active, ready, good⟩ := yields
  obtain ⟨links, -, health⟩ := tellVerdict_plan l .failing h
  rw [setVerdict_changed changed, plannedSwitch, if_pos]
  exact ⟨rfl, by rw [Hub.isActive, links]; exact active, by rw [Hub.lane, links]; exact ready, health ▸ good⟩

end

section
variable {l : LaneId} {n : PerCounter Nat} {h : Hub}

/-- The part with the occurrences counted, its verdict not yet computed. -/
def Hub.tallied (h : Hub) (l : LaneId) (n : PerCounter Nat) : Hub :=
  h.setHealth l { laneGet h.hlm.health l with counters := (laneGet h.hlm.health l).counters.add n }

theorem countHealth_eq (l : LaneId) (n : PerCounter Nat) (h : Hub) : countHealth l n h =
    setVerdict l (verdictOf h.sto.install.thresholds ((laneGet h.hlm.health l).counters.add n)) (h.tallied l n) := by
  simp [countHealth, computeVerdict, Hub.tallied]

theorem Hub.tallied_yields {new : Verdict} : (h.tallied l n).yields l new ↔ h.yields l new := by
  simp [Hub.yields, Hub.tallied, Hub.isActive, Hub.lane, otherLane_ne]

/-- A count that leaves the verdict as it was. -/
theorem countHealth_same (same : verdictOf h.sto.install.thresholds ((laneGet h.hlm.health l).counters.add n) =
    (laneGet h.hlm.health l).verdict) : countHealth l n h = h.tallied l n := by
  rw [countHealth_eq, setVerdict_same]
  simp [Hub.tallied, same]

theorem tellVerdict_tallied (l : LaneId) (n : PerCounter Nat) (h : Hub) : (h.counted l n).Told (tellVerdict l
    (verdictOf h.sto.install.thresholds ((laneGet h.hlm.health l).counters.add n)) (h.tallied l n)) := by
  have told := tellVerdict_told l (verdictOf h.sto.install.thresholds ((laneGet h.hlm.health l).counters.add n)) (h.tallied l n)
  rwa [show laneGet (h.tallied l n).hlm.health l = _ from (Hub.setHealth_health ..).trans (if_pos rfl), Hub.tallied,
    Hub.setHealth_setHealth] at told

/-- A count without a switch: the lane's health, and the report of a new verdict. -/
theorem countHealth_stays (stays : ¬h.yields l (verdictOf h.sto.install.thresholds ((laneGet h.hlm.health l).counters.add n))) :
    (h.counted l n).Told (countHealth l n h) := by
  by_cases same : (laneGet h.hlm.health l).verdict =
      verdictOf h.sto.install.thresholds ((laneGet h.hlm.health l).counters.add n)
  · have recorded : h.tallied l n = h.counted l n := by rw [Hub.counted, Health.counted, ← same]; rfl
    rw [countHealth_same same.symm, recorded]
    exact .refl _
  · rw [countHealth_eq, setVerdict_stays (by simpa [Hub.tallied] using same) (mt Hub.tallied_yields.1 stays)]
    exact tellVerdict_tallied ..

/-- A count on a lane that is not the active one of its UP link never moves the link. -/
theorem countHealth_idle (idle : h.isActive l = false) (n : PerCounter Nat) : (h.counted l n).Told (countHealth l n h) :=
  countHealth_stays fun ⟨_, _, active, _⟩ => by rw [idle] at active; cases active

theorem Hub.Told.setLink {h k : Hub} (t : h.Told k) (d : Desk) (x : Link) : (h.setLink d x).Told (k.setLink d x) := by
  obtain ⟨now, pcu, arb, links, hlm, mon, tbk, sto, down⟩ := Hub.core_eq t.core
  exact ⟨by simp only [Hub.core, Hub.setLink, now, pcu, arb, links, hlm, mon, tbk, sto, down], t.queues, t.answers⟩

/-- A count that turns the active lane FAILING: the link without a test is switched (R80, R87). -/
theorem countHealth_yields (untested : h.hlm.tests.get l.link = none)
    (yields : h.yields l (verdictOf h.sto.install.thresholds ((laneGet h.hlm.health l).counters.add n))) :
    ((h.counted l n).setLink l.link ((h.links.get l.link).switchFrom l.side)).Told (countHealth l n h) := by
  let v := verdictOf h.sto.install.thresholds ((laneGet h.hlm.health l).counters.add n)
  let m := tellVerdict l v (h.tallied l n)
  obtain ⟨links, tests, -⟩ := tellVerdict_plan l v (h.tallied l n)
  have told : (h.counted l n).Told m := tellVerdict_tallied l n h
  have switched : Hub.Told _ (switchLink l.link l.side m) := switchLink_told (by rw [tests]; exact untested)
  rw [countHealth_eq, setVerdict_yields (Hub.tallied_yields.2 yields)]
  rw [show m.links = h.links from links] at switched
  exact (told.setLink ..).trans switched

end

/-! ## Frames of a lane without a test (R68, R69) -/

section
variable {l : LaneId} {h : Hub}

theorem countingTest_untested (untested : h.hlm.tests.get l.link = none) : countingTest l h = none := by
  simp [countingTest, untested]

theorem hlmResult_good (untested : h.hlm.tests.get l.link = none) (f : UpFrame) : hlmResult l (some f) h = h := by
  simp [hlmResult, countingTest_untested untested]

theorem hlmResult_bad (untested : h.hlm.tests.get l.link = none) : hlmResult l none h = countHealth l ⟨1, 0, 0, 0, 0⟩ h := by
  simp [hlmResult, countingTest_untested untested]

theorem testingReturns_other (state : (h.lane l).state ≠ .testing) (f : UpFrame) : testingReturns l f h = h := by
  simp [testingReturns, state]

/-- The lane's record once the frame of its period is noted. -/
def LaneRec.noted (r : LaneRec) (f : Option UpFrame) : LaneRec := { r with arrived := true, rx := f }

/-- The result of a lane in sync (R69). -/
theorem receive_sync {lat : Frame} (sync : (h.lane l).latency = some lat) (f : Option UpFrame) : receive l f h =
    match f with
    | none => badResult l (h.now - lat) (h.setLane l ((h.lane l).noted f))
    | some g =>
      if ((h.lane l).noted f).isGood (h.now - lat) g then goodResult l (h.now - lat) g (h.setLane l ((h.lane l).noted f))
      else badResult l (h.now - lat) (h.setLane l ((h.lane l).noted f)) := by
  unfold receive
  dsimp only
  split
  · next x e =>
    obtain rfl : x = lat := Option.some.inj (e.symm.trans sync)
    cases f <;> rfl
  · next e => rw [sync] at e; cases e

theorem badResult_untested (untested : h.hlm.tests.get l.link = none) (due : Frame) (r : LaneRec) :
    badResult l due (h.setLane l r) = countHealth l ⟨1, 0, 0, 0, 0⟩ (h.setLane l (r.bad due)) := by
  rw [badResult, Hub.setLane_setLane, Hub.setLane_lane, if_pos rfl]
  exact hlmResult_bad (h := h.setLane l _) untested

/-- A bad result of a lane in sync (R69): its record, and a CRC error counted. -/
theorem receive_bad {lat : Frame} {f : Option UpFrame} (untested : h.hlm.tests.get l.link = none)
    (sync : (h.lane l).latency = some lat) (bad : ∀ g, f = some g → ((h.lane l).noted f).isGood (h.now - lat) g = false) :
    receive l f h = countHealth l ⟨1, 0, 0, 0, 0⟩ (h.setLane l (((h.lane l).noted f).bad (h.now - lat))) := by
  rw [receive_sync sync]
  split
  · exact badResult_untested untested ..
  · next g => rw [bad g rfl]; exact badResult_untested untested ..

/-- A good result of a lane in sync (R69). -/
theorem receive_good {lat : Frame} {f : UpFrame} (untested : h.hlm.tests.get l.link = none)
    (sync : (h.lane l).latency = some lat) (state : (h.lane l).state ≠ .testing)
    (good : ((h.lane l).noted (some f)).isGood (h.now - lat) f = true) :
    receive l (some f) h = h.setLane l (((h.lane l).noted (some f)).good (h.now - lat) f
      ((h.lane (otherLane l)).trusted && decide (32 < (h.links.get l.link).skew)) (qualifyLength h l)) := by
  have recorded (r : LaneRec) (still : r.state ≠ .testing) :
      hlmResult l (some f) (testingReturns l f (h.setLane l r)) = h.setLane l r := by
    rw [testingReturns_other (by simpa using still)]
    exact hlmResult_good (h := h.setLane l r) untested f
  have skew : ((h.links.get l.link).withLane l.side ((h.lane l).noted (some f))).skew = (h.links.get l.link).skew :=
    Link.skew_withLane rfl
  rw [receive_sync sync]
  refine (if_pos good).trans ?_
  rw [goodResult, Hub.setLane_setLane, recorded _ (by simpa [LaneRec.good, LaneRec.noted] using state), Hub.setLane_link,
    skew]
  simp [otherLane_ne, qualifyLength]

/-- A frame on an ACQUIRING lane (R68). -/
theorem receive_acquiring (sync : (h.lane l).latency = none) (acquiring : (h.lane l).state = .acquiring) (f : Option UpFrame) :
    receive l f h = h.setLane l (((h.lane l).noted f).acquire f) := by
  unfold receive
  dsimp only
  split
  · next e => rw [sync] at e; cases e
  · rw [if_pos acquiring, Hub.setLane_setLane]
    rfl

theorem upstreamFrame_receive (early : (h.lane l).arrived = false) (bytes : List Byte) :
    upstreamFrame l bytes h = receive l (parseUp bytes) h := by
  simp [upstreamFrame, early]

theorem upstreamFrame_again (arrived : (h.lane l).arrived = true) (bytes : List Byte) : upstreamFrame l bytes h = h :=
  if_pos arrived

end

theorem LaneRec.isGood_iff {r : LaneRec} {due : Frame} {f : UpFrame} (state : r.state ≠ .testing) :
    r.isGood due f = true ↔ f.number = due ∧ f.pattern = false := by
  simp [LaneRec.isGood, state]

/-- A count of one CRC error, the other counters being within their range. -/
theorem PerCounter.add_crc {x : PerCounter Nat} (frame : x.frameLosses ≤ 65535) (light : x.lightLosses ≤ 65535)
    (slips : x.slips ≤ 65535) (test : x.testErrors ≤ 65535) :
    x.add ⟨1, 0, 0, 0, 0⟩ = { x with crcErrors := min 65535 (x.crcErrors + 1) } := by
  simp [PerCounter.add, saturate16, frame, light, slips, test]

/-- Settles O25: a good and a bad result of a lane in sync, a frame of a lane that acquires, a second and a missing frame. -/
theorem frameResultsOfALaneInSync : Obligations.FrameResultsOfALaneInSync := by
  unfold Obligations.FrameResultsOfALaneInSync
  have event {l : LaneId} {bytes : List Byte} {s : State} {t : Hub} (e : upstreamFrame l bytes s.hub = t) :
      exec (.upstreamFrame l bytes) s = .next (s.withHub t) := congrArg (fun h => Host.Outcome.next (s.withHub h)) e
  refine ⟨fun l bytes f lat s early sync state untested parsed number audio => ?_,
    fun l bytes lat s early sync state untested bad => ?_, fun l bytes s early sync acquiring => ?_, fun l bytes s => ⟨?_, ?_, ?_⟩⟩
  · refine event ((upstreamFrame_receive early bytes).trans ?_)
    rw [parsed, receive_good untested sync state ((LaneRec.isGood_iff state).2 ⟨number, audio⟩), ← number]
    rfl
  · intro r x counters frame light slips test same
    have added : x.counters.add ⟨1, 0, 0, 0, 0⟩ = counters := PerCounter.add_crc frame light slips test
    refine event ((upstreamFrame_receive early bytes).trans ?_)
    rw [receive_bad untested sync fun g e => ?_, countHealth_same (by exact (congrArg _ added).trans same)]
    · rw [Hub.tallied, show laneGet (Hub.setLane _ l _).hlm.health l = x from rfl, added]
      rfl
    · have other := bad g e
      rw [Bool.eq_false_iff, ne_eq, LaneRec.isGood_iff (by exact state)]
      rintro ⟨number, audio⟩
      simp [number, audio] at other
  · intro r run
    have recorded {q : LaneRec} (e : ((s.hub.lane l).noted (parseUp bytes)).acquire (parseUp bytes) = q) :
        exec (.upstreamFrame l bytes) s = .next (s.withHub (s.hub.setLane l q)) :=
      event ((upstreamFrame_receive early bytes).trans ((receive_acquiring sync acquiring _).trans (by rw [e])))
    refine ⟨fun f parsed audio started next => recorded ?_, fun f parsed audio first => recorded ?_, fun lost => recorded ?_⟩
    · rw [parsed]
      simp [LaneRec.acquire, LaneRec.noted, audio, r, started, next]
    · rw [parsed]
      have broken : ¬(0 < r.acquireRun ∧ f.number = r.runNumber + 1#32) := by
        rintro ⟨started, next⟩
        rcases first with none_ | other
        · omega
        · exact other next
      simp only [LaneRec.acquire, audio, Bool.false_eq_true, if_false]
      exact if_neg broken
    · rcases lost with none_ | ⟨f, parsed, pattern⟩
      · rw [none_]; rfl
      · rw [parsed]
        simp [LaneRec.acquire, LaneRec.noted, pattern, r]
  · exact fun arrived => ⟨event (upstreamFrame_again arrived bytes), missingFrame_arrived arrived⟩
  · exact fun lost => event (upstreamFrame_bad l s.hub lost)
  · simp [missingFrame_lane]

end Sys2Proof.Machine
end

/-!
The takes, the return buffer and its slips (R73 to R76).
-/
section
namespace Sys2Proof.Machine

/-! ## The return buffer (R75, R76) -/

theorem appendEntry_room {b : List Entry} (room : b.length < 15) (e : Entry) : appendEntry b e = (b ++ [e], false) :=
  if_neg (by simp; omega)

/-- The sixteenth entry makes the buffer slip. -/
theorem appendEntry_full {b : List Entry} (full : b.length = 15) (e : Entry) : appendEntry b e = (b.drop 8 ++ [e], true) := by
  rw [← List.drop_append_of_le_length (by omega)]
  exact if_pos (by simp [full])

theorem Link.deliver_more {k : Link} {x y : Entry} {rest : List Entry} (buffer : k.returnBuffer = x :: y :: rest) :
    k.deliver = ({ k with delivered := some x, returnBuffer := y :: rest }, false) := by
  unfold Link.deliver
  simp only [buffer]

theorem Link.deliver_last {k : Link} {x : Entry} (buffer : k.returnBuffer = [x]) :
    k.deliver = ({ k with delivered := some x, returnBuffer := List.replicate 8 x }, true) := by
  unfold Link.deliver
  simp only [buffer]

theorem deliverStep_runs {h : Hub} {d : Desk} (up : (h.links.get d).state = .up) (old : (h.links.get d).fresh = false) :
    deliverStep h d = if (h.links.get d).deliver.2 then countSlip d (h.setLink d (h.links.get d).deliver.1)
      else h.setLink d (h.links.get d).deliver.1 := if_pos ⟨up, old⟩

/-! ## The source of a take (R73, R74) -/

/-- A frame that the alignment buffer gives is an AUDIO frame of the number, and of the buffer. -/
theorem LaneRec.held_some {l : LaneRec} {n : Frame} {f : UpFrame} (held : l.held n = some f) :
    f ∈ l.buffer ∧ f.number = n ∧ f.pattern = false := by
  have found := List.find?_some held
  simp only [Bool.and_eq_true, decide_eq_true_eq, Bool.not_eq_true'] at found
  exact ⟨List.mem_of_find?_eq_some held, found⟩

theorem LaneRec.held_none {l : LaneRec} {n : Frame} (none_ : l.held n = none) {f : UpFrame} (mem : f ∈ l.buffer)
    (number : f.number = n) : f.pattern = true := by
  have refused := List.find?_eq_none.1 none_ f mem
  simpa [number] using refused

section
variable {k : Link} {side : Side} {may : Bool} {n : Frame}

theorem Link.source_own {f : UpFrame} (mine : (k.lane side).held n = some f) : k.source side may n = .own f := by
  simp [Link.source, mine]

theorem Link.source_rescued {f : UpFrame} (mine : (k.lane side).held n = none) (may_ : may = true)
    (theirs : (k.lane side.other).held n = some f) : k.source side may n = .rescued f := by
  simp [Link.source, mine, may_, theirs]

theorem Link.source_repeated (mine : (k.lane side).held n = none)
    (none_ : may = false ∨ (k.lane side.other).held n = none) : k.source side may n = .repeated := by
  rcases none_ with e | e <;> simp [Link.source, mine, e]

end

/-! ## Takes (R73) -/

section
variable {h : Hub} {d : Desk} {n : Frame}

/-- A take writes its entry; a slip is counted, then the control cell handed on (R73, R76). -/
theorem takeOne_eq (next : (h.links.get d).nextTake = some n) (side : Side) (may : Bool) : takeOne d side may h =
    let r := (h.links.get d).take n ((h.links.get d).source side may n)
    takeCell d (((h.links.get d).source side may n).frame.map UpFrame.cell)
      (if r.2 then countSlip d (h.setLink d r.1) else h.setLink d r.1) := by
  unfold takeOne
  simp only [next]

theorem takeOne_slips (next : (h.links.get d).nextTake = some n) (full : (h.links.get d).returnBuffer.length = 15) (side : Side)
    (may : Bool) : takeOne d side may h =
      takeCell d (((h.links.get d).source side may n).frame.map UpFrame.cell)
        (countSlip d (h.setLink d ((h.links.get d).take n ((h.links.get d).source side may n)).1)) := by
  have slips (x : TakeSource) : ((h.links.get d).take n x).2 = true := congrArg Prod.snd (appendEntry_full full _)
  rw [takeOne_eq next]
  simp only [slips, if_true]

theorem takeOne_room (next : (h.links.get d).nextTake = some n) (room : (h.links.get d).returnBuffer.length < 15) (side : Side)
    (may : Bool) : takeOne d side may h =
      takeCell d (((h.links.get d).source side may n).frame.map UpFrame.cell)
        (h.setLink d ((h.links.get d).take n ((h.links.get d).source side may n)).1) := by
  have stays (x : TakeSource) : ((h.links.get d).take n x).2 = false := congrArg Prod.snd (appendEntry_room room _)
  rw [takeOne_eq next]
  simp only [stays, Bool.false_eq_true, if_false]

/-- From the number that is so many behind up to the one due, that one included (R73). -/
theorem takeCount_behind (number : Frame) {behind : Nat} (near : behind < 2147483648) :
    takeCount (number - BitVec.ofNat 32 behind) number = behind + 1 := by
  have distance : (number - (number - BitVec.ofNat 32 behind)).toNat = behind := by
    rw [sub_sub_cancel, BitVec.toNat_ofNat, Nat.mod_eq_of_lt (by omega)]
  rw [takeCount, distance, if_pos near]

theorem takeCount_due (number : Frame) : takeCount number number = 1 := by
  simpa using takeCount_behind number (behind := 0) (by decide)

theorem LaneRec.rescues_eq (r : LaneRec) : r.rescues = decide (r.state = .ready ∨ r.state = .qualifying) := by
  unfold LaneRec.rescues
  cases r.state <;> rfl

end

/-- Settles O34: the buffer, the search of the alignment buffers, the take by its source, then the steps of a period. -/
theorem returnBufferSlips : Obligations.ReturnBufferSlips := by
  unfold Obligations.ReturnBufferSlips
  refine ⟨fun b e k => ⟨fun room => appendEntry_room room e, fun full => ⟨appendEntry_full full e, ?_⟩,
      fun x y rest buffer => Link.deliver_more buffer, fun x buffer => Link.deliver_last buffer⟩,
    fun l n => ⟨fun f => LaneRec.held_some, fun none_ f => LaneRec.held_none none_⟩, fun k side may n => ?_, fun h d => ?_,
    fun number behind near => takeCount_behind number near⟩
  · rw [appendEntry_full full]; simp [full]
  · intro mine theirs last taken
    have by_ {x : TakeSource} (e : k.source side may n = x) : k.source side may n = x ∧ taken.1 = (k.take n x).1 :=
      ⟨e, by rw [← e]⟩
    exact ⟨fun f own => by_ (Link.source_own own), fun f none_ may_ held => by_ (Link.source_rescued none_ may_ held),
      fun none_ other => by_ (Link.source_repeated none_ other)⟩
  · refine ⟨takeStep_not_up, deliverStep_idle, fun x y rest up old buffer => ?_, fun x up old buffer => ?_,
      fun side may n next full => takeOne_slips next full side may, fun side lat up serving sync => ?_⟩
    · rw [deliverStep_runs up old, Link.deliver_more buffer]; rfl
    · rw [deliverStep_runs up old, Link.deliver_last buffer]; rfl
    · intro may number
      have many (next : Frame) (e : (h.links.get d).nextTake = some next) :
          takeStep h d = takeMany d side may (takeCount next number) h := by
        rw [takeStep_up up serving sync e, LaneRec.rescues_eq]
      refine ⟨many, fun ahead => ?_, fun due room => ?_⟩
      · rw [many _ ahead, takeCount_ahead]; rfl
      · rw [many _ due, takeCount_due]
        refine (takeOne_room due room side may).trans ?_
        cases (h.links.get d).source side may number <;> rfl

end Sys2Proof.Machine
end

/-!
Verdicts, CLEAR_HEALTH and the switch from a lane that turns FAILING (R87, R96 to R98).
-/
section
namespace Sys2Proof.Machine

/-! ## The verdict of the counters (R96) -/

theorem Verdict.worse_pos (x y : Verdict) : (x.worse y).pos = max x.pos y.pos := by
  unfold Verdict.worse
  split <;> omega

theorem counterResult_le_verdictOf (th : PerCounter Threshold) (n : PerCounter Nat) (c : CounterName) :
    (counterResult (th.get c) (n.get c)).pos ≤ (verdictOf th n).pos := by
  simp only [verdictOf, CounterName.all, List.foldl_cons, List.foldl_nil, Verdict.worse_pos]
  cases c <;> omega

theorem verdictOf_le {th : PerCounter Threshold} {n : PerCounter Nat} {b : Nat}
    (bound : ∀ c, (counterResult (th.get c) (n.get c)).pos ≤ b) : (verdictOf th n).pos ≤ b := by
  simp only [verdictOf, CounterName.all, List.foldl_cons, List.foldl_nil, Verdict.worse_pos]
  simp only [max_le_iff, bound, and_true]
  exact Nat.zero_le b

theorem Verdict.eq_of_pos {x y : Verdict} (e : x.pos = y.pos) : x = y := by
  cases x <;> cases y <;> simp_all [Verdict.pos]

theorem Verdict.pos_le (v : Verdict) : v.pos ≤ 2 := by cases v <;> decide

theorem counterResult_failing {th : Threshold} {n : Nat} (fail : th.fail ≤ n) : counterResult th n = .failing := if_pos fail

theorem counterResult_worn {th : Threshold} {n : Nat} (fail : n < th.fail) (warn : th.warn ≤ n) : counterResult th n = .worn :=
  (if_neg (by omega)).trans (if_pos warn)

theorem counterResult_good {th : Threshold} {n : Nat} (fail : n < th.fail) (warn : n < th.warn) : counterResult th n = .good :=
  (if_neg (by omega)).trans (if_neg (by omega))

section
variable {th : PerCounter Threshold} {n : PerCounter Nat}

/-- One counter at its fail threshold makes the lane FAILING. -/
theorem verdictOf_failing {c : CounterName} (fail : (th.get c).fail ≤ n.get c) : verdictOf th n = .failing := by
  have reached := counterResult_le_verdictOf th n c
  rw [counterResult_failing fail] at reached
  exact Verdict.eq_of_pos (le_antisymm (Verdict.pos_le _) reached)

theorem verdictOf_worn (below : ∀ c, n.get c < (th.get c).fail) {c : CounterName} (warn : (th.get c).warn ≤ n.get c) :
    verdictOf th n = .worn := by
  have reached := counterResult_le_verdictOf th n c
  rw [counterResult_worn (below c) warn] at reached
  refine Verdict.eq_of_pos (le_antisymm (verdictOf_le fun c => ?_) reached)
  by_cases w : (th.get c).warn ≤ n.get c
  · rw [counterResult_worn (below c) w]
  · rw [counterResult_good (below c) (by omega)]; decide

theorem verdictOf_good (below : ∀ c, n.get c < (th.get c).fail ∧ n.get c < (th.get c).warn) : verdictOf th n = .good := by
  refine Verdict.eq_of_pos (le_antisymm (verdictOf_le fun c => ?_) (Nat.zero_le _))
  obtain ⟨fail, warn⟩ := below c
  rw [counterResult_good fail warn]

end

/-! ## CLEAR_HEALTH (R98) -/

@[simp] theorem lane?_num (l : LaneId) : lane? (LaneId.num l) = some l := by
  obtain ⟨d, side⟩ := l
  cases d <;> cases side <;> rfl

theorem lane?_none {n : Nat} : lane? n = none ↔ n < 1 ∨ 6 < n := by
  rcases n with _ | _ | _ | _ | _ | _ | _ | n <;> simp [lane?]

/-- A verdict other than FAILING is held and reported, and moves no link. -/
theorem setVerdict_told {l : LaneId} {new : Verdict} (stays : new ≠ .failing) (h : Hub) :
    (h.setHealth l { laneGet h.hlm.health l with verdict := new }).Told (setVerdict l new h) := by
  by_cases same : (laneGet h.hlm.health l).verdict = new
  · have self : h.setHealth l { laneGet h.hlm.health l with verdict := new } = h := by
      rw [← same]
      obtain ⟨d, side⟩ := l
      cases d <;> cases side <;> rfl
    rw [setVerdict_same same, self]
    exact .refl h
  · rw [setVerdict_stays same fun ⟨e, _⟩ => stays e]
    exact tellVerdict_told l new h

/-- A lane's health after CLEAR_HEALTH (R98). -/
def Health.cleared (x : Health) : Health := ⟨⟨0, 0, 0, 0, 0⟩, .good, x.capture⟩

section
variable {who : Requester} {l : LaneId} {h : Hub}

theorem hlmClearHealth_denied (denied : ownsLink who l.link = false) :
    hlmClearHealth who (LaneId.num l) h = answerTo who .denied [] h := by
  simp [hlmClearHealth, denied]

/-- CLEAR_HEALTH of a requester that may name the lane. -/
theorem hlmClearHealth_done (owns : ownsLink who l.link = true) :
    ∃ k, (h.setHealth l (laneGet h.hlm.health l).cleared).Told k ∧
      hlmClearHealth who (LaneId.num l) h = answerTo who .done [] k := by
  let h1 := h.setHealth l { laneGet h.hlm.health l with counters := ⟨0, 0, 0, 0, 0⟩ }
  have told := setVerdict_told (l := l) (new := .good) (by simp) h1
  rw [show laneGet h1.hlm.health l = _ from (Hub.setHealth_health ..).trans (if_pos rfl), Hub.setHealth_setHealth] at told
  exact ⟨_, told, by simp only [hlmClearHealth, lane?_num, owns, if_true, h1]⟩

theorem hlmClearHealth_range {n : Nat} (range : n < 1 ∨ 6 < n) : hlmClearHealth who n h = answerTo who .range [] h := by
  simp only [hlmClearHealth, lane?_none.2 range]

end

/-! ## The switch from a FAILING lane (R87) -/

/-- A frame that fails its CRC turns the active lane FAILING: the link without a test moves to the READY and GOOD partner. -/
theorem receive_yields {l : LaneId} {h : Hub} {lat : Frame} (untested : h.hlm.tests.get l.link = none)
    (sync : (h.lane l).latency = some lat) (active : h.isActive l = true) (ready : (h.lane (otherLane l)).state = .ready)
    (good : (laneGet h.hlm.health (otherLane l)).verdict = .good) (was : (laneGet h.hlm.health l).verdict ≠ .failing)
    (failing : verdictOf h.sto.install.thresholds ((laneGet h.hlm.health l).counters.add ⟨1, 0, 0, 0, 0⟩) = .failing) :
    let h1 := h.setLane l (((h.lane l).noted none).bad (h.now - lat))
    ((h1.counted l ⟨1, 0, 0, 0, 0⟩).setLink l.link ((h1.links.get l.link).switchFrom l.side)).Told (receive l none h) := by
  intro h1
  rw [receive_bad untested sync (by simp)]
  refine countHealth_yields untested ⟨failing, was, ?_, ?_, good⟩
  · rw [Hub.isActive_iff] at active ⊢
    rwa [Hub.setLane_link]
  · rwa [Hub.setLane_lane, if_neg (otherLane_ne l)]

/-- Settles O35: the worst result of five, CLEAR_HEALTH and a computed verdict by what they leave of the lane's health, the
switch by the record that it gives the link. -/
theorem healthVerdictAndClearHealth : Obligations.HealthVerdictAndClearHealth := by
  unfold Obligations.HealthVerdictAndClearHealth
  refine ⟨fun th n => ⟨fun ⟨c, fail⟩ => verdictOf_failing fail, fun below ⟨c, warn⟩ => verdictOf_worn below warn, verdictOf_good⟩,
    fun who tag l s free => ⟨fun owner => ?_, fun panel desk => ?_⟩, fun who tag n s free range => ?_, fun l new h => ⟨?_, ?_⟩,
    fun l bytes lat s early sync state up serving untested lost ready => ?_⟩
  · let call := Call.clearHealth (LaneId.num l)
    let h := s.hub.taken who tag call
    obtain ⟨-, pcu, arb, links, hlm, mon, tbk, -⟩ := Hub.taken_other s.hub who tag call
    obtain ⟨k, told, done⟩ := hlmClearHealth_done (h := h) (ownsLink_iff.2 owner)
    obtain ⟨-, kpcu, karb, klinks, khlm, kmon, ktbk, -⟩ := Hub.core_eq told.core
    let t := answerTo who .done [] k
    obtain ⟨-, tpcu, tarb, tlinks, thlm, tmon, ttbk, -⟩ := Hub.core_eq (answerTo_core who .done [] k)
    have event : exec (.clearHealth who tag (LaneId.num l)) s = .next (s.withHub t) :=
      (exec_request (c := call) rfl free rfl (.inl rfl)).trans (congrArg (fun k => Host.Outcome.next (s.withHub k)) done)
    have health (m : LaneId) : laneGet t.hlm.health m = if m = l then (laneGet s.hub.hlm.health l).cleared
        else laneGet s.hub.hlm.health m := by rw [thlm, khlm, Hub.setHealth_health, hlm]
    refine ⟨s.withHub t, event, (health l).trans (if_pos rfl), fun m ne => (health m).trans (if_neg ne), ?_,
      tlinks.trans (klinks.trans links), tarb.trans (karb.trans arb), tmon.trans (kmon.trans mon), tpcu.trans (kpcu.trans pcu),
      ttbk.trans (ktbk.trans tbk), answerTo_taken (c := call) (by rw [told.queues]; rfl) ..⟩
    rw [thlm, khlm, ← hlm]
    rfl
  · exact exec_answered (c := .clearHealth (LaneId.num l)) rfl free rfl (.inl rfl)
      (hlmClearHealth_denied (ownsLink_denied panel desk))
  · exact exec_answered (c := .clearHealth n) rfl free rfl (.inl rfl) (hlmClearHealth_range range)
  · exact setVerdict_same
  · intro changed no
    refine setVerdict_stays changed ?_
    rintro ⟨failing, -, active, ready, good⟩
    obtain ⟨-, serving⟩ := Hub.isActive_iff.1 active
    rcases no with a | a | a | a
    · exact a failing
    · exact a serving
    · exact a ready
    · exact a good
  · intro x k good was fail
    let h1 := s.hub.setLane l (((s.hub.lane l).noted none).bad (s.hub.now - lat))
    let t := receive l none s.hub
    obtain ⟨c, fail⟩ := fail
    have failing : verdictOf s.hub.sto.install.thresholds (x.counters.add ⟨1, 0, 0, 0, 0⟩) = .failing := verdictOf_failing fail
    have told : Hub.Told _ t := receive_yields untested sync (Hub.isActive_iff.2 ⟨up, serving⟩) ready good was failing
    obtain ⟨-, pcu, arb, links, hlm, mon, tbk, -⟩ := Hub.core_eq told.core
    have event : exec (.upstreamFrame l bytes) s = .next (s.withHub t) :=
      congrArg (fun h => Host.Outcome.next (s.withHub h)) ((upstreamFrame_receive early bytes).trans (by rw [lost]))
    let k1 := k.withLane l.side (((s.hub.lane l).noted none).bad (s.hub.now - lat))
    have link : t.links.get l.link = k1.switchFrom l.side := by
      rw [links, Hub.setLink_links, if_pos rfl, Hub.setLane_link]
    have own : k1.lane l.side = _ := (Link.withLane_lane ..).trans (if_pos rfl)
    have partner : k1.lane l.side.other = s.hub.lane (otherLane l) := (Link.withLane_lane ..).trans (if_neg (Side.other_ne _))
    have next : (k1.lane l.side.other).state = .ready := partner ▸ ready
    refine ⟨s.withHub t, event, ?_, by rw [link]; exact up, by rw [link]; rfl, ?_, by rw [link]; rfl, by rw [link]; rfl, ?_, ?_,
      arb, mon, tbk, pcu⟩
    · rw [hlm]
      exact (congrArg Health.verdict ((Hub.setHealth_health ..).trans (if_pos rfl))).trans failing
    · rw [link]; exact Link.switchFrom_provisional next
    · rw [Hub.lane_other, link, Link.switchFrom_taken, LaneRec.takeOver_ready next, partner]
    · rw [Hub.lane, link, Link.switchFrom_left, own]
      rw [LaneRec.stepDown_active (by exact state)]
      rfl

end Sys2Proof.Machine
end

/-!
Lane faults (R67, R70, R73, R79, R80, R83, R94, R99): what a fault leaves of the part, on a lane that is idle and on the active
lane of its link, then FRAME_LOSS and LIGHT_LOSS of a lane that has no test.
-/
section
namespace Sys2Proof.Machine

/-! ## A link beside the record of one lane -/

theorem Link.withLane_withLane (k : Link) (side : Side) (r q : LaneRec) :
    (k.withLane side r).withLane side q = k.withLane side q := by simp [Link.withLane]

theorem Link.withLane_self (k : Link) (side : Side) : k.withLane side (k.lane side) = k := by simp [Link.withLane, Link.lane]

theorem Link.withLane_partner (k : Link) (side : Side) (r : LaneRec) : (k.withLane side r).lane side.other = k.lane side.other :=
  (Link.withLane_lane ..).trans (if_neg (Side.other_ne side))

/-- A lane that is not ACTIVE leaves no service. -/
theorem LaneRec.stepDown_idle {r : LaneRec} (idle : r.state ≠ .active) : r.stepDown = r := by
  unfold LaneRec.stepDown
  split
  · next active => exact absurd active idle
  all_goals rfl

/-- A lane whose link has a partner to move to at its fault (Table 4-5). -/
def LaneRec.standsBy (r : LaneRec) : Prop := r.state = .ready ∨ r.state = .qualifying

section
variable {k : Link} {side : Side} (now : Frame) (limit : Nat)

theorem Link.respond_taken (next : (k.lane side.other).standsBy) : k.respond now limit side = k.switchFrom side := by
  unfold Link.respond
  rcases next with e | e <;> simp only [e]

theorem Link.respond_held (none_ : ¬(k.lane side.other).standsBy) :
    k.respond now limit side = k.leave .holdover (some (later now limit)) := by
  unfold Link.respond
  cases e : (k.lane side.other).state with
  | ready => exact absurd (.inl e) none_
  | qualifying => exact absurd (.inr e) none_
  | testing | acquiring | dark | active => rfl

theorem Link.switchFrom_withLane (k : Link) (side : Side) (r q : LaneRec) :
    ((k.withLane side r).switchFrom side).withLane side q = (k.switchFrom side).withLane side q := by
  cases side <;> rfl

/-- The response to a fault is the same whatever the record of the faulted lane, but for that record. -/
theorem Link.respond_withLane (k : Link) (side : Side) (r q : LaneRec) :
    ((k.withLane side r).respond now limit side).withLane side q = (k.respond now limit side).withLane side q := by
  by_cases next : (k.lane side.other).standsBy
  · rw [Link.respond_taken now limit next, Link.respond_taken now limit (by rwa [Link.withLane_partner]),
      Link.switchFrom_withLane]
  · rw [Link.respond_held now limit next, Link.respond_held now limit (by rwa [Link.withLane_partner])]
    exact Link.withLane_withLane (k.leave _ _) side r q

/-- The faulted lane's record is its own. -/
theorem Link.respond_faulted {r : LaneRec} (idle : r.state ≠ .active) :
    (k.withLane side r).respond now limit side = (k.respond now limit side).withLane side r := by
  have own : ((k.withLane side r).respond now limit side).lane side = r := by
    have lane : (k.withLane side r).lane side = r := (Link.withLane_lane ..).trans (if_pos rfl)
    by_cases next : (k.lane side.other).standsBy
    · rw [Link.respond_taken now limit (by rwa [Link.withLane_partner]), Link.switchFrom_left, lane, LaneRec.stepDown_idle idle]
    · rw [Link.respond_held now limit (by rwa [Link.withLane_partner])]
      exact lane
  calc (k.withLane side r).respond now limit side
      = ((k.withLane side r).respond now limit side).withLane side
          (((k.withLane side r).respond now limit side).lane side) := (Link.withLane_self ..).symm
    _ = (k.respond now limit side).withLane side r := by rw [own, Link.respond_withLane]

theorem Link.respond_leaves (k : Link) (side : Side) : (k.respond now limit side).activeLane ≠ some side := by
  by_cases next : (k.lane side.other).standsBy
  · rw [Link.respond_taken now limit next]
    exact fun e => Side.other_ne side (Option.some.inj e)
  · rw [Link.respond_held now limit next]
    exact fun e => by cases e

end

/-! ## A lane's own record -/

theorem Hub.setLane_self (h : Hub) (l : LaneId) : h.setLane l (h.lane l) = h := by
  obtain ⟨d, side⟩ := l
  cases d <;> cases side <;> rfl

theorem Hub.setLane_of_links {h k : Hub} (links : h.links = k.links) (l : LaneId) (r : LaneRec) :
    (h.setLane l r).links = (k.setLane l r).links := by simp only [Hub.setLane, Hub.setLink, links]

/-- The part is as before, but for the lane's record and its health, and for what is told of them. -/
structure Hub.Marked (b : Hub) (l : LaneId) (t : Hub) : Prop where
  links : t.links = (b.setLane l (t.lane l)).links
  now : t.now = b.now
  pcu : t.pcu = b.pcu
  arb : t.arb = b.arb
  mon : t.mon = b.mon
  tbk : t.tbk = b.tbk
  sto : t.sto = b.sto
  tests : t.hlm.tests = b.hlm.tests

section
variable {b k t : Hub} {l : LaneId}

theorem Hub.Marked.refl (b : Hub) (l : LaneId) : b.Marked l b := ⟨by rw [Hub.setLane_self], rfl, rfl, rfl, rfl, rfl, rfl, rfl⟩

theorem Hub.Marked.trans (x : b.Marked l k) (y : k.Marked l t) : b.Marked l t where
  links := by rw [y.links, Hub.setLane_of_links x.links, Hub.setLane_setLane]
  now := y.now.trans x.now
  pcu := y.pcu.trans x.pcu
  arb := y.arb.trans x.arb
  mon := y.mon.trans x.mon
  tbk := y.tbk.trans x.tbk
  sto := y.sto.trans x.sto
  tests := y.tests.trans x.tests

/-- A lane's record and health replaced, and the change told. -/
theorem Hub.marked_of_told {r : LaneRec} {x : Health} (told : ((b.setLane l r).setHealth l x).Told t) :
    b.Marked l t ∧ t.lane l = r ∧ laneGet t.hlm.health l = x := by
  obtain ⟨now, pcu, arb, links, hlm, mon, tbk, sto, -⟩ := Hub.core_eq told.core
  have lane : t.lane l = r := (told.lane l).trans ((Hub.setLane_lane ..).trans (if_pos rfl))
  exact ⟨⟨by rw [lane]; exact links, now, pcu, arb, mon, tbk, sto, by rw [hlm]; rfl⟩, lane,
    by rw [hlm]; exact (Hub.setHealth_health ..).trans (if_pos rfl)⟩

theorem Hub.marked_of_health {x : Health} (told : (b.setHealth l x).Told t) :
    b.Marked l t ∧ t.lane l = b.lane l ∧ laneGet t.hlm.health l = x :=
  Hub.marked_of_told (by rwa [Hub.setLane_self])

theorem Hub.marked_setLane (b : Hub) (l : LaneId) (r : LaneRec) : b.Marked l (b.setLane l r) :=
  ⟨by simp, rfl, rfl, rfl, rfl, rfl, rfl, rfl⟩

theorem Hub.Marked.link (x : b.Marked l t) :
    t.links.get l.link = (b.links.get l.link).withLane l.side (t.lane l) := by
  rw [← Hub.setLane_link, ← x.links]

theorem Hub.Marked.active (x : b.Marked l t) : t.isActive l = b.isActive l := by
  unfold Hub.isActive
  rw [x.link]
  rfl

theorem Hub.Marked.partner (x : b.Marked l t) : t.lane (otherLane l) = b.lane (otherLane l) := by
  rw [Hub.lane_other, x.link, Link.withLane_partner, Hub.lane_other]

end

/-! ## The loss of the active lane -/

/-- The part after its active lane has left service: `b` is the part before (R79, R80, R83). -/
structure Hub.Lost (b : Hub) (l : LaneId) (t : Hub) : Prop where
  link : t.links.get l.link =
    ((b.links.get l.link).respond b.now b.sto.install.holdoverFrames l.side).withLane l.side (t.lane l)
  now : t.now = b.now
  pcu : t.pcu = b.pcu
  sto : t.sto = b.sto
  arb : t.arb = b.arb
  tests : t.hlm.tests = b.hlm.tests
  taken : (b.lane (otherLane l)).standsBy → t.tbk = b.tbk ∧ t.mon = b.mon
  held : ¬(b.lane (otherLane l)).standsBy → t.tbk.records.get l.link = none ∧ ∀ i, (t.mon.output i).silenced =
    (((b.mon.output i).linkLeaves t.linkUp l.link).startRevert b.now b.sto.install.revertDelay t.linkUp).silenced

section
variable {b k t : Hub} {l : LaneId}

theorem Hub.Lost.idle (x : b.Lost l t) : t.isActive l = false := by
  rw [Bool.eq_false_iff, ne_eq, Hub.isActive_iff, x.link]
  rintro ⟨-, serving⟩
  exact Link.respond_leaves _ _ _ _ serving

theorem Hub.Marked.linkUp (x : b.Marked l t) : t.linkUp = b.linkUp := by
  refine (Hub.linkUp_of_links x.links).trans (funext fun d => ?_)
  unfold Hub.linkUp
  rw [Hub.setLane_links]
  split <;> rfl

theorem Hub.Lost.marked (x : b.Lost l k) (y : k.Marked l t) : b.Lost l t where
  link := by rw [y.link, x.link, Link.withLane_withLane]
  now := y.now.trans x.now
  pcu := y.pcu.trans x.pcu
  sto := y.sto.trans x.sto
  arb := y.arb.trans x.arb
  tests := y.tests.trans x.tests
  taken next := by
    obtain ⟨tbk, mon⟩ := x.taken next
    exact ⟨y.tbk.trans tbk, y.mon.trans mon⟩
  held none_ := by
    rw [y.tbk, y.mon, y.linkUp]
    exact x.held none_

theorem Hub.Marked.lost (x : b.Marked l k) (y : k.Lost l t) : b.Lost l t where
  link := by rw [y.link, x.link, x.now, x.sto, Link.respond_withLane]
  now := y.now.trans x.now
  pcu := y.pcu.trans x.pcu
  sto := y.sto.trans x.sto
  arb := y.arb.trans x.arb
  tests := y.tests.trans x.tests
  taken next := by
    obtain ⟨tbk, mon⟩ := y.taken (by rwa [x.partner])
    exact ⟨tbk.trans x.tbk, mon.trans x.mon⟩
  held none_ := by
    have held := y.held (by rwa [x.partner])
    rwa [x.mon, x.now, x.sto] at held

/-- A lane fares: it is marked, or it was the active lane and left service. -/
def Hub.Fares (b : Hub) (l : LaneId) (t : Hub) : Prop := b.Marked l t ∨ b.isActive l = true ∧ b.Lost l t

theorem Hub.Fares.trans (x : b.Fares l k) (y : k.Fares l t) : b.Fares l t := by
  rcases x with x | ⟨active, x⟩ <;> rcases y with y | ⟨still, y⟩
  · exact .inl (x.trans y)
  · exact .inr ⟨by rwa [x.active] at still, x.lost y⟩
  · exact .inr ⟨active, x.marked y⟩
  · rw [x.idle] at still; cases still

theorem Hub.Fares.same (x : b.Fares l t) : t.now = b.now ∧ t.sto = b.sto ∧ t.hlm.tests = b.hlm.tests := by
  rcases x with x | ⟨-, x⟩
  · exact ⟨x.now, x.sto, x.tests⟩
  · exact ⟨x.now, x.sto, x.tests⟩

theorem Hub.Fares.marked (x : b.Fares l t) (idle : b.isActive l = false) : b.Marked l t := by
  rcases x with x | ⟨active, -⟩
  · exact x
  · rw [idle] at active; cases active

theorem Hub.Fares.lost (x : b.Fares l t) (active : b.isActive l = true) (left : t.isActive l = false) : b.Lost l t := by
  rcases x with x | ⟨-, x⟩
  · rw [← x.active, left] at active; cases active
  · exact x

end

/-! ## The link's leaving UP for HOLDOVER (R83) -/

theorem linkEvent_upHoldover {d : Desk} {h : Hub} (held : (h.links.get d).state = .holdover) :
    linkEvent .up d h = reqLeavesUp d (tbkLeavesUp d (monLeavesUp d h)) := by
  unfold linkEvent
  simp only [held]

/-- A link in HOLDOVER is not down, so that not all links are lost. -/
theorem Hub.allLost_held {d : Desk} {h : Hub} (held : (h.links.get d).state = .holdover) : h.allLost = false := by
  have some_ : h.allDown = false := List.all_eq_false.2 ⟨d, by cases d <;> simp [Desk.all], by simp [held]⟩
  rw [Hub.allLost, some_, Bool.false_and]

/-- The talk of the desk ends and every output takes the link's leaving UP, its enable as it was. -/
theorem linkEvent_upHoldover_spec {d : Desk} {h : Hub} (held : (h.links.get d).state = .holdover) :
    let t := linkEvent .up d h
    h.Airs t ∧ t.tbk.records.get d = none ∧ ∀ i, (t.mon.output i).silenced =
      (((h.mon.output i).linkLeaves h.linkUp d).startRevert h.now h.sto.install.revertDelay h.linkUp).silenced := by
  obtain ⟨airs1, -, output⟩ := monLeavesUp_spec d h
  let m := monLeavesUp d h
  obtain ⟨airs2, ended, silent⟩ : m.Airs (tbkLeavesUp d m) ∧ _ := endTalk_spec d .linkLost m
  intro t
  have event : t = reqLeavesUp d (tbkLeavesUp d m) := linkEvent_upHoldover held
  rw [event]
  refine ⟨(airs1.trans airs2).trans (reqLeavesUp_airs ..), ended, fun i => (silent i).trans ?_⟩
  rw [output i]
  simp [Hub.allLost_held held]

/-! ## A fault -/

theorem Hub.Told.setHealth {h k : Hub} (t : h.Told k) (l : LaneId) (x : Health) : (h.setHealth l x).Told (k.setHealth l x) := by
  obtain ⟨now, pcu, arb, links, hlm, mon, tbk, sto, down⟩ := Hub.core_eq t.core
  exact ⟨by simp only [Hub.core, Hub.setHealth, now, pcu, arb, links, hlm, mon, tbk, sto, down], t.queues, t.answers⟩

/-- The lane's health after a fault: its counter, its verdict and its capture (R94, R99). -/
def Health.faulted (x : Health) (th : PerCounter Threshold) (c : Capture) : Health :=
  { x.counted th (faultCount c.cause) with capture := some c }

/-- The count and the capture at the fault of a lane that is not the active one any more. -/
theorem writeCapture_told {l : LaneId} {m : Hub} (idle : m.isActive l = false) (cause : FaultCause) (prior : LaneState) :
    (m.setHealth l ((laneGet m.hlm.health l).faulted m.sto.install.thresholds ⟨cause, m.now, prior⟩)).Told
      (writeCapture l ⟨cause, m.now, prior⟩ (countHealth l (faultCount cause) m)) := by
  have told : (m.counted l (faultCount cause)).Told (countHealth l (faultCount cause) m) := countHealth_idle idle _
  obtain ⟨-, -, -, -, hlm, -⟩ := Hub.core_eq told.core
  have health : laneGet (countHealth l (faultCount cause) m).hlm.health l =
      (laneGet m.hlm.health l).counted m.sto.install.thresholds (faultCount cause) := by
    rw [hlm]; exact (Hub.setHealth_health ..).trans (if_pos rfl)
  have captured := told.setHealth l
    { laneGet (countHealth l (faultCount cause) m).hlm.health l with capture := some ⟨cause, m.now, prior⟩ }
  rw [Hub.counted, Hub.setHealth_setHealth, health] at captured
  rw [writeCapture, health]
  exact captured

/-- The part with a lane faulted and its link's response, before any of it is told. -/
def Hub.faulted (h : Hub) (l : LaneId) (st : LaneState) : Hub :=
  if h.isActive l then h.setLink l.link (((h.links.get l.link).withLane l.side ((h.lane l).outOfSync st)).respond h.now
    h.sto.install.holdoverFrames l.side)
  else h.setLane l ((h.lane l).outOfSync st)

section
variable {l : LaneId} {h : Hub} {st : LaneState}

/-- No test of the link is to be recorded or completed before a fault of the lane, and none waits to be resumed. -/
structure Hub.Undisturbed (h : Hub) (l : LaneId) : Prop where
  recorded : recordTested l h = h
  short : ∀ x, h.hlm.tests.get l.link = some x → x.status = .running → x.framesDone < x.length
  unsuspended : ∀ x, h.hlm.tests.get l.link = some x → x.status ≠ .suspended

theorem Hub.Undisturbed.of_untested (untested : h.hlm.tests.get l.link = none) : h.Undisturbed l :=
  ⟨recordTested_none untested, by simp [untested], by simp [untested]⟩

theorem resumeTest_unsuspended {d : Desk} (unsuspended : ∀ x, h.hlm.tests.get d = some x → x.status ≠ .suspended) :
    resumeTest d h = none := by
  unfold resumeTest
  split
  · rfl
  · next x test => exact if_neg (by simp [resumable, unsuspended x test])

theorem laneFault_eq (undisturbed : h.Undisturbed l) (cause : FaultCause) (st : LaneState) :
    laneFault l cause st h =
      hlmFault l cause (h.lane l).state (h.isActive l) (settleLink h l.link l.side (h.faulted l st)) := by
  unfold laneFault
  dsimp only
  rw [undisturbed.recorded, testComplete_idle undisturbed.short, Hub.faulted, Hub.setLane_link]
  cases h.isActive l with
  | false => rfl
  | true => simp only [if_true, Hub.setLane_eq, Hub.setLink_setLink]

/-- The response of the link to the fault of its active lane, told and handed to the other blocks. -/
theorem settleLink_lost (undisturbed : h.Undisturbed l) (active : h.isActive l = true) (left : st ≠ .active) :
    h.Lost l (settleLink h l.link l.side (h.faulted l st)) ∧
    (settleLink h l.link l.side (h.faulted l st)).lane l = (h.lane l).outOfSync st ∧
    (settleLink h l.link l.side (h.faulted l st)).hlm = h.hlm := by
  obtain ⟨up, serving⟩ := Hub.isActive_iff.1 active
  let k := h.links.get l.link
  let k1 := (k.respond h.now h.sto.install.holdoverFrames l.side).withLane l.side ((h.lane l).outOfSync st)
  let h2 := h.setLink l.link k1
  have faulted : h.faulted l st = h2 := by
    rw [Hub.faulted, if_pos active, Link.respond_faulted _ _ (show ((h.lane l).outOfSync st).state ≠ .active from left)]
  have link2 : h2.links.get l.link = k1 := (Hub.setLink_links ..).trans (if_pos rfl)
  have plain : resumeTest l.link h2 = none := resumeTest_unsuspended (h := h2) undisturbed.unsuspended
  rw [faulted]
  generalize settled : settleLink h l.link l.side h2 = m
  have spec (links : m.links = h2.links) : m.links.get l.link = k1 ∧ m.lane l = (h.lane l).outOfSync st := by
    have link : m.links.get l.link = k1 := by rw [links, link2]
    exact ⟨link, by rw [Hub.lane, link]; exact (Link.withLane_lane ..).trans (if_pos rfl)⟩
  by_cases next : (h.lane (otherLane l)).standsBy
  · have state : k1.state = k.state :=
      (congrArg Link.state (Link.respond_taken (k := k) (side := l.side) h.now h.sto.install.holdoverFrames next) :)
    have told : h2.Told m := settled ▸ settleLink_still (b := h) plain (by rw [link2, state]) l.side
    obtain ⟨now, pcu, arb, links, hlm, mon, tbk, sto, -⟩ := Hub.core_eq told.core
    obtain ⟨link, lane⟩ := spec links
    exact ⟨⟨by rw [link, lane], now, pcu, sto, arb, by rw [hlm]; rfl, fun _ => ⟨tbk, mon⟩, fun none_ => absurd next none_⟩,
      lane, hlm⟩
  · have state : k1.state = .holdover := 
      (congrArg Link.state (Link.respond_held (k := k) (side := l.side) h.now h.sto.install.holdoverFrames next) :)
    let n := tellLink h l.link l.side h2
    have told : h2.Told n := tellLink_told ..
    obtain ⟨now, pcu, arb, links, hlm, mon, tbk, sto, -⟩ := Hub.core_eq told.core
    obtain ⟨airs, ended, output⟩ := linkEvent_upHoldover_spec (d := l.link) (h := n) (by rw [links, link2, state])
    obtain rfl : linkEvent .up l.link n = m := by rw [← settled, settleLink_plain plain, up]
    obtain ⟨now', pcu', links', sto'⟩ := steady_fields airs.steady
    obtain ⟨link, lane⟩ := spec (links'.trans links)
    have hlm_ := airs.hlm.trans hlm
    refine ⟨⟨by rw [link, lane], now'.trans now, pcu'.trans pcu, sto'.trans sto, airs.arb.trans arb, by rw [hlm_]; rfl,
      fun taken => absurd taken next, fun _ => ⟨ended, fun i => (output i).trans ?_⟩⟩, lane, hlm_⟩
    rw [Hub.linkUp_of_links links', mon, now, sto]
    rfl

theorem settleLink_idle (undisturbed : h.Undisturbed l) (idle : h.isActive l = false) :
    (h.setLane l ((h.lane l).outOfSync st)).Told (settleLink h l.link l.side (h.faulted l st)) := by
  have faulted : h.faulted l st = h.setLane l ((h.lane l).outOfSync st) := by rw [Hub.faulted, if_neg (by rw [idle]; simp)]
  rw [faulted]
  exact settleLink_still (b := h) (h := h.setLane l _) (resumeTest_unsuspended (h := h.setLane l _) undisturbed.unsuspended)
    (by rw [Hub.setLane_link]; rfl) l.side

/-- The change of a fault, told: the lane out of sync and out of service. -/
theorem settleLink_faulted (undisturbed : h.Undisturbed l) (left : st ≠ .active) :
    let m := settleLink h l.link l.side (h.faulted l st)
    h.Fares l m ∧ m.isActive l = false ∧ m.lane l = (h.lane l).outOfSync st ∧ m.hlm = h.hlm := by
  intro m
  cases active : h.isActive l with
  | true =>
    obtain ⟨lost, lane, hlm⟩ := settleLink_lost undisturbed active left
    exact ⟨.inr ⟨active, lost⟩, lost.idle, lane, hlm⟩
  | false =>
    have told : (h.setLane l ((h.lane l).outOfSync st)).Told m := settleLink_idle undisturbed active
    obtain ⟨-, -, -, -, hlm, -⟩ := Hub.core_eq told.core
    have kept : (h.setLane l ((h.lane l).outOfSync st)).setHealth l (laneGet h.hlm.health l) =
        h.setLane l ((h.lane l).outOfSync st) := by
      obtain ⟨d, side⟩ := l
      cases d <;> cases side <;> rfl
    obtain ⟨marked, lane, -⟩ := Hub.marked_of_told (kept.symm ▸ told)
    exact ⟨.inl marked, marked.active.trans active, lane, hlm⟩

/-- What a lane fault leaves before the link's test takes part in it: the lane out of sync and out of service, the fault counted
and captured. -/
theorem laneFault_captured (undisturbed : h.Undisturbed l) (cause : FaultCause) (left : st ≠ .active) :
    ∃ k, laneFault l cause st h = faultTest l (h.isActive l) k ∧ h.Fares l k ∧ k.isActive l = false ∧
      k.lane l = (h.lane l).outOfSync st ∧ laneGet k.hlm.health l =
        (laneGet h.hlm.health l).faulted h.sto.install.thresholds ⟨cause, h.now, (h.lane l).state⟩ := by
  let m := settleLink h l.link l.side (h.faulted l st)
  obtain ⟨fares, idle, lane, hlm⟩ : h.Fares l m ∧ m.isActive l = false ∧ m.lane l = _ ∧ m.hlm = h.hlm :=
    settleLink_faulted undisturbed left
  obtain ⟨now, sto, -⟩ := fares.same
  obtain ⟨marked, own, health⟩ := Hub.marked_of_health (writeCapture_told idle cause (h.lane l).state)
  exact ⟨_, laneFault_eq undisturbed cause st, fares.trans (.inl marked), marked.active.trans idle,
    own.trans lane, health.trans (by rw [hlm, sto, now])⟩

theorem faultTest_untested (untested : h.hlm.tests.get l.link = none) (active : Bool) : faultTest l active h = h := by
  simp [faultTest, untested]

/-- What a lane fault without a test leaves. -/
theorem laneFault_fares (untested : h.hlm.tests.get l.link = none) (cause : FaultCause) (left : st ≠ .active) :
    let t := laneFault l cause st h
    h.Fares l t ∧ t.isActive l = false ∧ t.lane l = (h.lane l).outOfSync st ∧ laneGet t.hlm.health l =
      (laneGet h.hlm.health l).faulted h.sto.install.thresholds ⟨cause, h.now, (h.lane l).state⟩ := by
  obtain ⟨k, event, fares, rest⟩ := laneFault_captured (Hub.Undisturbed.of_untested untested) cause left
  obtain ⟨-, -, tests⟩ := fares.same
  rw [faultTest_untested (by rw [tests]; exact untested)] at event
  rw [event]
  exact ⟨fares, rest⟩

end

end Sys2Proof.Machine
end

/-!
FRAME_LOSS and LIGHT_LOSS of a lane without a test (R67, R70, R73, R79, R83, R94, R99): the missing result of the period, the
frame loss it makes due, then the loss of light.
-/
section
namespace Sys2Proof.Machine

/-! ## The missing result (R69, R73) -/

/-- An ACTIVE lane that yields its link to a READY partner has left service (R80, R87). -/
theorem Hub.lost_of_switch {h t : Hub} {l : LaneId} {r : LaneRec} {x : Health} (ready : (h.lane (otherLane l)).standsBy)
    (told : (((h.setLane l r).setHealth l x).setLink l.link (((h.links.get l.link).withLane l.side r).switchFrom l.side)).Told t) :
    h.Lost l t ∧ t.lane l = r.stepDown ∧ laneGet t.hlm.health l = x := by
  obtain ⟨now, pcu, arb, links, hlm, mon, tbk, sto, -⟩ := Hub.core_eq told.core
  have link : t.links.get l.link = ((h.links.get l.link).withLane l.side r).switchFrom l.side := by
    rw [links]; exact (Hub.setLink_links ..).trans (if_pos rfl)
  have lane : t.lane l = r.stepDown := by
    rw [Hub.lane, link, Link.switchFrom_left, Link.withLane_lane, if_pos rfl]
  refine ⟨⟨?_, now, pcu, sto, arb, by rw [hlm]; rfl, fun _ => ⟨tbk, mon⟩, fun none_ => absurd ready none_⟩, lane,
    by rw [hlm]; exact (Hub.setHealth_health ..).trans (if_pos rfl)⟩
  have next : ((h.links.get l.link).lane l.side.other).standsBy := ready
  rw [Link.respond_taken _ _ next, ← Link.switchFrom_withLane _ _ r, ← link]
  exact (Link.withLane_self ..).symm

/-- A count on a lane whose record is replaced: the lane stays in service, or its link moves to the partner. -/
theorem countHealth_fares {h : Hub} {l : LaneId} (untested : h.hlm.tests.get l.link = none) (r : LaneRec)
    (n : PerCounter Nat) :
    let t := countHealth l n (h.setLane l r)
    h.Fares l t ∧ (t.lane l = r ∨ h.isActive l = true ∧ t.lane l = r.stepDown) ∧
      laneGet t.hlm.health l = (laneGet h.hlm.health l).counted h.sto.install.thresholds n := by
  intro t
  have active : (h.setLane l r).isActive l = h.isActive l := (h.marked_setLane l r).active
  by_cases yields : (h.setLane l r).yields l
      (verdictOf h.sto.install.thresholds ((laneGet h.hlm.health l).counters.add n))
  · have told := countHealth_yields (h := h.setLane l r) untested yields
    obtain ⟨-, -, serving, ready, -⟩ := yields
    rw [active] at serving
    rw [Hub.setLane_lane, if_neg (otherLane_ne l)] at ready
    rw [Hub.setLane_link] at told
    obtain ⟨lost, lane, health⟩ := Hub.lost_of_switch (t := t) (.inl ready) told
    exact ⟨.inr ⟨serving, lost⟩, .inr ⟨serving, lane⟩, health⟩
  · obtain ⟨marked, lane, health⟩ := Hub.marked_of_told (t := t) (countHealth_stays yields)
    exact ⟨.inl marked, .inl lane, health⟩

/-- The lane has had its frame of the period and has a frame loss due. -/
abbrev LaneRec.unframed (r : LaneRec) : Prop := r.latency ≠ none ∧ 8 ≤ if r.arrived then r.badRun else r.badRun + 1

/-- The lane's frame of the period is missing, and is a bad result. -/
abbrev LaneRec.missing (r : LaneRec) : Prop := r.arrived = false ∧ r.latency ≠ none

/-- The lane's part of the hub once the result of its period is recorded: `h` is the part before. -/
structure Hub.Recorded (h : Hub) (l : LaneId) (t : Hub) : Prop where
  fares : h.Fares l t
  light : (t.lane l).light = (h.lane l).light
  arrived : (t.lane l).arrived = true
  number : (t.lane l).runNumber = (h.lane l).runNumber
  lossDue : ((t.lane l).latency ≠ none ∧ 8 ≤ (t.lane l).badRun) ↔ (h.lane l).unframed
  state : h.isActive l = false ∨ (h.lane l).arrived = true → (t.lane l).state = (h.lane l).state
  lit : (h.lane l).state ≠ .dark → (t.lane l).state ≠ .dark
  health : laneGet t.hlm.health l = if (h.lane l).missing then
    (laneGet h.hlm.health l).counted h.sto.install.thresholds ⟨1, 0, 0, 0, 0⟩ else laneGet h.hlm.health l

section
variable {h : Hub} {l : LaneId}

theorem LaneRec.stepDown_lit {r : LaneRec} (lit : r.state ≠ .dark) : r.stepDown.state ≠ .dark := by
  unfold LaneRec.stepDown
  split
  · cases r.qualified <;> simp
  all_goals exact lit

/-- What a lane keeps that leaves its service. -/
theorem LaneRec.stepDown_same (r : LaneRec) : r.stepDown.light = r.light ∧ r.stepDown.arrived = r.arrived ∧
    r.stepDown.runNumber = r.runNumber ∧ r.stepDown.latency = r.latency ∧ r.stepDown.badRun = r.badRun := by
  unfold LaneRec.stepDown
  split <;> exact ⟨rfl, rfl, rfl, rfl, rfl⟩

/-- A missing frame of a lane in sync is a bad result (R69). -/
theorem missingFrame_recorded_bad (untested : h.hlm.tests.get l.link = none) (early : (h.lane l).arrived = false) {lat : Frame}
    (sync : (h.lane l).latency = some lat) : h.Recorded l (missingFrame l h) := by
  let r := ((h.lane l).noted none).bad (h.now - lat)
  have recorded : missingFrame l h = countHealth l ⟨1, 0, 0, 0, 0⟩ (h.setLane l r) := by
    rw [missingFrame, if_neg (by simp [early]), receive_bad untested sync (by simp)]
  obtain ⟨fares, lane, health⟩ := countHealth_fares untested r ⟨1, 0, 0, 0, 0⟩
  rw [recorded]
  generalize countHealth l ⟨1, 0, 0, 0, 0⟩ (h.setLane l r) = t at fares lane health
  have kept : (t.lane l).light = r.light ∧ (t.lane l).arrived = r.arrived ∧ (t.lane l).runNumber = r.runNumber ∧
      (t.lane l).latency = r.latency ∧ (t.lane l).badRun = r.badRun := by
    rcases lane with e | ⟨-, e⟩
    · rw [e]; exact ⟨rfl, rfl, rfl, rfl, rfl⟩
    · rw [e]; exact r.stepDown_same
  obtain ⟨light, arrived, number, latency, run⟩ := kept
  refine ⟨fares, light, arrived, number, ?_, fun still => ?_, fun lit => ?_,
    by rw [health, if_pos ⟨early, by rw [sync]; simp⟩]⟩
  · rw [latency, run, LaneRec.unframed, early, sync, show r.latency = some lat from sync,
      show r.badRun = min 8 ((h.lane l).badRun + 1) from rfl]
    simp
  · rcases lane with e | ⟨active, -⟩
    · rw [e]; rfl
    · rcases still with idle | late
      · rw [idle] at active; cases active
      · rw [early] at late; cases late
  · rcases lane with e | ⟨-, e⟩
    · rw [e]; exact lit
    · rw [e]; exact LaneRec.stepDown_lit lit

/-- A missing frame of a lane that is not in sync (R68). -/
theorem missingFrame_unsync (early : (h.lane l).arrived = false) (unsync : (h.lane l).latency = none) :
    missingFrame l h = h.setLane l
      (if (h.lane l).state = .acquiring then ((h.lane l).noted none).acquire none else (h.lane l).noted none) := by
  rw [missingFrame, if_neg (by simp [early])]
  split
  · next acquiring => exact receive_acquiring unsync acquiring none
  · next other =>
    unfold receive
    dsimp only
    split
    · next e => rw [unsync] at e; cases e
    · exact if_neg other

theorem missingFrame_recorded (untested : h.hlm.tests.get l.link = none) : h.Recorded l (missingFrame l h) := by
  by_cases arrived : (h.lane l).arrived = true
  · rw [missingFrame_arrived arrived]
    refine ⟨.inl (.refl h l), rfl, arrived, rfl, by simp [LaneRec.unframed, arrived], fun _ => rfl, id, ?_⟩
    rw [if_neg fun m => by rw [m.1] at arrived; cases arrived]
  have early : (h.lane l).arrived = false := by simpa using arrived
  cases sync : (h.lane l).latency with
  | some lat => exact missingFrame_recorded_bad untested early sync
  | none =>
    rw [missingFrame_unsync early sync]
    generalize e : (if (h.lane l).state = .acquiring then ((h.lane l).noted none).acquire none else (h.lane l).noted none) = r
    obtain ⟨light, late, number, latency, state⟩ : r.light = (h.lane l).light ∧ r.arrived = true ∧
        r.runNumber = (h.lane l).runNumber ∧ r.latency = none ∧ r.state = (h.lane l).state := by
      rw [← e]
      split <;> exact ⟨rfl, rfl, rfl, sync, rfl⟩
    have lane : (h.setLane l r).lane l = r := (Hub.setLane_lane ..).trans (if_pos rfl)
    refine ⟨.inl (h.marked_setLane l r), by rw [lane, light], by rw [lane, late], by rw [lane, number],
      by simp [lane, latency, LaneRec.unframed, sync], fun _ => by rw [lane, state], fun lit => by rw [lane, state]; exact lit, ?_⟩
    rw [if_neg fun m => m.2 sync]
    rfl

/-- The results of a link's period are those of the one lane whose partner's frame has arrived. -/
theorem recordLink_partner (arrived : (h.lane (otherLane l)).arrived = true) : recordLink l.link h = missingFrame l h := by
  obtain ⟨d, side⟩ := l
  cases side with
  | p =>
    have late : ((missingFrame ⟨d, .p⟩ h).lane ⟨d, .s⟩).arrived = true := by
      rw [(missingFrame_lane ..).1, show (h.lane ⟨d, .s⟩).arrived = true from arrived, Bool.or_true]
    exact missingFrame_arrived late
  | s => exact congrArg (missingFrame ⟨d, .s⟩) (missingFrame_arrived (l := ⟨d, .p⟩) arrived)

/-! ## FRAME_LOSS (R70) -/

theorem frameLoss_due (sync : (h.lane l).latency ≠ none) (run : 8 ≤ (h.lane l).badRun) :
    frameLoss l h = laneFault l .frameLoss .acquiring h :=
  if_pos (by simp [LaneRec.inSync, Option.isSome_iff_ne_none, sync, run])

theorem frameLoss_not_due (none_ : ¬((h.lane l).latency ≠ none ∧ 8 ≤ (h.lane l).badRun)) : frameLoss l h = h :=
  if_neg (by simpa [LaneRec.inSync, Option.isSome_iff_ne_none] using none_)

/-! ## LIGHT_LOSS (R67) -/

/-- A frame loss that the result of the period makes due is taken before the light is lost. -/
theorem frameLoss_recorded {t : Hub} (untested : h.hlm.tests.get l.link = none) (recorded : h.Recorded l t) :
    let u := frameLoss l t
    h.Fares l u ∧ (u.lane l).arrived = true ∧ (u.lane l).runNumber = (h.lane l).runNumber ∧
      ((h.lane l).unframed → (u.lane l).state = .acquiring) ∧ (¬(h.lane l).unframed → (u.lane l).state = (t.lane l).state) ∧
      laneGet u.hlm.health l = if (h.lane l).unframed then (laneGet t.hlm.health l).faulted h.sto.install.thresholds
        ⟨.frameLoss, h.now, (t.lane l).state⟩ else laneGet t.hlm.health l := by
  intro u
  obtain ⟨now, sto, tests⟩ := recorded.fares.same
  by_cases unframed : (h.lane l).unframed
  · obtain ⟨sync, run⟩ := recorded.lossDue.2 unframed
    obtain ⟨fares, -, lane, health⟩ := laneFault_fares (h := t) (st := .acquiring) (by rw [tests]; exact untested) .frameLoss (by simp)
    rw [← frameLoss_due sync run] at fares lane health
    have lane_ : u.lane l = (t.lane l).outOfSync .acquiring := lane
    refine ⟨recorded.fares.trans fares, by rw [lane_]; exact recorded.arrived, by rw [lane_]; exact recorded.number,
      fun _ => by rw [lane_]; rfl, fun not => absurd unframed not, ?_⟩
    rw [if_pos unframed, health, sto, now]
  · have same : u = t := frameLoss_not_due (mt recorded.lossDue.1 unframed)
    rw [same, if_neg unframed]
    exact ⟨recorded.fares, recorded.arrived, recorded.number, fun due => absurd due unframed, fun _ => rfl, rfl⟩

/-! ## LIGHT_LOSS (R67) -/

/-- A count on a count that saturates. -/
theorem min_min_add (top a b : Nat) : min top (min top a + b) = min top (a + b) := by omega

/-- The lane's counters after the loss of light, with the bad result and the frame loss that come before it. -/
theorem unlit_counters {x y z : Health} {th : PerCounter Threshold} {missing unframed : Prop} [Decidable missing]
    [Decidable unframed] {c d : Capture} (frame : c.cause = .frameLoss) (light : d.cause = .lightLoss)
    (first : y = if missing then x.counted th ⟨1, 0, 0, 0, 0⟩ else x) (second : z = if unframed then y.faulted th c else y) :
    (z.faulted th d).counters.crcErrors = min 65535 (x.counters.crcErrors + if missing then 1 else 0) ∧
    (z.faulted th d).counters.frameLosses = min 65535 (x.counters.frameLosses + if unframed then 1 else 0) ∧
    (z.faulted th d).counters.lightLosses = min 65535 (x.counters.lightLosses + 1) := by
  subst first second
  have added (x : Health) (c : Capture) : (x.faulted th c).counters = x.counters.add (faultCount c.cause) := rfl
  have counted (x : Health) (n : PerCounter Nat) : (x.counted th n).counters = x.counters.add n := rfl
  by_cases m : missing <;> by_cases u : unframed <;>
    simp [m, u, added, counted, frame, light, faultCount, PerCounter.add, saturate16, min_min_add]

/-- What LIGHT_LOSS without a test leaves, the partner's frame of the period there. -/
theorem lightLoss_fares (untested : h.hlm.tests.get l.link = none) (light : (h.lane l).light = true)
    (lit : (h.lane l).state ≠ .dark) (partner : (h.lane (otherLane l)).arrived = true) :
    let t := lightLoss l h
    let x := (laneGet h.hlm.health l).counters
    let y := laneGet t.hlm.health l
    h.Fares l t ∧ t.isActive l = false ∧
      t.lane l = { (h.lane l).outOfSync .dark with light := false, arrived := true } ∧
      (y.counters.crcErrors = min 65535 (x.crcErrors + if (h.lane l).missing then 1 else 0) ∧
        y.counters.frameLosses = min 65535 (x.frameLosses + if (h.lane l).unframed then 1 else 0) ∧
        y.counters.lightLosses = min 65535 (x.lightLosses + 1)) ∧
      ∃ prior, y.capture = some ⟨.lightLoss, h.now, prior⟩ ∧ ((h.lane l).unframed → prior = .acquiring) ∧
        (¬(h.lane l).unframed → h.isActive l = false ∨ (h.lane l).arrived = true → prior = (h.lane l).state) := by
  intro t
  have recorded := missingFrame_recorded (l := l) untested
  generalize bad : missingFrame l h = k at recorded
  obtain ⟨fares, arrived, number, lossState, keptState, health⟩ := frameLoss_recorded untested recorded
  generalize lost : frameLoss l k = u at fares arrived number lossState keptState health
  let v := u.setLane l { u.lane l with light := false }
  have vlane : v.lane l = { u.lane l with light := false } := (Hub.setLane_lane ..).trans (if_pos rfl)
  have faresV : h.Fares l v := fares.trans (.inl (u.marked_setLane l _))
  obtain ⟨now, sto, tests⟩ := faresV.same
  have vlit : (v.lane l).state ≠ .dark := by
    rw [vlane]
    by_cases unframed : (h.lane l).unframed
    · rw [show ({ u.lane l with light := false } : LaneRec).state = _ from lossState unframed]; simp
    · rw [show ({ u.lane l with light := false } : LaneRec).state = _ from keptState unframed]; exact recorded.lit lit
  have event : t = laneFault l .lightLoss .dark v := by
    show lightLoss l h = _
    unfold lightLoss
    rw [if_pos light, recordLink_partner partner, bad, lost]
    exact if_neg vlit
  obtain ⟨faresT, left, lane, healthT⟩ := laneFault_fares (h := v) (st := .dark) (by rw [tests]; exact untested) .lightLoss (by simp)
  rw [← event] at faresT left lane healthT
  rw [sto, now] at healthT
  refine ⟨faresV.trans faresT, left, ?_, ?_, (v.lane l).state, ?_, fun unframed => ?_, fun framed still => ?_⟩
  · rw [lane, vlane]
    simp [LaneRec.outOfSync, arrived, number]
  · rw [healthT]
    exact unlit_counters (c := ⟨.frameLoss, h.now, (k.lane l).state⟩) rfl rfl recorded.health health
  · rw [healthT]; rfl
  · rw [vlane]; exact lossState unframed
  · rw [vlane]; exact (keptState framed).trans (recorded.state still)

end

/-! ## The obligations -/

/-- Settles O28: a fault of a lane that does not serve its link marks the lane and its health alone. -/
theorem faultOfAnIdleLane : Obligations.FaultOfAnIdleLane := by
  unfold Obligations.FaultOfAnIdleLane
  refine ⟨fun l s untested unserved => ?_, fun l s light => ?_⟩
  · intro r x lost
    have idle : s.hub.isActive l = false := by
      rw [Bool.eq_false_iff, ne_eq, Hub.isActive_iff]
      exact fun serves => unserved serves.2
    refine ⟨fun sync run => ?_, fun light lit partner => ?_⟩
    · let t := frameLoss l s.hub
      have event : t = laneFault l .frameLoss .acquiring s.hub := frameLoss_due sync run
      obtain ⟨fares, -, lane, health⟩ := laneFault_fares (st := .acquiring) untested .frameLoss (by simp)
      rw [← event] at fares lane health
      have marked := fares.marked idle
      exact ⟨s.withHub t, rfl, by rw [marked.links, lane]; rfl, by rw [health]; rfl, by rw [health]; rfl, marked.mon, marked.arb,
        marked.tbk, marked.pcu⟩
    · let t := lightLoss l s.hub
      obtain ⟨fares, -, lane, ⟨crc, frames, lights⟩, prior, capture, acquiring, kept⟩ := lightLoss_fares untested light lit partner
      have marked := fares.marked idle
      refine ⟨s.withHub t, rfl, by rw [marked.links, lane]; rfl, crc, frames, lights, ?_, marked.mon, marked.arb, marked.tbk,
        marked.pcu⟩
      refine capture.trans (congrArg (fun p => some (Capture.mk .lightLoss s.hub.now p)) ?_)
      by_cases due : (s.hub.lane l).unframed
      · exact (acquiring due).trans (if_pos due).symm
      · exact (kept due (.inl idle)).trans (if_neg due).symm
  · exact congrArg (fun h => Host.Outcome.next (s.withHub h)) (lightLoss_recorded l s.hub light)

/-- Settles O29: the fault of the active lane by what its link's response leaves. -/
theorem lossOfTheActiveLane : Obligations.LossOfTheActiveLane := by
  unfold Obligations.LossOfTheActiveLane
  intro l s untested active up serving k partner counts lost
  have serves : s.hub.isActive l = true := Hub.isActive_iff.2 ⟨up, serving⟩
  have left {t : Hub} {st : LaneState} (gone : s.hub.Lost l t) {light arrived : Bool}
      (lane : t.lane l = { (s.hub.lane l).outOfSync st with light := light, arrived := arrived }) : lost (s.withHub t) st := by
    have link := gone.link
    refine ⟨by rw [lane]; rfl, by rw [lane]; rfl, by rw [lane]; rfl, by rw [lane]; rfl, by rw [lane]; rfl,
      by rw [lane]; rfl, fun next => ?_, fun none_ => ?_⟩
    · obtain ⟨tbk, mon⟩ := gone.taken next
      rw [Link.respond_taken (k := k) (side := l.side) _ _ next] at link
      refine ⟨by rw [link]; exact up, by rw [link]; rfl, ?_, by rw [link]; rfl, by rw [link]; rfl, ?_, tbk, gone.arb, mon⟩
      · rw [link]
        show (!decide (partner.state = .ready)) = decide (partner.state = .qualifying)
        rcases next with e | e <;> rw [show partner.state = _ from e] <;> rfl
      · rw [Hub.lane_other, link, Link.withLane_partner, Link.switchFrom_taken]
        rfl
    · have alone : ¬partner.standsBy := by
        rintro (e | e) <;> rw [e] at none_ <;> simp at none_
      obtain ⟨ended, silent⟩ := gone.held alone
      rw [Link.respond_held (k := k) (side := l.side) _ _ alone] at link
      refine ⟨by rw [link]; rfl, by rw [link]; rfl, by rw [link]; rfl, by rw [link]; rfl, by rw [link]; rfl, by rw [link]; rfl, ?_,
        ended, gone.arb, silent⟩
      rw [Hub.lane_other, link, Link.withLane_partner]
      rfl
  refine ⟨fun sync run => ?_, fun light arrived => ?_⟩
  · let t := frameLoss l s.hub
    have event : t = laneFault l .frameLoss .acquiring s.hub := frameLoss_due sync run
    obtain ⟨fares, idle, lane, health⟩ := laneFault_fares (st := .acquiring) untested .frameLoss (by simp)
    rw [← event] at fares idle lane health
    exact ⟨s.withHub t, rfl, left (fares.lost serves idle) lane, by rw [health]; rfl, by rw [health, active]; rfl⟩
  · let t := lightLoss l s.hub
    obtain ⟨fares, idle, lane, ⟨-, -, lights⟩, prior, capture, -, kept⟩ :=
      lightLoss_fares untested light (by rw [active]; simp) arrived
    refine ⟨s.withHub t, rfl, left (fares.lost serves idle) lane, by rw [lane], lights, prior, capture, fun there few => ?_⟩
    refine (kept (fun due => ?_) (.inr there)).trans active
    have many := due.2
    rw [if_pos there] at many
    omega

end Sys2Proof.Machine
end

/-!
Lane tests (R102 to R109): the requests LANE_TEST and LANE_TEST_STOP, and the completion of a test.
-/
section
namespace Sys2Proof.Machine

/-! ## The status of a test, told (R101) -/

theorem tellTest_some {d : Desk} {t : TestRec} {h : Hub} (test : h.hlm.tests.get d = some t) :
    tellTest d h = notifyDeskPanel d (.testStatus d t.lane t.status t.framesDone t.length t.patternFrames t.patternErrors) h := by
  simp only [tellTest, test]

theorem setTestStatus_eq (d : Desk) (t : TestRec) (st : TestStatus) (h : Hub) : setTestStatus d t st h =
    notifyDeskPanel d (.testStatus d t.lane st t.framesDone t.length t.patternFrames t.patternErrors)
      (h.setTest d (some { t with status := st })) :=
  tellTest_some ((Hub.setTest_tests ..).trans (if_pos rfl))

theorem TestRec.inProgress_iff {t : TestRec} : t.inProgress = true ↔ t.status = .running ∨ t.status = .suspended := by
  unfold TestRec.inProgress
  cases t.status <;> simp

/-! ## LANE_TEST (R102) -/

theorem testReady_iff {h : Hub} {l : LaneId} : testReady h l = true ↔
    (h.links.get l.link).state = .up ∧ (h.links.get l.link).provisional = false ∧ (h.lane l).state = .ready :=
  decide_eq_true_iff

theorem testInProgress_iff {h : Hub} {d : Desk} :
    testInProgress h d = true ↔ ∃ t, h.hlm.tests.get d = some t ∧ (t.status = .running ∨ t.status = .suspended) := by
  unfold testInProgress
  cases h.hlm.tests.get d <;> simp [TestRec.inProgress_iff]

/-- The part with a new test of a lane, before it is told (R102). -/
def Hub.testing (h : Hub) (l : LaneId) (seconds : Nat) : Hub :=
  (h.setTest l.link (some (TestRec.start l.side seconds))).setLane l { h.lane l with state := .testing, qualifyDue := false }

section
variable {who : Requester} {l : LaneId} {seconds : Nat} {h : Hub}

/-- LANE_TEST of a lane and a length in range, by a requester that may name the lane. -/
theorem hlmLaneTest_owned (low : 1 ≤ seconds) (high : seconds ≤ 600) (owns : ownsLink who l.link = true) :
    hlmLaneTest who (LaneId.num l) seconds h =
      if testInProgress h l.link then answerTo who .busy [] h
      else if testReady h l then
        answerTo who .done [] (tellTest l.link (settleLink h l.link l.side (h.testing l seconds)))
      else answerTo who .notReady [] h := by
  unfold hlmLaneTest
  simp only [lane?_num, if_pos (show 1 ≤ seconds ∧ seconds ≤ 600 from ⟨low, high⟩), owns, if_true]
  rfl

theorem hlmLaneTest_denied (low : 1 ≤ seconds) (high : seconds ≤ 600) (denied : ownsLink who l.link = false) :
    hlmLaneTest who (LaneId.num l) seconds h = answerTo who .denied [] h := by
  simp [hlmLaneTest, low, high, denied]

theorem hlmLaneTest_range {n : Nat} (range : n < 1 ∨ 6 < n ∨ seconds < 1 ∨ 600 < seconds) :
    hlmLaneTest who n seconds h = answerTo who .range [] h := by
  unfold hlmLaneTest
  split
  · rfl
  · next l lane =>
    have known : lane? n ≠ none := by rw [lane]; simp
    rw [ne_eq, lane?_none] at known
    exact if_neg (by omega)

/-- A new test is told with the change of its lane, and nothing else follows from it. -/
theorem testing_told (l : LaneId) (seconds : Nat) (h : Hub) :
    (h.testing l seconds).Told (tellTest l.link (settleLink h l.link l.side (h.testing l seconds))) := by
  have test : (h.testing l seconds).hlm.tests.get l.link = some (TestRec.start l.side seconds) :=
    (Hub.setTest_tests ..).trans (if_pos rfl)
  refine Hub.Told.trans (settleLink_still (resumeTest_unsuspended fun x e => ?_) ?_ l.side) (tellTest_told ..)
  · rw [test] at e
    obtain rfl := Option.some.inj e
    simp [TestRec.start]
  · rw [Hub.testing, Hub.setLane_link]
    rfl

end

/-- LANE_TEST by a requester that may name the lane (R102). -/
theorem laneTest_requested {who : Requester} {tag : Byte} {l : LaneId} {seconds : Nat} {s : State} (free : Free who s.hub)
    (low : 1 ≤ seconds) (high : seconds ≤ 600) (owner : who = .panel ∨ who = l.link.req) :
    let call := Call.laneTest (LaneId.num l) seconds
    let k := s.hub.links.get l.link
    let ready := k.state = .up ∧ k.provisional = false ∧ (s.hub.lane l).state = .ready
    let result := exec (.laneTest who tag (LaneId.num l) seconds) s
    ((∃ t, s.hub.hlm.tests.get l.link = some t ∧ (t.status = .running ∨ t.status = .suspended)) →
      result = .next (s.withHub (s.hub.answered who tag call .busy []))) ∧
    ((∀ t, s.hub.hlm.tests.get l.link = some t → t.status ≠ .running ∧ t.status ≠ .suspended) →
      (¬ready → result = .next (s.withHub (s.hub.answered who tag call .notReady []))) ∧
      (ready → ∃ t, result = .next t ∧
        t.hub.hlm.tests.get l.link = some ⟨l.side, seconds * 48000, 0, 0, 0, true, .running⟩ ∧
        t.hub.lane l = { s.hub.lane l with state := .testing, qualifyDue := false } ∧
        t.hub.lane (otherLane l) = s.hub.lane (otherLane l) ∧
        (t.hub.links.get l.link).activeLane = k.activeLane ∧ t.hub.hlm.health = s.hub.hlm.health ∧
        t.hub.mon = s.hub.mon ∧ t.hub.arb = s.hub.arb ∧
        t.hub.answerOf who = some ⟨0x16#8, tag, (s.hub.req.queues.get who).discarded, .done, []⟩)) := by
  intro call k ready result
  let h := s.hub.taken who tag call
  obtain ⟨-, -, arb, links, hlm, mon, -⟩ := Hub.taken_other s.hub who tag call
  have owned := hlmLaneTest_owned (h := h) low high (ownsLink_iff.2 owner)
  have answered {code : Code} (e : hlmLaneTest who (LaneId.num l) seconds h = answerTo who code [] h) :
      result = .next (s.withHub (s.hub.answered who tag call code [])) :=
    exec_answered (c := call) rfl free rfl (.inl rfl) e
  have lane (m : LaneId) : h.lane m = s.hub.lane m := by rw [Hub.lane, links]; rfl
  have progress : testInProgress h l.link = true ↔
      ∃ t, s.hub.hlm.tests.get l.link = some t ∧ (t.status = .running ∨ t.status = .suspended) := by
    rw [testInProgress_iff, hlm]
  have ready_iff : testReady h l = true ↔ ready := by rw [testReady_iff, lane, links]
  refine ⟨fun busy => answered (owned.trans (if_pos (progress.2 busy))), fun ended => ?_⟩
  have idle : ¬testInProgress h l.link = true := by
    rw [progress]
    rintro ⟨t, test, running | suspended⟩
    · exact (ended t test).1 running
    · exact (ended t test).2 suspended
  refine ⟨fun unready => answered (owned.trans ((if_neg idle).trans (if_neg (mt ready_iff.1 unready)))), fun isReady => ?_⟩
  let m := tellTest l.link (settleLink h l.link l.side (h.testing l seconds))
  let t := answerTo who .done [] m
  have event : result = .next (s.withHub t) :=
    (exec_request (c := call) rfl free rfl (.inl rfl)).trans (congrArg (fun k => Host.Outcome.next (s.withHub k))
      (owned.trans ((if_neg idle).trans (if_pos (ready_iff.2 isReady)))))
  have told : (h.testing l seconds).Told m := testing_told l seconds h
  obtain ⟨-, -, tarb, tlinks, thlm, tmon, -⟩ := Hub.core_eq ((answerTo_core who .done [] m).trans told.core)
  have tlane (x : LaneId) : t.lane x = if x = l then { h.lane l with state := .testing, qualifyDue := false } else h.lane x := by
    rw [Hub.lane, tlinks]
    exact Hub.setLane_lane ..
  refine ⟨s.withHub t, event, ?_, (tlane l).trans ((if_pos rfl).trans (by rw [lane])),
    (tlane _).trans ((if_neg (otherLane_ne l)).trans (lane _)), ?_, ?_, tmon.trans mon, tarb.trans arb,
    answerTo_taken (c := call) (by rw [told.queues]; rfl) ..⟩
  · rw [thlm]
    exact (Hub.setTest_tests ..).trans (if_pos rfl)
  · rw [tlinks, Hub.testing, Hub.setLane_link]
    show (h.links.get l.link).activeLane = _
    rw [links]
  · rw [thlm]
    show h.hlm.health = _
    rw [hlm]

/-! ## LANE_TEST_STOP (R106) -/

section
variable {who : Requester} {d : Desk} {h : Hub}

theorem hlmLaneTestStop_denied (denied : ownsLink who d = false) :
    hlmLaneTestStop who (Desk.num d) h = answerTo who .denied [] h := by
  simp [hlmLaneTestStop, denied]

theorem hlmLaneTestStop_range {n : Nat} (range : n < 1 ∨ 3 < n) : hlmLaneTestStop who n h = answerTo who .range [] h := by
  simp only [hlmLaneTestStop, desk?_none.2 range]

/-- A test in progress that has not counted its length is aborted. -/
theorem hlmLaneTestStop_done {t : TestRec} (owns : ownsLink who d = true) (test : h.hlm.tests.get d = some t)
    (going : t.status = .suspended ∨ t.status = .running ∧ t.framesDone < t.length) :
    hlmLaneTestStop who (Desk.num d) h = answerTo who .done [] (setTestStatus d t .aborted h) := by
  have short : testComplete d h = h := testComplete_idle fun x e running => by
    obtain rfl := Option.some.inj (test.symm.trans e)
    rcases going with suspended | ⟨-, short⟩
    · rw [running] at suspended; cases suspended
    · exact short
  have progress : t.inProgress = true := TestRec.inProgress_iff.2 (by tauto)
  unfold hlmLaneTestStop
  simp only [desk?_num, owns, if_true, short, test, progress]

theorem hlmLaneTestStop_notReady (owns : ownsLink who d = true)
    (ended : ∀ t, h.hlm.tests.get d = some t → t.status ≠ .running ∧ t.status ≠ .suspended) :
    hlmLaneTestStop who (Desk.num d) h = answerTo who .notReady [] h := by
  have short : testComplete d h = h := testComplete_idle fun x e running => absurd running (ended x e).1
  unfold hlmLaneTestStop
  simp only [desk?_num, owns, if_true, short]
  split
  · rfl
  · next t test =>
    obtain ⟨stopped, unsuspended⟩ := ended t test
    exact if_neg fun progress => (TestRec.inProgress_iff.1 progress).elim stopped unsuspended

/-- A test that has counted its length ends by its outcome (R104). -/
theorem testComplete_due {t : TestRec} (test : h.hlm.tests.get d = some t) (running : t.status = .running)
    (counted : t.length ≤ t.framesDone) : testComplete d h = setTestStatus d t t.outcome h := by
  unfold testComplete
  simp only [test]
  exact if_pos (by simp [TestRec.complete, running, counted])

end

end Sys2Proof.Machine
end

/-!
Lane tests (R84, R89, R103 to R108): the results of the tested lane, the faults of the tested and of the active lane, the
resumption of a suspended test, and the return of a lane whose test has ended.
-/
section
namespace Sys2Proof.Machine

/-! ## Results of the tested lane (R103) -/

section
variable {l : LaneId} {h : Hub} {x : TestRec}

/-- The result of a TESTING lane: the frame with the number due, PATTERN or AUDIO, or none. -/
def testedResult (due : Frame) (f : Option UpFrame) : Option UpFrame := f.filter fun g => decide (g.number = due)

theorem countingTest_some (test : h.hlm.tests.get l.link = some x) (running : x.status = .running) (lane : x.lane = l.side)
    (short : x.framesDone < x.length) : countingTest l h = some x := by
  simp [countingTest, test, running, lane, short]

/-- A result of the tested lane counts one frame of its test (R103). -/
theorem hlmResult_tested (test : h.hlm.tests.get l.link = some x) (running : x.status = .running) (lane : x.lane = l.side)
    (short : x.framesDone < x.length) (f : Option UpFrame) : hlmResult l f h =
      countHealth l ⟨if f.isSome then 0 else 1, 0, 0, 0, patternJudge x.leadIn f⟩ (h.setTest l.link (some (x.count f))) := by
  simp only [hlmResult, countingTest_some test running lane short]

theorem testingReturns_running (test : h.hlm.tests.get l.link = some x) (running : x.status = .running) (lane : x.lane = l.side)
    (f : UpFrame) : testingReturns l f h = h := by
  simp [testingReturns, Hlm.testRunningOn, test, running, lane]

theorem LaneRec.isGood_testing {r : LaneRec} {due : Frame} {f : UpFrame} (testing : r.state = .testing) :
    r.isGood due f = decide (f.number = due) := by
  simp [LaneRec.isGood, testing]

/-- A frame on a TESTING lane: PATTERN and AUDIO frames are good results alike (R69). -/
theorem receive_testing {lat : Frame} (sync : (h.lane l).latency = some lat) (testing : (h.lane l).state = .testing)
    (f : Option UpFrame) : receive l f h =
      match testedResult (h.now - lat) f with
      | none => badResult l (h.now - lat) (h.setLane l ((h.lane l).noted f))
      | some g => goodResult l (h.now - lat) g (h.setLane l ((h.lane l).noted f)) := by
  rw [receive_sync sync]
  cases f with
  | none => rfl
  | some g =>
    dsimp only
    rw [LaneRec.isGood_testing (show ((h.lane l).noted (some g)).state = .testing from testing)]
    by_cases number : g.number = h.now - lat <;> simp [testedResult, Option.filter, number]

/-- What a frame on the tested lane leaves, the lane not serving its link. -/
theorem receive_tested {lat : Frame} (sync : (h.lane l).latency = some lat) (testing : (h.lane l).state = .testing)
    (idle : h.isActive l = false) (test : h.hlm.tests.get l.link = some x) (running : x.status = .running)
    (lane : x.lane = l.side) (short : x.framesDone < x.length) {f res : Option UpFrame}
    (result : testedResult (h.now - lat) f = res) :
    ∃ r : LaneRec, r.state = .testing ∧ (((h.setLane l r).setTest l.link (some (x.count res))).counted l
      ⟨if res.isSome then 0 else 1, 0, 0, 0, patternJudge x.leadIn res⟩).Told (receive l f h) := by
  have judged (r : LaneRec) : (((h.setLane l r).setTest l.link (some (x.count res))).counted l
      ⟨if res.isSome then 0 else 1, 0, 0, 0, patternJudge x.leadIn res⟩).Told (hlmResult l res (h.setLane l r)) := by
    have still : ((h.setLane l r).setTest l.link (some (x.count res))).isActive l = false :=
      (h.marked_setLane l r).active.trans idle
    rw [hlmResult_tested (h := h.setLane l r) test running lane short]
    exact countHealth_idle still _
  have noted : ((h.setLane l ((h.lane l).noted f)).lane l) = (h.lane l).noted f := (Hub.setLane_lane ..).trans (if_pos rfl)
  rw [receive_testing sync testing, result]
  cases res with
  | none =>
    dsimp only
    rw [badResult, Hub.setLane_setLane]
    exact ⟨_, by rw [noted]; exact testing, judged _⟩
  | some g =>
    dsimp only
    rw [goodResult, Hub.setLane_setLane, testingReturns_running (h := h.setLane l _) test running lane]
    exact ⟨_, by rw [noted]; exact testing, judged _⟩

/-- A frame on the tested lane: the test's record, the lane's counters, and the rest as it was (R94, R103). -/
theorem testedFrame_counts {bytes : List Byte} {lat : Frame} {s : State} (early : (s.hub.lane l).arrived = false)
    (sync : (s.hub.lane l).latency = some lat) (testing : (s.hub.lane l).state = .testing)
    (unserved : (s.hub.links.get l.link).activeLane ≠ some l.side) (test : s.hub.hlm.tests.get l.link = some x)
    (lane : x.lane = l.side) (running : x.status = .running) (short : x.framesDone < x.length) {res : Option UpFrame}
    (result : testedResult (s.hub.now - lat) (parseUp bytes) = res) :
    let counts := (laneGet s.hub.hlm.health l).counters
    ∃ t, exec (.upstreamFrame l bytes) s = .next t ∧ t.hub.hlm.tests.get l.link = some (x.count res) ∧
      (laneGet t.hub.hlm.health l).counters.testErrors = min 65535 (counts.testErrors + patternJudge x.leadIn res) ∧
      (laneGet t.hub.hlm.health l).counters.crcErrors = min 65535 (counts.crcErrors + if res.isSome then 0 else 1) ∧
      (t.hub.lane l).state = .testing ∧
      (t.hub.links.get l.link).activeLane = (s.hub.links.get l.link).activeLane ∧ t.hub.arb = s.hub.arb ∧
      t.hub.mon = s.hub.mon ∧ t.hub.pcu = s.hub.pcu ∧ t.hub.tbk = s.hub.tbk := by
  have idle : s.hub.isActive l = false := Bool.eq_false_iff.2 fun serves => unserved (Hub.isActive_iff.1 serves).2
  obtain ⟨r, still, told⟩ := receive_tested sync testing idle test running lane short result
  let t := receive l (parseUp bytes) s.hub
  obtain ⟨-, pcu, arb, links, hlm, mon, tbk, -⟩ := Hub.core_eq told.core
  have link : t.links.get l.link = (s.hub.links.get l.link).withLane l.side r := by
    rw [links]; exact Hub.setLane_link ..
  have health : laneGet t.hlm.health l = (laneGet s.hub.hlm.health l).counted s.hub.sto.install.thresholds
      ⟨if res.isSome then 0 else 1, 0, 0, 0, patternJudge x.leadIn res⟩ := by
    rw [hlm]; exact (Hub.setHealth_health ..).trans (if_pos rfl)
  refine ⟨s.withHub t, congrArg (fun h => Host.Outcome.next (s.withHub h)) (upstreamFrame_receive early bytes), ?_,
    by rw [health]; rfl, by rw [health]; rfl, ?_, by rw [link]; rfl, arb, mon, pcu, tbk⟩
  · rw [hlm]
    exact (Hub.setTest_tests ..).trans (if_pos rfl)
  · rw [Hub.lane, link, Link.withLane_lane, if_pos rfl, still]

end

/-! ## Faults beside a test (R105, R107) -/

section
variable {l : LaneId} {h : Hub} {x : TestRec}

theorem faultTest_failed (test : h.hlm.tests.get l.link = some x) (running : x.status = .running) (lane : x.lane = l.side)
    (active : Bool) : faultTest l active h = setTestStatus l.link x .failed h := by
  simp [faultTest, test, running, lane]

theorem faultTest_suspended (test : h.hlm.tests.get l.link = some x) (running : x.status = .running)
    (lane : x.lane = l.side.other) : faultTest l true h = suspendTest l.link x h := by
  simp [faultTest, test, running, lane]

/-- The fault of a tested lane, or of the active lane beside a tested one whose frame of the period is there. -/
theorem Hub.Undisturbed.of_running (test : h.hlm.tests.get l.link = some x) (running : x.status = .running)
    (short : x.framesDone < x.length)
    (arrived : h.isActive l = true → (h.lane (otherLane l)).arrived = true) : h.Undisturbed l := by
  refine ⟨?_, fun y e _ => ?_, fun y e => ?_⟩
  · unfold recordTested
    split
    · next tested =>
      rw [Bool.and_eq_true] at tested
      exact missingFrame_arrived (arrived tested.1)
    · rfl
  · obtain rfl := Option.some.inj (test.symm.trans e); exact short
  · obtain rfl := Option.some.inj (test.symm.trans e); simp [running]

/-- LIGHT_LOSS of a lane with its link's frames there and no frame loss due is the fault alone (R67). -/
theorem lightLoss_framed (light : (h.lane l).light = true) (arrived : (h.lane l).arrived = true)
    (partner : (h.lane (otherLane l)).arrived = true) (few : (h.lane l).badRun < 8) (lit : (h.lane l).state ≠ .dark) :
    lightLoss l h = laneFault l .lightLoss .dark (h.setLane l { h.lane l with light := false }) := by
  unfold lightLoss
  rw [if_pos light, recordLink_partner partner, missingFrame_arrived arrived, frameLoss_not_due fun due => by omega]
  exact if_neg (by simpa [setLight] using lit)

/-- The fault of the tested lane ends its test FAILED (R105). -/
theorem laneFault_failed {b : Hub} {cause : FaultCause} {st : LaneState} (marked : b.Marked l h) (left : st ≠ .active)
    (unserved : (b.links.get l.link).activeLane ≠ some l.side) (test : b.hlm.tests.get l.link = some x)
    (running : x.status = .running) (short : x.framesDone < x.length) (lane : x.lane = l.side) :
    let t := laneFault l cause st h
    t.hlm.tests.get l.link = some { x with status := .failed } ∧
      (laneGet t.hlm.health l).capture = some ⟨cause, b.now, (h.lane l).state⟩ ∧ (t.lane l).state = st ∧
      (t.lane l).latency = none ∧ (t.links.get l.link).state = (b.links.get l.link).state ∧
      (t.links.get l.link).activeLane = (b.links.get l.link).activeLane ∧ t.arb = b.arb ∧ t.mon = b.mon ∧ t.pcu = b.pcu := by
  intro t
  have idleB : b.isActive l = false := Bool.eq_false_iff.2 fun serves => unserved (Hub.isActive_iff.1 serves).2
  have idle : h.isActive l = false := marked.active.trans idleB
  have testH : h.hlm.tests.get l.link = some x := by rw [marked.tests]; exact test
  obtain ⟨k, event, fares, -, klane, health⟩ := laneFault_captured (cause := cause)
    (Hub.Undisturbed.of_running testH running short fun active => by rw [idle] at active; cases active) left
  have kept : b.Marked l k := marked.trans (fares.marked idle)
  have told : (k.setTest l.link (some { x with status := .failed })).Told t := by
    rw [show t = faultTest l (h.isActive l) k from event, faultTest_failed (by rw [kept.tests]; exact test) running lane]
    exact setTestStatus_told ..
  obtain ⟨-, pcu, arb, links, hlm, mon, -⟩ := Hub.core_eq told.core
  have own : t.lane l = (h.lane l).outOfSync st := (told.lane l).trans klane
  have link : t.links.get l.link = (b.links.get l.link).withLane l.side (k.lane l) := by rw [links]; exact kept.link
  refine ⟨by rw [hlm]; exact (Hub.setTest_tests ..).trans (if_pos rfl), ?_, by rw [own]; rfl, by rw [own]; rfl, by rw [link]; rfl,
    by rw [link]; rfl, arb.trans kept.arb, mon.trans kept.mon, pcu.trans kept.pcu⟩
  rw [hlm, ← marked.now]
  exact congrArg Health.capture health

/-- The fault of the active lane suspends the test of the other lane, and takes the link to HOLDOVER (R83, R107). -/
theorem laneFault_suspended {b : Hub} {cause : FaultCause} {st : LaneState} (marked : b.Marked l h) (left : st ≠ .active)
    (serves : b.isActive l = true) (testing : (b.lane (otherLane l)).state = .testing)
    (arrived : (b.lane (otherLane l)).arrived = true) (test : b.hlm.tests.get l.link = some x) (running : x.status = .running)
    (short : x.framesDone < x.length) (lane : x.lane = l.side.other) :
    let t := laneFault l cause st h
    t.hlm.tests.get l.link = some { x with status := .suspended } ∧
      (laneGet t.hlm.health l).capture = some ⟨cause, b.now, (h.lane l).state⟩ ∧
      (laneGet t.hlm.health (otherLane l)).capture = some ⟨.testSuspend, b.now, .testing⟩ ∧
      (t.lane l).state = st ∧ (t.lane l).latency = none ∧ t.lane (otherLane l) = b.lane (otherLane l) ∧
      (t.links.get l.link).state = .holdover ∧ t.hlm.testRunningOn (otherLane l) = false ∧ t.arb = b.arb ∧ t.pcu = b.pcu := by
  intro t
  have active : h.isActive l = true := marked.active.trans serves
  have testH : h.hlm.tests.get l.link = some x := by rw [marked.tests]; exact test
  obtain ⟨k, event, fares, idle, klane, health⟩ := laneFault_captured (cause := cause)
    (Hub.Undisturbed.of_running testH running short fun _ => by rw [marked.partner]; exact arrived) left
  have lost : b.Lost l k := marked.lost (fares.lost active idle)
  let c := writeCapture ⟨l.link, x.lane⟩ ⟨.testSuspend, k.now, .testing⟩ k
  have told : (c.setTest l.link (some { x with status := .suspended })).Told t := by
    rw [show t = faultTest l (h.isActive l) k from event, active,
      faultTest_suspended (by rw [lost.tests]; exact test) running lane]
    exact setTestStatus_told ..
  obtain ⟨-, pcu, arb, links, hlm, -⟩ := Hub.core_eq told.core
  have own : t.lane l = (h.lane l).outOfSync st := (told.lane l).trans klane
  have alone : ¬((b.links.get l.link).lane l.side.other).standsBy := by
    rw [← Hub.lane_other]
    rintro (e | e) <;> rw [testing] at e <;> cases e
  have link : t.links.get l.link = k.links.get l.link := by rw [links]; rfl
  have held := lost.link
  rw [Link.respond_held _ _ alone] at held
  have captured (m : LaneId) : laneGet t.hlm.health m = if m = otherLane l then
      { laneGet k.hlm.health (otherLane l) with capture := some ⟨.testSuspend, k.now, .testing⟩ } else laneGet k.hlm.health m := by
    rw [hlm, show otherLane l = ⟨l.link, x.lane⟩ by rw [lane]; rfl]
    exact Hub.setHealth_health ..
  have suspended : t.hlm.tests.get l.link = some { x with status := .suspended } := by
    rw [hlm]; exact (Hub.setTest_tests ..).trans (if_pos rfl)
  refine ⟨suspended, ?_, ?_, by rw [own]; rfl, by rw [own]; rfl, ?_, by rw [link, held]; rfl, ?_, arb.trans lost.arb,
    pcu.trans lost.pcu⟩
  · rw [captured, if_neg (otherLane_ne l).symm, health, ← marked.now]
    rfl
  · rw [captured, if_pos rfl, lost.now]
  · rw [Hub.lane_other, link, held, Link.withLane_partner]
    rfl
  · have stopped : t.hlm.tests.get (otherLane l).link = some { x with status := .suspended } := suspended
    simp [Hlm.testRunningOn, stopped]

end

/-! ## Resumption (R108) -/

theorem resumeTest_some {d : Desk} {h : Hub} {x : TestRec} (test : h.hlm.tests.get d = some x)
    (can : resumable (h.links.get d) x = true) : resumeTest d h =
      some ((h.setTest d (some { x with status := .running, leadIn := true })).setLane ⟨d, x.lane⟩
        { h.lane ⟨d, x.lane⟩ with state := .testing, qualifyDue := false }) := by
  unfold resumeTest
  simp only [test, can, if_true]

/-- A change of a link that stays in its state and resumes its test is told, and nothing else follows from it. -/
theorem settleLink_resumed {b h k : Hub} {d : Desk} (resumes : resumeTest d h = some k)
    (state : (k.links.get d).state = (b.links.get d).state) (first : Side) : k.Told (settleLink b d first h) := by
  have told : k.Told (tellTest d (tellLink b d first k)) := (tellLink_told ..).trans (tellTest_told ..)
  have settled : settleLink b d first h = linkEvent (b.links.get d).state d (tellTest d (tellLink b d first k)) := by
    unfold settleLink
    rw [resumes]
    rfl
  rw [settled, linkEvent_same (by rw [told.links, state])]
  exact told

/-- The lane that is READY again beside a qualified active lane goes on with its test (R108). -/
theorem qualificationComplete_resumes {l : LaneId} {h : Hub} {x : TestRec} (test : h.hlm.tests.get l.link = some x)
    (suspended : x.status = .suspended) (lane : x.lane = l.side) (up : (h.links.get l.link).state = .up)
    (qualifying : (h.lane l).state = .qualifying) (due : (h.lane l).qualifyDue = true)
    (active : (h.lane (otherLane l)).state = .active) (qualified : (h.lane (otherLane l)).qualified = true) :
    ((h.setTest l.link (some { x with status := .running, leadIn := true })).setLane l
      { h.lane l with state := .testing, qualified := true, qualifyDue := false }).Told (qualificationComplete l h) := by
  let r : LaneRec := { h.lane l with state := .ready, qualified := true, qualifyDue := false }
  have link : (h.setLane l r).links.get l.link = (h.links.get l.link).withLane l.side r := Hub.setLane_link ..
  have own : (h.setLane l r).lane l = r := (Hub.setLane_lane ..).trans (if_pos rfl)
  have can : resumable ((h.setLane l r).links.get l.link) x = true := by
    have mine : ((h.links.get l.link).withLane l.side r).lane l.side = r := (Link.withLane_lane ..).trans (if_pos rfl)
    rw [link, resumable, lane, mine, Link.withLane_partner]
    exact decide_eq_true ⟨suspended, rfl, active, qualified⟩
  have resumes : resumeTest l.link (h.setLane l r) =
      some ((h.setTest l.link (some { x with status := .running, leadIn := true })).setLane l
        { h.lane l with state := .testing, qualified := true, qualifyDue := false }) := by
    have tested : (⟨l.link, x.lane⟩ : LaneId) = l := by rw [lane]
    rw [resumeTest_some (h := h.setLane l r) test can, tested, own]
    exact congrArg some (Hub.setLane_setLane (h.setTest l.link (some { x with status := .running, leadIn := true })) l r _)
  rw [qualificationComplete_eq due (LaneRec.counting_qualifying qualifying), if_neg (by simp [qualifying]), if_pos up]
  exact settleLink_resumed resumes (by rw [Hub.setLane_link]; rfl) l.side

/-! ## The return of a lane whose test has ended (R84, R89) -/

section
variable {l : LaneId} {h : Hub}

theorem countingTest_none (ended : h.hlm.testRunningOn l = false) : countingTest l h = none := by
  unfold countingTest
  split
  · rfl
  · next t test =>
    refine if_neg ?_
    rintro ⟨running, lane, -⟩
    simp [Hlm.testRunningOn, test, running, lane] at ended

theorem hlmResult_ended (ended : h.hlm.testRunningOn l = false) (f : UpFrame) : hlmResult l (some f) h = h := by
  simp [hlmResult, countingTest_none ended]

/-- A TESTING lane that returns to qualification (R89). -/
def LaneRec.returned (r : LaneRec) : LaneRec :=
  { r with state := .qualifying, qualified := false, qualifyCount := 0, qualifyDue := false }

section
variable {f : UpFrame} (testing : (h.lane l).state = .testing) (ended : h.hlm.testRunningOn l = false) (audio : f.pattern = false)
include testing ended audio

theorem testingReturns_link (still : (h.links.get l.link).state ≠ .holdover) :
    testingReturns l f h = settleLink h l.link l.side (h.setLane l (h.lane l).returned) := by
  have link : ((h.setLane l (h.lane l).returned).links.get l.link).state = (h.links.get l.link).state := by
    rw [Hub.setLane_link]; rfl
  unfold testingReturns
  refine (if_pos ⟨testing, ended, audio⟩).trans ?_
  dsimp only
  split
  · next held _ => exact absurd (link.symm.trans held) still
  · rfl

/-- The return brings a link back from HOLDOVER (R84). -/
theorem testingReturns_held {lat : Frame} (sync : (h.lane l).latency = some lat)
    (held : (h.links.get l.link).state = .holdover) : testingReturns l f h = settleLink h l.link l.side (h.setLink l.link
      (((h.links.get l.link).withLane l.side (h.lane l).returned).enterUp h.now l.side lat false)) := by
  have link : (h.setLane l (h.lane l).returned).links.get l.link = (h.links.get l.link).withLane l.side (h.lane l).returned :=
    Hub.setLane_link ..
  unfold testingReturns
  refine (if_pos ⟨testing, ended, audio⟩).trans ?_
  dsimp only
  split
  · next x _ latency =>
    obtain rfl : x = lat := Option.some.inj (latency.symm.trans sync)
    rw [← LaneRec.returned, link, Hub.setLane_eq, Hub.setLink_setLink]
  · next other => exact absurd sync (other lat (congrArg Link.state link |>.trans held))

end

end

end Sys2Proof.Machine
end

/-!
The return of a TESTING lane whose test has ended (R84, R89), and the lane tests as a whole.
-/
section
namespace Sys2Proof.Machine

section
variable {l : LaneId} {h : Hub} {f : UpFrame}

/-- The lane that returns with an AUDIO frame of the number due. -/
def LaneRec.returnedWith (r : LaneRec) (f : UpFrame) : LaneRec :=
  { r with
    arrived := true, rx := some f, badRun := 0
    buffer := (r.buffer.filter fun g => decide ((f.number - g.number).toNat < 32)) ++ [f]
    state := .qualifying, qualified := false, qualifyCount := 0, qualifyDue := false }

/-- The good result of a TESTING lane comes before its return. -/
theorem receive_returns {lat : Frame} (sync : (h.lane l).latency = some lat) (testing : (h.lane l).state = .testing)
    (number : f.number = h.now - lat) : ∃ r : LaneRec, r.state = .testing ∧ r.latency = some lat ∧
      r.returned = (h.lane l).returnedWith f ∧ receive l (some f) h = hlmResult l (some f) (testingReturns l f (h.setLane l r)) := by
  have good : testedResult (h.now - lat) (some f) = some f := by simp [testedResult, Option.filter, number]
  have noted : (h.setLane l ((h.lane l).noted (some f))).lane l = (h.lane l).noted (some f) :=
    (Hub.setLane_lane ..).trans (if_pos rfl)
  rw [receive_testing sync testing, good, ← number]
  dsimp only
  rw [goodResult, Hub.setLane_setLane, noted]
  exact ⟨((h.lane l).noted (some f)).good f.number f _ _, testing, sync, rfl, rfl⟩

section
variable {lat : Frame} (sync : (h.lane l).latency = some lat) (testing : (h.lane l).state = .testing)
  (ended : h.hlm.testRunningOn l = false) (number : f.number = h.now - lat) (audio : f.pattern = false)
include sync testing ended number audio

/-- A lane that returns to QUALIFYING on a link that is not in HOLDOVER (R89). -/
theorem receive_returns_link (still : (h.links.get l.link).state ≠ .holdover) : receive l (some f) h =
    notifyDeskPanel l.link (.laneState l .qualifying false (h.links.get l.link).skew)
      (h.setLane l ((h.lane l).returnedWith f)) := by
  obtain ⟨r, state, latency, returned, event⟩ := receive_returns sync testing number
  let b := h.setLane l r
  have own : b.lane l = r := (Hub.setLane_lane ..).trans (if_pos rfl)
  have record : b.setLane l r.returned = h.setLane l ((h.lane l).returnedWith f) := by rw [Hub.setLane_setLane, returned]
  have link : (b.setLane l r.returned).links.get l.link = (h.links.get l.link).withLane l.side ((h.lane l).returnedWith f) := by
    rw [record, Hub.setLane_link]
  have plain : resumeTest l.link (b.setLane l r.returned) = none := resumeTest_none fun side => by
    rw [link]
    rcases Side.eq_or_other side l.side with rfl | rfl
    · left; simp [Link.withLane_lane, LaneRec.returnedWith]
    · right; left; simp [Link.withLane_lane, LaneRec.returnedWith]
  have told : testingReturns l f b = notifyDeskPanel l.link (.laneState l .qualifying false (h.links.get l.link).skew)
      (h.setLane l ((h.lane l).returnedWith f)) := by
    rw [testingReturns_link (h := b) (by rw [own]; exact state) ended audio (by rw [Hub.setLane_link]; exact still), own,
      settleLink_setLane (.inl (by rw [own, state]; simp [LaneRec.returned])) plain, link, record,
      Link.skew_withLane (by exact rfl)]
    rfl
  have kept := congrArg Core.hlm (notifyDeskPanel_told l.link (.laneState l .qualifying false (h.links.get l.link).skew)
    (h.setLane l ((h.lane l).returnedWith f))).core
  rw [event, told]
  exact hlmResult_ended ((congrArg (Hlm.testRunningOn · l) kept).trans ended) f

/-- A lane that brings its link back from HOLDOVER (R84). -/
theorem receive_returns_held (held : (h.links.get l.link).state = .holdover) :
    ∃ b : Hub, (∃ r, b = h.setLane l r) ∧ b.CameUp l
      (((h.links.get l.link).withLane l.side ((h.lane l).returnedWith f)).enterUp h.now l.side lat false)
      (receive l (some f) h) := by
  obtain ⟨r, state, latency, returned, event⟩ := receive_returns sync testing number
  let b := h.setLane l r
  let k := ((h.links.get l.link).withLane l.side ((h.lane l).returnedWith f)).enterUp h.now l.side lat false
  have own : b.lane l = r := (Hub.setLane_lane ..).trans (if_pos rfl)
  have blink : b.links.get l.link = (h.links.get l.link).withLane l.side r := Hub.setLane_link ..
  have bheld : (b.links.get l.link).state = .holdover := by rw [blink]; exact held
  have mine : (k.lane l.side).state = .active ∧ (k.lane l.side).qualified = false := by
    simp [k, Link.enterUp_lane]
  have partner : k.lane l.side.other = b.lane (otherLane l) := by
    simp [k, Link.enterUp_lane, Link.withLane_partner, Hub.lane_other, blink]
  have plain : resumeTest l.link (b.setLink l.link k) = none := resumeTest_none fun side => by
    rw [Hub.setLink_links, if_pos rfl]
    rcases Side.eq_or_other side l.side with rfl | rfl
    · left; simp [mine]
    · right; right; simp [mine]
  have came : b.CameUp l k (settleLink b l.link l.side (b.setLink l.link k)) :=
    settleLink_cameUp (by rw [bheld]; simp) rfl (by rw [own, state, mine.1]; simp) partner plain
  have returns : testingReturns l f b = settleLink b l.link l.side (b.setLink l.link k) := by
    rw [testingReturns_held (h := b) (by rw [own]; exact state) ended audio (by rw [own]; exact latency) bheld, own, blink,
      Link.withLane_withLane, returned]
    rfl
  refine ⟨b, ⟨r, rfl⟩, ?_⟩
  rw [event, returns, hlmResult_ended (by rw [came.hlm bheld]; exact ended)]
  exact came

end

end

/-! ## The lane tests -/

/-- Settles O36: the requests by their checks, a result by what it counts, a fault by what it leaves of the link and its test,
the resumption and the return as changes of the link. -/
theorem laneTestsStartAndEnd : Obligations.LaneTestsStartAndEnd := by
  unfold Obligations.LaneTestsStartAndEnd
  refine ⟨fun who tag l seconds s free low high owner => laneTest_requested free low high owner, fun who tag n seconds s free => ?_,
    fun who tag d s free owner => ?_, fun l bytes lat x s early sync testing unserved test lane running short => ?_,
    fun l x s test running short => ?_, fun l x s test suspended lane up qualifying due active qualified => ?_,
    fun l bytes f lat s early sync testing ended parsed number audio => ?_⟩
  · intro tested stopped
    have test {code : Code} (e : hlmLaneTest who n seconds (s.hub.taken who tag (.laneTest n seconds)) =
        answerTo who code [] (s.hub.taken who tag (.laneTest n seconds))) : tested code :=
      exec_answered (c := .laneTest n seconds) rfl free rfl (.inl rfl) e
    have stop {code : Code} (e : hlmLaneTestStop who n (s.hub.taken who tag (.laneTestStop n)) =
        answerTo who code [] (s.hub.taken who tag (.laneTestStop n))) : stopped code :=
      exec_answered (c := .laneTestStop n) rfl free rfl (.inl rfl) e
    refine ⟨fun range => test (hlmLaneTest_range range), fun l e low high panel desk => test ?_,
      fun range => stop (hlmLaneTestStop_range range), fun d e panel desk => stop ?_⟩
    · rw [e]; exact hlmLaneTest_denied low high (ownsLink_denied panel desk)
    · rw [e]; exact hlmLaneTestStop_denied (ownsLink_denied panel desk)
  · intro tell call result
    let h := s.hub.taken who tag call
    obtain ⟨-, -, -, -, hlm, -⟩ := Hub.taken_other s.hub who tag call
    have owns : ownsLink who d = true := ownsLink_iff.2 owner
    refine ⟨fun t test going => ?_, fun ended => ?_, fun t test running counted => ?_⟩
    · have stopped : hlmLaneTestStop who (Desk.num d) h = answerTo who .done [] (tell { t with status := .aborted } h) := by
        rw [hlmLaneTestStop_done owns (by rw [hlm]; exact test) going, setTestStatus_eq]
      exact (exec_request (c := call) rfl free rfl (.inl rfl)).trans
        (congrArg (fun k => Host.Outcome.next (s.withHub k)) stopped)
    · exact exec_answered (c := call) rfl free rfl (.inl rfl) (hlmLaneTestStop_notReady owns (by rw [hlm]; exact ended))
    · refine congrArg (fun k => Host.Outcome.next (s.withHub k)) ?_
      rw [testComplete_due test running counted, setTestStatus_eq]
      rfl
  · intro counts counted behind
    have counts_ {res : Option UpFrame} (result : testedResult (s.hub.now - lat) (parseUp bytes) = res) :
        counted (x.count res) (patternJudge x.leadIn res) (if res.isSome then 0 else 1) :=
      testedFrame_counts early sync testing unserved test lane running short result
    refine ⟨fun f parsed number pattern => ?_, fun f parsed number audio => ?_, fun late => ?_⟩
    · have r := counts_ (res := some f) (by simp [parsed, testedResult, Option.filter, number])
      simpa [TestRec.count, isPattern, patternJudge, pattern] using r
    · have r := counts_ (res := some f) (by simp [parsed, testedResult, Option.filter, number])
      simpa [TestRec.count, isPattern, patternJudge, audio] using r
    · have r := counts_ (res := none) (Option.filter_eq_none_iff.2 fun f parsed => by simpa using late f parsed)
      simpa [TestRec.count, isPattern, patternJudge] using r
  · intro darkened unframed failed suspended
    refine ⟨fun testing unserved lane => ⟨?_, ?_⟩, fun active up serving lane testing => ⟨?_, ?_⟩⟩
    · rintro ⟨light, arrived, partner, few⟩
      have lost := lightLoss_framed light arrived partner few (by rw [testing]; simp)
      have r := laneFault_failed (cause := .lightLoss) (st := .dark)
        (s.hub.marked_setLane l { s.hub.lane l with light := false }) (by simp) unserved test running short lane
      rw [← lost, Hub.setLane_lane, if_pos rfl, show ({ s.hub.lane l with light := false } : LaneRec).state = _ from testing] at r
      exact ⟨s.withHub (lightLoss l s.hub), rfl, r⟩
    · rintro ⟨sync, run⟩
      have r := laneFault_failed (cause := .frameLoss) (st := .acquiring) (.refl s.hub l) (by simp) unserved test running short lane
      rw [← frameLoss_due sync run, testing] at r
      exact ⟨s.withHub (frameLoss l s.hub), rfl, r⟩
    · rintro ⟨light, arrived, partner, few⟩
      have lost := lightLoss_framed light arrived partner few (by rw [active]; simp)
      have r := laneFault_suspended (cause := .lightLoss) (st := .dark)
        (s.hub.marked_setLane l { s.hub.lane l with light := false }) (by simp) (Hub.isActive_iff.2 ⟨up, serving⟩) testing partner
        test running short lane
      rw [← lost, Hub.setLane_lane, if_pos rfl, show ({ s.hub.lane l with light := false } : LaneRec).state = _ from active] at r
      exact ⟨s.withHub (lightLoss l s.hub), rfl, r⟩
    · rintro ⟨sync, run⟩ partner
      have r := laneFault_suspended (cause := .frameLoss) (st := .acquiring) (.refl s.hub l) (by simp)
        (Hub.isActive_iff.2 ⟨up, serving⟩) testing partner test running short lane
      rw [← frameLoss_due sync run, active] at r
      exact ⟨s.withHub (frameLoss l s.hub), rfl, r⟩
  · let t := qualificationComplete l s.hub
    have told : Hub.Told _ t := qualificationComplete_resumes test suspended lane up qualifying due active qualified
    obtain ⟨-, pcu, arb, -, hlm, mon, -⟩ := Hub.core_eq told.core
    have resumed : t.hlm.tests.get l.link = some { x with status := .running, leadIn := true } := by
      rw [hlm]; exact (Hub.setTest_tests ..).trans (if_pos rfl)
    refine ⟨s.withHub t, rfl, resumed, (told.lane l).trans ((Hub.setLane_lane ..).trans (if_pos rfl)),
      (told.lane _).trans ((Hub.setLane_lane ..).trans (if_neg (otherLane_ne l))), ?_, arb, mon, pcu⟩
    simp [Hlm.testRunningOn, resumed, lane]
  · intro k back
    have event {t : Hub} (e : receive l (some f) s.hub = t) : exec (.upstreamFrame l bytes) s = .next (s.withHub t) :=
      congrArg (fun h => Host.Outcome.next (s.withHub h)) ((upstreamFrame_receive early bytes).trans (by rw [parsed]; exact e))
    refine ⟨fun still => event (receive_returns_link sync testing ended number audio still), fun held => ?_⟩
    obtain ⟨b, ⟨r, rfl⟩, came⟩ := receive_returns_held sync testing ended number audio held
    let k1 := (k.withLane l.side back).enterUp s.hub.now l.side lat false
    let t := receive l (some f) s.hub
    obtain ⟨link, others⟩ := came.link
    have tlink : t.links.get l.link = k1 := link
    have bheld : ((s.hub.setLane l r).links.get l.link).state = .holdover := by rw [Hub.setLane_link]; exact held
    have state : (k.withLane l.side back).state ≠ .down := by
      show k.state ≠ .down
      rw [held]; simp
    refine ⟨s.withHub t, event rfl, ?_, ?_, by rw [tlink]; rfl, by rw [tlink]; rfl, by rw [tlink]; rfl, by rw [tlink]; rfl, ?_,
      by rw [tlink]; rfl, by rw [tlink]; exact if_neg state, by rw [tlink]; exact if_neg state, fun d ne => ?_, came.hlm bheld,
      came.pcu, came.tbk⟩
    · rw [Hub.lane, tlink]
      simp [k1, Link.enterUp_lane, Link.withLane_lane, back]
    · rw [Hub.lane_other, tlink]
      simp [k1, Link.enterUp_lane, Link.withLane_partner, Hub.lane_other, k]
    · rw [tlink, number]
      exact congrArg some (by bv_omega)
    · exact (others d ne).trans ((Hub.setLane_links ..).trans (if_neg ne))

end Sys2Proof.Machine
end

/-!
POWER_ON_RESET and the health records (R95, R110, R178): HLM as power-on sets it, and the notices the panel is sent, none
of them a HEALTH_VERDICT.
-/
section
namespace Sys2Proof.Machine

/-! ## What is told without a HEALTH_VERDICT -/

/-- Not a HEALTH_VERDICT (R97). -/
def Notice.Unjudging (n : Notice) : Prop := ∀ l new old c, n ≠ .healthVerdict l new old c

/-- No HEALTH_VERDICT waits for the panel. -/
def Pnl.Unjudged (p : Pnl) : Prop := ∀ n ∈ p.notices, n.notice.Unjudging

theorem Pnl.Unjudged.place {p : Pnl} (ok : p.Unjudged) {n : Notice} (other : n.Unjudging) : (p.place n).Unjudged := by
  unfold Pnl.place
  split
  · intro x mem
    rcases List.mem_append.1 mem with held | added
    · exact ok x held
    · rw [List.mem_singleton.1 added]
      exact other
  · exact ok

@[simp] theorem notifyDeskPanel_pnl (d : Desk) (n : Notice) (h : Hub) : (notifyDeskPanel d n h).pnl = h.pnl.place n := by
  simp [notifyDeskPanel, notifyPanel]

section
variable {b h : Hub} {d : Desk}

theorem tellLaneChange_unjudged (ok : h.pnl.Unjudged) (l : LaneId) : (tellLaneChange b l h).pnl.Unjudged := by
  unfold tellLaneChange
  split
  · rw [tellLane, notifyDeskPanel_pnl]
    exact ok.place nofun
  · exact ok

theorem tellLink_unjudged (ok : h.pnl.Unjudged) (first : Side) : (tellLink b d first h).pnl.Unjudged := by
  have lanes := tellLaneChange_unjudged (b := b) (tellLaneChange_unjudged (b := b) ok ⟨d, first⟩) ⟨d, first.other⟩
  unfold tellLink tellLinkChange
  dsimp only
  split
  · exact lanes
  · rw [notifyAll_pnl]
    exact lanes.place nofun

theorem tellTest_unjudged (ok : h.pnl.Unjudged) : (tellTest d h).pnl.Unjudged := by
  unfold tellTest
  split
  · exact ok
  · rw [notifyDeskPanel_pnl]
    exact ok.place nofun

/-- A test that resumes tells nothing before its lane is told of. -/
theorem resumeTest_pnl {k : Hub} (resumes : resumeTest d h = some k) : k.pnl = h.pnl := by
  unfold resumeTest at resumes
  split at resumes
  · cases resumes
  · split at resumes
    · cases resumes
      rfl
    · cases resumes

/-- A change of a link that stays in its state judges no lane: its notices are LANE_STATE, LINK_STATE and TEST_STATUS. -/
theorem settleLink_unjudged (ok : h.pnl.Unjudged) (state : (h.links.get d).state = (b.links.get d).state) (first : Side) :
    (settleLink b d first h).pnl.Unjudged := by
  cases resumes : resumeTest d h with
  | none =>
    rw [settleLink_plain resumes, linkEvent_same (by rw [(tellLink_told ..).links, state])]
    exact tellLink_unjudged ok first
  | some k =>
    have told : k.Told (tellTest d (tellLink b d first k)) := (tellLink_told ..).trans (tellTest_told ..)
    have settled : settleLink b d first h = linkEvent (b.links.get d).state d (tellTest d (tellLink b d first k)) := by
      simp only [settleLink, resumes, tellLink, Option.getD_some, Option.isSome_some, if_true]
    rw [settled, linkEvent_same (by rw [told.links, (resumeTest_quiet resumes).state, state])]
    exact tellTest_unjudged (tellLink_unjudged (by rwa [resumeTest_pnl resumes]) first)

/-- LIGHT_APPEARS judges no lane (R67). -/
theorem lightAppears_unjudged (ok : h.pnl.Unjudged) (l : LaneId) : (lightAppears l h).pnl.Unjudged := by
  by_cases light : (h.lane l).light = true
  · rw [lightAppears, if_pos light]
    exact ok
  · have unlit : (h.lane l).light = false := by simpa using light
    by_cases dark : (h.lane l).state = .dark
    · rw [lightAppears_dark unlit dark]
      refine settleLink_unjudged (h := h.setLane l _) ok ?_ l.side
      rw [Hub.setLane_link]
      rfl
    · rw [lightAppears_lit unlit dark]
      exact ok

theorem lightAtPowerOn_unjudged (ok : h.pnl.Unjudged) (pins : Pins) : (lightAtPowerOn pins h).pnl.Unjudged := by
  refine List.foldlRecOn (motive := fun k : Hub => k.pnl.Unjudged) LaneId.all _ ok fun k told l _ => ?_
  split
  · exact lightAppears_unjudged told l
  · exact told

/-- A bad region is told by STORE_STATE (R178). -/
theorem tellBadRegion_unjudged (ok : h.pnl.Unjudged) (r : RegionName) : (tellBadRegion r h).pnl.Unjudged := by
  unfold tellBadRegion
  split
  · exact ok
  · rw [notifyAll_pnl]
    exact ok.place nofun

end

/-! ## HLM and PNL after POWER_ON_RESET -/

/-- The part sends no HEALTH_VERDICT as it wakes: the panel's queue starts empty, and what follows judges no lane. -/
theorem powerOnReset_unjudged (h : Hub) (pins : Pins) (ports : PortSamples) : (powerOnReset pins ports h).pnl.Unjudged := by
  have restored : (h.restored pins ports).pnl.Unjudged := nofun
  have told := tellBadRegion_unjudged (tellBadRegion_unjudged restored .install) .showData
  obtain ⟨-, -, -, -, -, -, -, pnl, -⟩ := sendFrames_other ports (h.woken pins ports)
  rw [show powerOnReset pins ports h = sendFrames ports (h.woken pins ports) from rfl, pnl]
  exact lightAtPowerOn_unjudged told pins

/-- HLM after POWER_ON_RESET is HLM as power-on sets it (R110). -/
theorem powerOnReset_hlm (h : Hub) (pins : Pins) (ports : PortSamples) :
    (powerOnReset pins ports h).hlm = Hlm.powerOn := by
  obtain ⟨-, -, -, -, hlm, -⟩ := sendFrames_other ports (h.woken pins ports)
  exact hlm.trans (congrArg Core.hlm (h.woken_waking pins ports).1)

theorem Hlm.powerOn_health (l : LaneId) : laneGet Hlm.powerOn.health l = Health.reset := by
  obtain ⟨d, side⟩ := l
  rw [laneGet, Hlm.powerOn, PerDesk.get_of]
  cases side <;> rfl

theorem Hlm.powerOn_tests (d : Desk) : Hlm.powerOn.tests.get d = none := PerDesk.get_of ..

/-- The INSTALL settings after POWER_ON_RESET: the region's where its CRC-16 holds, else the defaults (R178, R179). -/
theorem powerOnReset_install (h : Hub) (pins : Pins) (ports : PortSamples) :
    (powerOnReset pins ports h).sto.install =
      if h.sto.installRegion.crc = InstallImage.crc h.sto.installRegion.contents
        then h.sto.installRegion.contents.settings else Install.defaults := by
  obtain ⟨-, -, -, -, -, sto, -⟩ := powerOnReset_eq h pins ports
  obtain ⟨-, -, -, -, -, restored⟩ := h.restored_fields pins ports
  rw [sto, restored, (h.sto.powerOn_fields _).1, Sto.readInstall, Region.read_eq]
  split <;> rfl

/-- Settles O4: HLM and the thresholds from the part restored, the notices one by one, and no desk being UP. -/
theorem powerOnResetClearsHealth : Obligations.PowerOnResetClearsHealth := by
  unfold Obligations.PowerOnResetClearsHealth
  intro pins ports s
  obtain ⟨-, -, -, -, -, -, -, -, desks⟩ := powerOnReset_eq s.hub pins ports
  have hlm := powerOnReset_hlm s.hub pins ports
  have install := powerOnReset_install s.hub pins ports
  refine ⟨s.withHub (powerOnReset pins ports s.hub), rfl, fun l => ?_, fun d => ?_, ?_,
    powerOnReset_unjudged s.hub pins ports, fun d => congrArg DeskPort.notices (desks d)⟩
  · exact (congrArg (fun x => laneGet x.health l) hlm).trans (Hlm.powerOn_health l)
  · exact (congrArg (fun x => x.tests.get d) hlm).trans (Hlm.powerOn_tests d)
  · exact (congrArg Install.thresholds install).trans (apply_ite ..)

end Sys2Proof.Machine
end

/-!
What the invariants of the outputs and of talk speak of (R111, R134, R135), and the operations that leave it: every operation
of the preamps, the claims, the lanes' health and tests, the panel port and the store's writes.
-/
section
namespace Sys2Proof.Machine

/-- The links that are UP, the Output Table, and the talk records, grants and their order. -/
structure Air where
  up : Desk → Bool
  outputs : Vector Output 32
  records : PerDesk (Option TalkRec)
  grants : Vector (Option Desk) 32
  order : List Desk

/-- The outputs and talk of the part. -/
def Hub.air (h : Hub) : Air := ⟨h.linkUp, h.mon.outputs, h.tbk.records, h.tbk.grants, h.tbk.order⟩

/-- The part with the outputs and talk of another but for one link, which is UP or not. -/
def Hub.Turned (b : Hub) (d : Desk) (up : Bool) (k : Hub) : Prop :=
  k.air = { b.air with up := Function.update b.linkUp d up }

/-- Nothing but the links, MON and TBK has a part in the outputs and talk. -/
theorem Hub.air_of {h k : Hub} (links : k.links = h.links) (mon : k.mon = h.mon) (tbk : k.tbk = h.tbk) : k.air = h.air := by
  unfold Hub.air
  rw [Hub.linkUp_of_links links, mon, tbk]

theorem Hub.air_of_core {h k : Hub} (e : k.core = h.core) : k.air = h.air := by
  obtain ⟨-, -, -, links, -, mon, tbk, -⟩ := Hub.core_eq e
  exact Hub.air_of links mon tbk

theorem Hub.air_of_unclaimed {h k : Hub} (e : k.unclaimed = h.unclaimed) : k.air = h.air := by
  simp only [Hub.unclaimed, Prod.mk.injEq] at e
  obtain ⟨-, -, links, -, mon, tbk, -⟩ := e
  exact Hub.air_of links mon tbk

theorem Hub.Told.air {h k : Hub} (t : h.Told k) : k.air = h.air := Hub.air_of_core t.core

/-- A sequence of operations each of which leaves the outputs and talk leaves them. -/
theorem foldl_air {α : Type} {f : Hub → α → Hub} (keeps : ∀ h x, (f h x).air = h.air) (l : List α) (h : Hub) :
    (l.foldl f h).air = h.air := by
  induction l generalizing h with
  | nil => rfl
  | cons x l ih => exact (ih _).trans (keeps h x)

/-! ## Updates of the part, notices and answers -/

@[simp] theorem Hub.air_with (h : Hub) (now : Frame) (pcu : Pcu) (arb : Arb) (hlm : Hlm) (req : Req) (pnl : Pnl) (sto : Sto)
    (down : PerDesk DownFrame) :
    Hub.air ⟨now, pcu, arb, h.links, hlm, h.mon, h.tbk, req, pnl, sto, down⟩ = h.air := rfl

theorem Hub.air_arb (h : Hub) (x : Arb) : Hub.air { h with arb := x } = h.air := rfl
theorem Hub.air_sto (h : Hub) (x : Sto) : Hub.air { h with sto := x } = h.air := rfl
@[simp] theorem Hub.air_setDesk (h : Hub) (d : Desk) (p : DeskPort) : (h.setDesk d p).air = h.air := rfl
@[simp] theorem Hub.air_setQueue (h : Hub) (r : Requester) (q : ReqQueue) : (h.setQueue r q).air = h.air := rfl
@[simp] theorem Hub.air_setHealth (h : Hub) (l : LaneId) (x : Health) : (h.setHealth l x).air = h.air := rfl
@[simp] theorem Hub.air_setTest (h : Hub) (d : Desk) (t : Option TestRec) : (h.setTest d t).air = h.air := rfl
@[simp] theorem Hub.air_taken (h : Hub) (who : Requester) (tag : Byte) (c : Call) : (h.taken who tag c).air = h.air := rfl

/-- A link's record replaced turns that link. -/
theorem Hub.setLink_turned {b h : Hub} (same : h.air = b.air) (d : Desk) (k : Link) :
    b.Turned d (decide (k.state = .up)) (h.setLink d k) := by
  have up : (h.setLink d k).linkUp = Function.update h.linkUp d (decide (k.state = .up)) := by
    funext e
    by_cases own : e = d
    · subst own; simp [Hub.linkUp]
    · simp [Hub.linkUp, own]
  have was : h.linkUp = b.linkUp := congrArg Air.up same
  have rest : (h.setLink d k).air = { h.air with up := Function.update h.linkUp d (decide (k.state = .up)) } := by
    unfold Hub.air
    rw [up]
    rfl
  unfold Hub.Turned
  rw [rest, same, was]

theorem Hub.Turned.linkUp {b k : Hub} {d : Desk} {up : Bool} (t : b.Turned d up k) (e : Desk) :
    k.linkUp e = if e = d then up else b.linkUp e := by
  have : k.linkUp = _ := congrArg Air.up t
  rw [this]
  exact Function.update_apply ..

/-- A link that turns to what it was. -/
theorem Hub.Turned.same {b k : Hub} {d : Desk} {up : Bool} (t : b.Turned d up k) (was : b.linkUp d = up) : k.air = b.air := by
  have : k.air = _ := t
  rw [this, ← was, Function.update_eq_self]
  rfl

theorem Hub.Turned.of_air {b k m : Hub} {d : Desk} {up : Bool} (t : b.Turned d up k) (e : m.air = k.air) : b.Turned d up m :=
  Eq.trans e t

theorem Hub.air_setLink {h : Hub} {d : Desk} {k : Link} (state : k.state = (h.links.get d).state) :
    (h.setLink d k).air = h.air :=
  (Hub.setLink_turned rfl d k).same (by rw [state]; rfl)

@[simp] theorem Hub.air_setLane (h : Hub) (l : LaneId) (r : LaneRec) : (h.setLane l r).air = h.air := Hub.air_setLink rfl

@[simp] theorem notifyDesk_air (d : Desk) (n : Notice) (h : Hub) : (notifyDesk d n h).air = h.air :=
  Hub.air_of_core (notifyDesk_core ..)
@[simp] theorem notifyPanel_air (n : Notice) (h : Hub) : (notifyPanel n h).air = h.air := rfl
@[simp] theorem notifyDeskPanel_air (d : Desk) (n : Notice) (h : Hub) : (notifyDeskPanel d n h).air = h.air :=
  Hub.air_of_core (notifyDeskPanel_core ..)
@[simp] theorem notifyAll_air (n : Notice) (h : Hub) : (notifyAll n h).air = h.air := Hub.air_of_core (notifyAll_core ..)
@[simp] theorem notifyEach_air (ns : List Notice) (h : Hub) : (notifyEach ns h).air = h.air :=
  Hub.air_of_core (notifyEach_core ..)
@[simp] theorem notifyRequester_air (r : Requester) (n : Notice) (h : Hub) : (notifyRequester r n h).air = h.air :=
  Hub.air_of_core (notifyRequester_core ..)
@[simp] theorem notifyLimits_air (ls : List (Desk × Notice)) (h : Hub) : (notifyLimits ls h).air = h.air :=
  Hub.air_of_core (notifyLimits_core ..)
@[simp] theorem answerTo_air (who : Requester) (code : Code) (body : List Byte) (h : Hub) :
    (answerTo who code body h).air = h.air := Hub.air_of_core (answerTo_core ..)
@[simp] theorem showReportIf_air (b : Bool) (h : Hub) : (showReportIf b h).air = h.air := by cases b <;> rfl

/-! ## The preamps (chapters 1 and 2) -/

@[simp] theorem commitPcu_air (e : PcuEvent) (h : Hub) : (commitPcu e h).air = h.air := by
  unfold commitPcu
  dsimp only
  split <;> simp
@[simp] theorem pcuSetInput_air (who : Requester) (ch : Nat) (gain pad hpf phantom : Option Nat) (h : Hub) :
    (pcuSetInput who ch gain pad hpf phantom h).air = h.air := by
  unfold pcuSetInput; repeat' split
  all_goals simp
@[simp] theorem pcuReadInput_air (who : Requester) (ch : Nat) (h : Hub) : (pcuReadInput who ch h).air = h.air := by
  unfold pcuReadInput; split <;> simp
@[simp] theorem pcuSetGang_air (who : Requester) (group : Nat) (members : List Nat) (h : Hub) :
    (pcuSetGang who group members h).air = h.air := by
  unfold pcuSetGang; dsimp only; repeat' split
  all_goals simp
@[simp] theorem pcuReadGang_air (who : Requester) (g : Option Nat) (h : Hub) : (pcuReadGang who g h).air = h.air := by
  unfold pcuReadGang; repeat' split
  all_goals simp
@[simp] theorem pcuSetTracking_air (who : Requester) (desk : Nat) (channels : BitSet 72) (value : Nat) (h : Hub) :
    (pcuSetTracking who desk channels value h).air = h.air := by
  unfold pcuSetTracking; repeat' split
  all_goals simp
@[simp] theorem pcuSetTrim_air (who : Requester) (desk ch : Nat) (trim : Int) (h : Hub) :
    (pcuSetTrim who desk ch trim h).air = h.air := by
  unfold pcuSetTrim; repeat' split
  all_goals simp
@[simp] theorem zeroCrossing_air (c : Chan) (h : Hub) : (zeroCrossing c h).air = h.air := by
  unfold zeroCrossing; split <;> simp
@[simp] theorem transferTimeout_air (c : Chan) (h : Hub) : (transferTimeout c h).air = h.air := by
  unfold transferTimeout; split <;> simp
@[simp] theorem chargeExpiry_air (c : Chan) (h : Hub) : (chargeExpiry c h).air = h.air := by
  unfold chargeExpiry; split <;> simp
@[simp] theorem dischargeExpiry_air (c : Chan) (h : Hub) : (dischargeExpiry c h).air = h.air := by
  unfold dischargeExpiry; split <;> simp

/-! ## Claims (chapter 3) -/

@[simp] theorem commitClaims_air (x : Arb) (h : Hub) : (commitClaims x h).air = h.air :=
  Hub.air_of_unclaimed (commitClaims_unclaimed ..)
@[simp] theorem answerClaims_air (h : Hub) : (answerClaims h).air = h.air := Hub.air_of_unclaimed (answerClaims_unclaimed h)
@[simp] theorem claimLostTo_air (who : Requester) (lost : List (Requester × Res)) (h : Hub) (f : Requester) :
    (claimLostTo who lost h f).air = h.air := Hub.air_of_unclaimed (claimLostTo_unclaimed ..)
@[simp] theorem arbClaim_air (who : Requester) (rs : List Nat) (l : Nat) (h : Hub) : (arbClaim who rs l h).air = h.air := by
  unfold arbClaim; repeat' split
  all_goals simp
@[simp] theorem arbRelease_air (who : Requester) (rs : List Nat) (h : Hub) : (arbRelease who rs h).air = h.air := by
  unfold arbRelease; repeat' split
  all_goals simp
@[simp] theorem arbOverride_air (who : Requester) (rs : List Nat) (h : Hub) : (arbOverride who rs h).air = h.air := by
  unfold arbOverride; repeat' split
  all_goals simp [foldl_air]
@[simp] theorem arbFreeze_air (who : Requester) (h : Hub) : (arbFreeze who h).air = h.air := by
  unfold arbFreeze
  repeat' split
  · exact answerTo_air ..
  · exact answerTo_air ..
  · exact (answerTo_air ..).trans ((notifyAll_air ..).trans ((Hub.air_arb ..).trans
      ((answerClaims_air _).trans (commitClaims_air ..))))
@[simp] theorem arbReadClaims_air (who : Requester) (rs : List Nat) (h : Hub) : (arbReadClaims who rs h).air = h.air := by
  unfold arbReadClaims; split <;> simp
@[simp] theorem windowExpiry_air (h : Hub) : (windowExpiry h).air = h.air := by simp [windowExpiry]
@[simp] theorem graceExpiry_air (d : Desk) (h : Hub) : (graceExpiry d h).air = h.air := by simp [graceExpiry]
@[simp] theorem arbDown_air (d : Desk) (h : Hub) : (arbDown d h).air = h.air := by simp [arbDown]
@[simp] theorem arbUp_air (d : Desk) (h : Hub) : (arbUp d h).air = h.air := Hub.air_of_unclaimed (arbUp_unclaimed d h)

/-! ## Outputs and talk -/

/-- The Output Table replaced. -/
theorem Hub.air_mon (h : Hub) (m : Mon) : Hub.air { h with mon := m } = { h.air with outputs := m.outputs } := rfl

theorem outputSamples_air (h : Hub) : (outputSamples h).air = h.air := by
  unfold outputSamples
  dsimp only
  rw [Hub.air_mon]
  rfl

/-! ## Reads, stage talk, tests and health -/

@[simp] theorem monReadOutput_air (who : Requester) (out : Nat) (h : Hub) : (monReadOutput who out h).air = h.air := by
  unfold monReadOutput; split <;> simp
@[simp] theorem tbkReadTalk_air (who : Requester) (h : Hub) : (tbkReadTalk who h).air = h.air := answerTo_air ..
@[simp] theorem stageChange_air (i : StageIn) (b : Bool) (h : Hub) : (stageChange i b h).air = h.air := by
  unfold stageChange
  split
  · rfl
  · refine (foldl_air (fun h d => ?_) _ _).trans ?_
    · split <;> simp
    · cases i <;> rfl
@[simp] theorem setTestStatus_air (d : Desk) (t : TestRec) (st : TestStatus) (h : Hub) :
    (setTestStatus d t st h).air = h.air := (setTestStatus_told d t st h).air
@[simp] theorem testComplete_air (d : Desk) (h : Hub) : (testComplete d h).air = h.air := by
  unfold testComplete; repeat' split
  all_goals simp
@[simp] theorem hlmDown_air (d : Desk) (h : Hub) : (hlmDown d h).air = h.air := by
  unfold hlmDown; repeat' split
  all_goals simp
@[simp] theorem hlmUp_air (d : Desk) (h : Hub) : (hlmUp d h).air = h.air := rfl
@[simp] theorem reqLeavesUp_air (d : Desk) (h : Hub) : (reqLeavesUp d h).air = h.air := rfl
@[simp] theorem reqDown_air (d : Desk) (h : Hub) : (reqDown d h).air = h.air := rfl
@[simp] theorem hlmRestart_air (h : Hub) : (hlmRestart h).air = h.air :=
  foldl_air (fun h d => testComplete_air d h) Desk.all h
@[simp] theorem faultTest_air (l : LaneId) (wasActive : Bool) (h : Hub) : (faultTest l wasActive h).air = h.air := by
  unfold faultTest suspendTest writeCapture; repeat' split
  all_goals simp
@[simp] theorem lnkReadLink_air (who : Requester) (link : Nat) (h : Hub) : (lnkReadLink who link h).air = h.air := by
  unfold lnkReadLink; split <;> simp
@[simp] theorem hlmReadHealth_air (who : Requester) (link : Nat) (h : Hub) : (hlmReadHealth who link h).air = h.air := by
  unfold hlmReadHealth; split <;> simp
@[simp] theorem hlmLaneTestStop_air (who : Requester) (link : Nat) (h : Hub) : (hlmLaneTestStop who link h).air = h.air := by
  unfold hlmLaneTestStop; dsimp only; repeat' split
  all_goals simp

/-! ## The panel port and the store (chapter 9) -/

@[simp] theorem pnlReadNotices_air (who : Requester) (flush : Nat) (h : Hub) : (pnlReadNotices who flush h).air = h.air := by
  unfold pnlReadNotices; split <;> simp
@[simp] theorem startNext_air (h : Hub) : (startNext h).air = h.air := by
  unfold startNext; split <;> rfl
@[simp] theorem addEntry_air (e : WriteEntry) (h : Hub) : (addEntry e h).air = h.air := startNext_air _
@[simp] theorem setStatus_air (r : RegionName) (st : RegionStatus) (cause : StoreCause) (h : Hub) :
    (setStatus r st cause h).air = h.air := notifyAll_air ..
@[simp] theorem answerWaiting_air (e : WriteEntry) (code : Code) (h : Hub) : (answerWaiting e code h).air = h.air := by
  unfold answerWaiting; split <;> simp
@[simp] theorem storeWriteFault_air (h : Hub) : (storeWriteFault h).air = h.air := by
  unfold storeWriteFault; repeat' split
  all_goals simp
@[simp] theorem settleExpiry_air (h : Hub) : (settleExpiry h).air = h.air := by
  unfold settleExpiry; split <;> simp
@[simp] theorem stoLockInstall_air (who : Requester) (h : Hub) : (stoLockInstall who h).air = h.air := by
  unfold stoLockInstall; split <;> simp
@[simp] theorem stoEraseInstall_air (who : Requester) (prepared : Bool) (h : Hub) :
    (stoEraseInstall who prepared h).air = h.air := by
  unfold stoEraseInstall; split <;> simp

end Sys2Proof.Machine
end

/-!
An invariant of the outputs and talk along every command: what a link that turns UP or leaves UP, the events of MON and TBK
and the start of a period keep, every step keeps, since the other operations leave the outputs and talk alone.
-/
section
namespace Sys2Proof.Machine

/-- A property of the outputs and talk that the events of the links, of MON and of TBK keep. -/
structure Airborne (I : Hub → Prop) : Prop where
  air : ∀ {h k : Hub}, k.air = h.air → I h → I k
  leaves : ∀ {b k : Hub} {d : Desk}, b.Turned d false k → I b → I (tbkLeavesUp d (monLeavesUp d k))
  enters : ∀ {b k : Hub} {d : Desk}, b.linkUp d = false → b.Turned d true k → I b → I (monUp k)
  muted : ∀ {h : Hub} (cause : SafeCause), I h → I (safeMute cause h)
  committed : ∀ {h : Hub} (byEnable : Bool), I h → I (commitMon byEnable h.mon.outputs h)
  patched : ∀ {h : Hub} (who : Requester) (out : Nat) (p f : Option (Nat × Nat)) (fa gap : Nat), I h →
    I (monSetPatch who out p f fa gap h)
  enabled : ∀ {h : Hub} (who : Requester) (set : BitSet 32) (value : Nat), I h → I (monOutputEnable who set value h)
  fade : ∀ {h : Hub} (i : Out), I h → I (fadeComplete i h)
  revert : ∀ {h : Hub} (i : Out), I h → I (revertExpiry i h)
  talkOn : ∀ {h : Hub} (who : Requester) (set : BitSet 32) (duck : Nat), I h → I (tbkTalkOn who set duck h)
  talkEnds : ∀ {h : Hub} (d : Desk) (cause : TalkCause), I h → I (endTalk d cause h)
  talkDropped : ∀ {h : Hub}, I h → I (tbkRestart h)
  advances : ∀ {h : Hub} (ports : PortSamples), I h → I (advance ports h)
  restored : ∀ (h : Hub) (pins : Pins) (ports : PortSamples), I (h.restored pins ports)

/-- What a change of a link is followed by leaves the outputs and talk, but for the event. -/
theorem settleLink_air (b : Hub) (d : Desk) (first : Side) (h : Hub) :
    ∃ k, k.air = h.air ∧ settleLink b d first h = linkEvent (b.links.get d).state d k := by
  have resumed : ((resumeTest d h).getD h).air = h.air := by
    unfold resumeTest
    repeat' split
    all_goals simp
  have told : (tellLinkChange (b.links.get d) d (tellLaneChange b ⟨d, first.other⟩
      (tellLaneChange b ⟨d, first⟩ ((resumeTest d h).getD h)))).air = h.air :=
    (((tellLaneChange_told ..).trans (tellLaneChange_told ..)).trans (tellLinkChange_told ..)).air.trans resumed
  refine ⟨_, ?_, rfl⟩
  split
  · exact (tellTest_told ..).air.trans told
  · exact told

theorem Link.deliver_state (k : Link) : k.deliver.1.state = k.state := by
  unfold Link.deliver
  split <;> rfl

namespace Airborne
variable {I : Hub → Prop} (K : Airborne I)
include K

/-! ## Links (R77) -/

/-- The blocks are handed the change of a link. -/
theorem linkEvent {b k : Hub} {d : Desk} (turned : b.Turned d (k.linkUp d) k) (i : I b) :
    I (linkEvent (b.links.get d).state d k) := by
  have left (down : k.linkUp d = false) {m : Hub} (same : m.air = k.air) : I (tbkLeavesUp d (monLeavesUp d m)) :=
    K.leaves ((down ▸ turned).of_air same) i
  have entered (was : b.linkUp d = false) (up : k.linkUp d = true) : I (monUp (arbUp d k)) :=
    K.enters was ((up ▸ turned).of_air (arbUp_air d k)) i
  have stayed (same : b.linkUp d = k.linkUp d) : I k := K.air (turned.same same) i
  unfold Machine.linkEvent
  split
  · next now => exact K.air (reqLeavesUp_air ..) (left (by simp [Hub.linkUp, now]) rfl)
  · next now =>
    exact K.air ((hlmDown_air ..).trans ((reqDown_air ..).trans (reqLeavesUp_air ..)))
      (left (by simp [Hub.linkUp, now]) (arbDown_air d k))
  · next was now =>
    refine K.air ((hlmDown_air ..).trans (reqDown_air ..)) ?_
    have torn : I (arbDown d k) := K.air (arbDown_air d k) (stayed (by simp [Hub.linkUp, was, now]))
    unfold monDown
    split
    · exact K.muted _ torn
    · exact torn
  · next was now => exact K.air (hlmUp_air ..) (entered (by simp [Hub.linkUp, was]) (by simp [Hub.linkUp, now]))
  · next was now => exact entered (by simp [Hub.linkUp, was]) (by simp [Hub.linkUp, now])
  all_goals next was now => exact stayed (by simp [Hub.linkUp, was, now])

/-- A change of one link, with its notices and its event. -/
theorem settleLink {b k : Hub} {d : Desk} (turned : b.Turned d (k.linkUp d) k) (i : I b) (first : Side) :
    I (settleLink b d first k) := by
  obtain ⟨m, same, settled⟩ := settleLink_air b d first k
  rw [settled]
  refine K.linkEvent ?_ i
  rw [show m.linkUp = k.linkUp from congrArg Air.up same]
  exact turned.of_air same

/-- A link's record replaced, and settled. -/
theorem settle_setLink {b h : Hub} (same : h.air = b.air) (i : I b) (d : Desk) (k : Link) (first : Side) :
    I (Machine.settleLink b d first (h.setLink d k)) := by
  have turned := Hub.setLink_turned same d k
  exact K.settleLink (by rwa [turned.linkUp, if_pos rfl]) i first

/-- A change of lanes alone, settled. -/
theorem settle_same {b h : Hub} (same : h.air = b.air) (i : I b) (d : Desk) (first : Side) :
    I (Machine.settleLink b d first h) := by
  have up : h.linkUp = b.linkUp := congrArg Air.up same
  refine K.settleLink ?_ i first
  unfold Hub.Turned
  rw [up, Function.update_eq_self, same]
  rfl

/-! ## Health and lane tests (chapter 5) -/

theorem switchLink {h : Hub} (i : I h) (d : Desk) (old : Side) : I (switchLink d old h) := K.settle_setLink rfl i ..

theorem setVerdict {h : Hub} (i : I h) (l : LaneId) (v : Verdict) : I (setVerdict l v h) := by
  unfold Machine.setVerdict plannedSwitch
  dsimp only
  repeat' split
  · exact i
  · exact K.switchLink (K.air (by simp) i) ..
  · exact K.air (by simp) i

theorem computeVerdicts {h : Hub} (i : I h) : I (computeVerdicts h) :=
  Sustained.foldl (I := I) (f := fun h l => computeVerdict l h) (fun _ l i => K.setVerdict i l _) LaneId.all i

theorem countHealth {h : Hub} (i : I h) (l : LaneId) (n : PerCounter Nat) : I (countHealth l n h) :=
  K.setVerdict (K.air (Hub.air_setHealth h l _) i) l _

theorem countSlip {h : Hub} (i : I h) (d : Desk) : I (countSlip d h) := by
  unfold Machine.countSlip
  split
  · exact i
  · exact K.countHealth i ..

theorem installChanged {h : Hub} (i : I h) : I (installChanged h) := K.committed false (K.computeVerdicts i)

/-! ## Frame results (R69) -/

theorem hlmResult {h : Hub} (i : I h) (l : LaneId) (f : Option UpFrame) : I (hlmResult l f h) := by
  unfold Machine.hlmResult
  dsimp only
  split
  · split
    · exact i
    · exact K.countHealth i ..
  · exact K.countHealth (K.air (Hub.air_setTest ..) i) ..

theorem testingReturns {h : Hub} (i : I h) (l : LaneId) (f : UpFrame) : I (testingReturns l f h) := by
  unfold Machine.testingReturns
  dsimp only
  repeat' split
  · exact K.settle_setLink (by simp) i ..
  · exact K.settle_same (by simp) i ..
  · exact i

theorem receive {h : Hub} (i : I h) (l : LaneId) (f : Option UpFrame) : I (receive l f h) := by
  have bad (due : Frame) (f : Option UpFrame) :
      I (badResult l due (h.setLane l { h.lane l with arrived := true, rx := f })) :=
    K.hlmResult (h := Hub.setLane ..) (K.air (by simp) i) ..
  unfold Machine.receive
  dsimp only
  repeat' split
  · exact bad ..
  · exact K.hlmResult (K.testingReturns (K.air (by simp) i) ..) ..
  · exact bad ..
  · exact K.air (by simp) i
  · exact K.air (by simp) i

/-! ## Acquisition, qualification, faults, holdover -/

theorem acquisitionComplete {h : Hub} (i : I h) (l : LaneId) : I (acquisitionComplete l h) := by
  unfold Machine.acquisitionComplete
  dsimp only
  repeat' split
  · exact i
  · exact K.air (by simp) i
  · exact K.settle_setLink (by simp) i ..
  · exact K.settle_same (by simp) i ..
  · exact K.settle_same (by simp) i ..
  · exact i

theorem qualificationComplete {h : Hub} (i : I h) (l : LaneId) : I (qualificationComplete l h) := by
  unfold Machine.qualificationComplete
  dsimp only
  repeat' split
  · refine K.settle_same ?_ i ..
    rw [Hub.air_setLane]
    exact Hub.air_setLink rfl
  · exact K.settle_same (by simp) i ..
  · exact K.settle_setLink rfl i ..
  · exact i
  · exact i

theorem missingFrame {h : Hub} (i : I h) (l : LaneId) : I (missingFrame l h) := by
  unfold Machine.missingFrame
  split
  · exact i
  · exact K.receive i ..

theorem hlmFault {h : Hub} (i : I h) (l : LaneId) (cause : FaultCause) (prior : LaneState) (active : Bool) :
    I (hlmFault l cause prior active h) :=
  K.air ((faultTest_air ..).trans (Hub.air_setHealth ..)) (K.countHealth i l (faultCount cause))

theorem laneFault {h : Hub} (i : I h) (l : LaneId) (cause : FaultCause) (st : LaneState) : I (laneFault l cause st h) := by
  have recorded : I (recordTested l h) := by
    unfold recordTested
    split
    · exact K.missingFrame i _
    · exact i
  have before : I (testComplete l.link (recordTested l h)) := K.air (testComplete_air ..) recorded
  unfold Machine.laneFault
  dsimp only
  refine K.hlmFault ?_ ..
  split
  · exact K.settle_setLink (by simp) before ..
  · exact K.settle_same (by simp) before ..

theorem frameLoss {h : Hub} (i : I h) (l : LaneId) : I (frameLoss l h) := by
  unfold Machine.frameLoss
  split
  · exact K.laneFault i ..
  · exact i

theorem lightAppears {h : Hub} (i : I h) (l : LaneId) : I (lightAppears l h) := by
  unfold Machine.lightAppears
  dsimp only
  repeat' split
  · exact i
  · exact K.settle_same (by simp [setLight]) i ..
  · exact K.air (Hub.air_setLane ..) i

theorem lightLoss {h : Hub} (i : I h) (l : LaneId) : I (lightLoss l h) := by
  have recorded : I (recordLink l.link h) := K.missingFrame (K.missingFrame i _) _
  have unlit : I (setLight l false (Machine.frameLoss l (recordLink l.link h))) :=
    K.air (Hub.air_setLane ..) (K.frameLoss recorded l)
  unfold Machine.lightLoss
  dsimp only
  repeat' split
  · exact unlit
  · exact K.laneFault unlit ..
  · exact i

theorem holdoverExpiry {h : Hub} (i : I h) (d : Desk) : I (holdoverExpiry d h) := by
  unfold Machine.holdoverExpiry
  dsimp only
  split
  · exact K.settle_setLink rfl i ..
  · exact i

/-! ## Requests and writes -/

theorem answered {h : Hub} (i : I h) (who : Requester) (code : Code) (body : List Byte) : I (answerTo who code body h) :=
  K.air (answerTo_air ..) i

theorem lnkLaneSwitch {h : Hub} (i : I h) (who : Requester) (link : Nat) : I (lnkLaneSwitch who link h) := by
  unfold Machine.lnkLaneSwitch
  repeat' split
  · exact K.answered i ..
  · exact K.answered (K.switchLink i ..) ..
  all_goals exact K.answered i ..

theorem lnkLinkRestart {h : Hub} (i : I h) (who : Requester) (link : Nat) : I (lnkLinkRestart who link h) := by
  unfold Machine.lnkLinkRestart
  split
  · exact K.answered i ..
  · next d _ => exact K.answered (K.settle_setLink rfl (K.air (testComplete_air d h) i) ..) ..

theorem hlmClearHealth {h : Hub} (i : I h) (who : Requester) (lane : Nat) : I (hlmClearHealth who lane h) := by
  unfold Machine.hlmClearHealth
  repeat' split
  · exact K.answered i ..
  · exact K.answered (K.setVerdict (K.air (by simp) i) ..) ..
  · exact K.answered i ..

theorem hlmLaneTest {h : Hub} (i : I h) (who : Requester) (lane seconds : Nat) : I (hlmLaneTest who lane seconds h) := by
  unfold Machine.hlmLaneTest
  repeat' split
  · exact K.answered i ..
  · exact K.answered i ..
  · exact K.answered (K.air (tellTest_told ..).air (K.settle_same (by simp) i ..)) ..
  all_goals exact K.answered i ..

theorem handOver {h : Hub} (i : I h) (who : Requester) (prepared : Bool) (c : Call) : I (handOver who prepared c h) := by
  cases c with
  | setPatch out p f fa gap => exact K.patched who out p f fa gap i
  | outputEnable set value => exact K.enabled who set value i
  | talkOn set duck => exact K.talkOn who set duck i
  | talkOff =>
    show I (tbkTalkOff who h)
    unfold tbkTalkOff
    split
    · exact K.answered i ..
    · exact K.answered (K.talkEnds _ _ i) ..
  | clearHealth lane => exact K.hlmClearHealth i ..
  | laneSwitch link => exact K.lnkLaneSwitch i ..
  | linkRestart link => exact K.lnkLinkRestart i ..
  | laneTest lane seconds => exact K.hlmLaneTest i ..
  | hubRestart =>
    refine K.answered (K.air (notifyAll_air ..) ?_) ..
    have dropped := K.talkDropped (K.air (hlmRestart_air h) i)
    exact K.air (h := tbkRestart (hlmRestart h)) (Hub.air_with (tbkRestart (hlmRestart h)) ..) dropped
  | writeInstall settings =>
    show I (stoWriteInstall who settings h)
    unfold stoWriteInstall
    repeat' split
    · exact K.answered i ..
    · exact K.answered i ..
    · exact K.air (addEntry_air ..) (K.installChanged (K.air (h := h) rfl i))
  | setInput | readInput | setGang | readGang | setTracking | setTrim | claim | release | override | freeze | readClaims |
    readOutput | readTalk | readLink | readHealth | laneTestStop | readInstall | lockInstall | erasePrepare |
    eraseInstall | saveNow | readNotices | unknown | malformed =>
    exact K.air (by simp [Machine.handOver, stoReadInstall, stoErasePrepare, stoSaveNow]) i

theorem storeWriteComplete {h : Hub} (i : I h) : I (storeWriteComplete h) := by
  have finished {h : Hub} (i : I h) (k : WriteKind) : I (finishEntry k h) := by
    cases k with
    | save => exact i
    | lock => exact K.air (h := h) rfl i
    | erase => exact K.installChanged (K.air (h := h) rfl i)
  have completed {h : Hub} (i : I h) (w : RunningWrite) : I (completeWrite w h) := by
    unfold completeWrite
    refine K.air ((startNext_air _).trans (answerWaiting_air ..)) (finished ?_ w.entry.kind)
    split
    · exact K.air (h := h) rfl i
    · exact K.air (setStatus_air ..) (K.air (h := h) rfl i)
  have signalled : I { h with sto := h.sto.signalTaken } := K.air (h := h) rfl i
  unfold Machine.storeWriteComplete
  dsimp only
  repeat' split
  · exact signalled
  · exact completed signalled _
  · exact signalled

/-! ## SAFE and the talk timeouts -/

theorem safeAsserted {h : Hub} (i : I h) : I (safeAsserted h) := by
  unfold Machine.safeAsserted
  split
  · exact i
  · exact K.muted _ (K.air (h := h) rfl i)

theorem safeReleased {h : Hub} (i : I h) : I (safeReleased h) := by
  unfold Machine.safeReleased
  split
  · exact K.air (notifyAll_air ..) (K.air (h := h) rfl i)
  · exact i

theorem talkTimeout {h : Hub} (i : I h) (d : Desk) : I (talkTimeout d h) := by
  unfold Machine.talkTimeout
  repeat' split
  · exact i
  · exact K.talkEnds d _ i
  · exact i

/-! ## Every event -/

theorem sustained : Sustained I where
  core e i := K.air (Hub.air_of_core e) i
  prepared {h} _ i := K.air (Hub.air_sto h _) i
  request who prepared c i := K.handOver i who prepared c
  received l f _ i := K.receive i l f
  acquisition l i := K.acquisitionComplete i l
  qualification l i := K.qualificationComplete i l
  frameLoss l i := K.frameLoss i l
  lightAppears l i := K.lightAppears i l
  lightLoss l i := K.lightLoss i l
  holdover d i := K.holdoverExpiry i d
  test d i := K.air (testComplete_air d _) i
  crossing c i := K.air (zeroCrossing_air c _) i
  timeout c i := K.air (transferTimeout_air c _) i
  charge c i := K.air (chargeExpiry_air c _) i
  discharge c i := K.air (dischargeExpiry_air c _) i
  window i := K.air (windowExpiry_air _) i
  grace d i := K.air (graceExpiry_air d _) i
  fade j i := K.fade j i
  revert j i := K.revert j i
  asserted i := K.safeAsserted i
  released i := K.safeReleased i
  talk d i := K.talkTimeout i d
  stage x b i := K.air (stageChange_air x b _) i
  settle i := K.air (settleExpiry_air _) i
  written i := K.storeWriteComplete i
  fault i := K.air (storeWriteFault_air _) i
  slip d i := K.countSlip i d
  take _ _ i := K.air (Hub.air_setLink rfl) i
  deliver _ i := K.air (Hub.air_setLink (Link.deliver_state _)) i
  samples i := K.air (outputSamples_air _) i
  advances ports i := K.advances ports i
  sent {h} _ i := K.air (h := h) rfl i
  restored := K.restored

end Airborne
end Sys2Proof.Machine
end

/-!
The outputs agree with their path states (R111, R118, Table 6-2): what a retarget, a fade, a link that turns and a revert timer
make of one output; with them every step.
-/
section
namespace Sys2Proof.Machine

/-! ## One output (R112 to R118) -/

/-- What an output carries agrees with its path state, whatever its patch fields. -/
def Output.Plays (h : Hub) (o : Output) : Prop :=
  match o.pathState with
  | .unpatched | .silent => o.carried = none ∧ o.gapTarget = none ∧ o.fade = 0
  | .onPrimary | .onFallback => sourceUp h.linkUp o.carried = true ∧ o.gapTarget = none ∧ o.fade = Config.fadeFull
  | .gapOut | .gapIn => sourceUp h.linkUp o.carried = true ∧ o.fade ≤ Config.fadeFull

/-- An output in agreement with its path state, its revert timer with what it takes from (R111, R118). -/
structure Output.Fit (h : Hub) (o : Output) : Prop where
  ok : o.Ok h
  revert : o.revertDeadline ≠ none → o.takesFallback = true ∧ sourceUp h.linkUp o.primary = true

section
variable {h k : Hub} {o : Output}

theorem Output.Ok.plays (ok : o.Ok h) : o.Plays h := by
  cases state : o.pathState <;> simp only [Output.Ok, Output.Plays, state] at ok ⊢
  case unpatched | silent => exact ok.2
  case onPrimary =>
    obtain ⟨-, -, up, full⟩ := ok
    exact ⟨up, full⟩
  case onFallback =>
    obtain ⟨-, -, -, up, full⟩ := ok
    exact ⟨up, full⟩
  case gapOut =>
    obtain ⟨up, fade, -⟩ := ok
    exact ⟨up, fade⟩
  case gapIn =>
    obtain ⟨-, -, up, -, fade⟩ := ok
    exact ⟨up, fade⟩

/-- An output that takes nothing agrees in the state of its patch. -/
theorem Output.idle_ok (state : o.pathState = o.idleState) (carried : o.carried = none) (target : o.gapTarget = none)
    (fade : o.fade = 0) : o.Ok h := by
  unfold Output.idleState at state
  cases primary : o.primary <;> simp [primary] at state <;> simp [Output.Ok, state, primary, carried, target, fade]

/-- The revert timer's own field is no part of the path state. -/
theorem Output.Ok.with_deadline (ok : o.Ok h) (t : Option Frame) : Output.Ok h { o with revertDeadline := t } := ok

theorem Output.Fit.idle_deadline (fit : o.Fit h) (other : o.takesFallback = false) : o.revertDeadline = none := by
  by_contra runs
  exact absurd (fit.revert runs).1 (by simp [other])

/-- Retarget to no source (Table 6-3, first column). -/
theorem Output.Plays.retargetNone (plays : o.Plays h) : o.retargetNone.Ok h := by
  unfold Output.Plays at plays
  unfold Output.retargetNone
  split
  · exact Output.idle_ok rfl rfl rfl rfl
  · split <;> rename_i state <;> simp only [state] at plays
    · exact Output.idle_ok rfl plays.1 plays.2.1 plays.2.2
    · exact Output.idle_ok rfl plays.1 plays.2.1 plays.2.2
    · exact ⟨plays.1, Nat.le_refl _, .inl rfl⟩
    · exact ⟨plays.1, Nat.le_refl _, .inl rfl⟩
    · simp [Output.Ok, state, plays]
    · exact ⟨plays.1, plays.2, .inl rfl⟩

/-- Retarget to a source whose link is UP (Table 6-3, second and third columns). -/
theorem Output.Plays.retargetSource (plays : o.Plays h) {t : Target} {s : Source} (named : o.named t = some s)
    (up : h.linkUp s.link = true) (patched : o.primary ≠ none) : (o.retargetSource t s).Ok h := by
  have choice : (t = .primary ∧ o.primary = some s) ∨ (t = .fallback ∧ o.fallback = some s) := by
    cases t
    · exact .inl ⟨rfl, named⟩
    · exact .inr ⟨rfl, named⟩
    · cases named
  have on (p : Output) (state : p.pathState = onState t) (primary : p.primary = o.primary) (fallback : p.fallback = o.fallback)
      (carried : p.carried = some s) (target : p.gapTarget = none) (fade : p.fade = Config.fadeFull) : p.Ok h := by
    rcases choice with ⟨rfl, own⟩ | ⟨rfl, own⟩
    · simp [Output.Ok, onState, state, primary, carried, target, fade, own, sourceUp, up]
    · simp [Output.Ok, onState, state, primary, fallback, carried, target, fade, own, sourceUp, up, patched]
  have out (p : Output) (state : p.pathState = .gapOut) (primary : p.primary = o.primary) (fallback : p.fallback = o.fallback)
      (carried : sourceUp h.linkUp p.carried = true) (target : p.gapTarget = some t) (fade : p.fade ≤ Config.fadeFull) :
      p.Ok h := by
    have source : p.targetSource = some s := by
      rw [← named]
      unfold Output.targetSource Output.named
      rw [target, primary, fallback]
    have usable : sourceUp h.linkUp p.targetSource = true := source ▸ up
    simp [Output.Ok, state, primary, carried, fade, usable, patched]
  have into (p : Output) (state : p.pathState = .gapIn) (primary : p.primary = o.primary) (fallback : p.fallback = o.fallback)
      (carried : p.carried = some s) (target : p.gapTarget = some t) (fade : p.fade ≤ Config.fadeFull) : p.Ok h := by
    have source : p.targetSource = some s := by
      rw [← named]
      unfold Output.targetSource Output.named
      rw [target, primary, fallback]
    have usable : sourceUp h.linkUp p.carried = true := carried ▸ up
    have gap : t = .primary ∨ t = .fallback := choice.imp And.left And.left
    simp [Output.Ok, state, primary, fade, source, carried ▸ usable, carried, patched, target, gap]
  unfold Output.Plays at plays
  unfold Output.retargetSource
  split
  · exact on _ rfl rfl rfl rfl rfl rfl
  · split <;> rename_i state <;> simp only [state] at plays
    · exact into _ rfl rfl rfl rfl rfl (Nat.zero_le _)
    · exact into _ rfl rfl rfl rfl rfl (Nat.zero_le _)
    · obtain ⟨carries, target, full⟩ := plays
      split
      · next same => exact on _ rfl rfl rfl same target full
      · exact out _ rfl rfl rfl carries rfl (Nat.le_refl _)
    · obtain ⟨carries, target, full⟩ := plays
      split
      · next same => exact on _ rfl rfl rfl same target full
      · exact out _ rfl rfl rfl carries rfl (Nat.le_refl _)
    · split
      · next same => exact into _ rfl rfl rfl same rfl plays.2
      · exact out _ state rfl rfl plays.1 rfl plays.2
    · split
      · next same => exact into _ state rfl rfl same rfl plays.2
      · exact out _ rfl rfl rfl plays.1 rfl plays.2

/-- A retarget leaves the patch fields. -/
theorem Output.retarget_primary (o : Output) (bySetPatch : Bool) (t : Target) :
    (o.retarget bySetPatch t).primary = o.primary := by
  unfold Output.retarget Output.retargetNone Output.retargetSource
  dsimp only
  repeat' split
  all_goals rfl

/-- A retarget keeps an output in agreement; its revert timer stands only where it still takes from its fallback (R113). -/
theorem Output.Plays.retarget (plays : o.Plays h) (bySetPatch : Bool) {t : Target}
    (up : ∀ s, o.named t = some s → h.linkUp s.link = true ∧ o.primary ≠ none)
    (revert : bySetPatch = false → o.revertDeadline ≠ none → sourceUp h.linkUp o.primary = true) :
    (o.retarget bySetPatch t).Fit h := by
  refine ⟨?_, fun runs => ?_⟩
  · unfold Output.retarget
    refine Output.Ok.with_deadline ?_ _
    split
    · exact plays.retargetNone
    · next s named => exact plays.retargetSource named (up s named).1 (up s named).2
  · rw [Output.retarget_primary]
    have deadline : (o.retarget bySetPatch t).revertDeadline =
        if !bySetPatch && (o.retarget bySetPatch t).takesFallback then o.revertDeadline else none := rfl
    rw [deadline] at runs
    split at runs
    · next kept =>
      simp only [Bool.and_eq_true, Bool.not_eq_true'] at kept
      exact ⟨kept.2, revert kept.1 runs⟩
    · exact absurd rfl runs

/-- The source that a choice names is present, with its link UP (R112). -/
theorem Output.choice_up {up : Desk → Bool} {s : Source} (named : o.named (o.choice up) = some s) :
    up s.link = true ∧ o.primary ≠ none := by
  unfold Output.choice at named
  split at named
  · cases named
  · next patched =>
    have patched : o.primary ≠ none := by simpa using patched
    split at named
    · next usable =>
      simp only [Output.named] at named
      rw [named] at usable
      exact ⟨usable, patched⟩
    · split at named
      · next usable =>
        simp only [Output.named] at named
        rw [named] at usable
        exact ⟨usable.2, patched⟩
      · cases named

theorem Output.Plays.choose (plays : o.Plays h) (bySetPatch : Bool)
    (revert : bySetPatch = false → o.revertDeadline ≠ none → sourceUp h.linkUp o.primary = true) :
    (o.choose h.linkUp bySetPatch).Fit h :=
  plays.retarget bySetPatch (fun _ named => Output.choice_up named) revert

/-- A revert timer starts only where R118 allows. -/
theorem Output.Fit.startRevert (fit : o.Fit h) (now : Frame) (delay : Nat) : (o.startRevert now delay h.linkUp).Fit h := by
  unfold Output.startRevert
  split
  · next starts =>
    simp only [Bool.and_eq_true] at starts
    obtain ⟨⟨⟨takes, up⟩, -⟩, -⟩ := starts
    exact ⟨fit.ok, fun _ => ⟨takes, up⟩⟩
  · exact fit

theorem Output.Fit.patch (fit : o.Fit h) (f : PatchFields) : (o.patch f).Plays h := fit.ok.plays

/-- An output at the completion of its fade (R115). -/
theorem Output.Fit.fadeEnd (fit : o.Fit h) : o.fadeEnd.Fit h := by
  have ok := fit.ok
  unfold Output.Ok at ok
  unfold Output.fadeEnd
  split <;> rename_i state
  · simp only [state] at ok
    obtain ⟨-, -, target⟩ := ok
    have quiet := fit.idle_deadline (by simp [Output.takesFallback, state])
    split
    · exact ⟨Output.idle_ok rfl rfl rfl rfl, fun runs => absurd quiet runs⟩
    · next s source =>
      refine ⟨?_, fun runs => absurd quiet runs⟩
      have some_ : o.gapTarget ≠ some .none := fun e => by simp [Output.targetSource, e, Output.named] at source
      obtain ⟨patched, up⟩ := target.resolve_left some_
      have present : o.gapTarget = some .primary ∨ o.gapTarget = some .fallback := by
        cases e : o.gapTarget with
        | none => simp [Output.targetSource, e] at source
        | some t => cases t <;> simp_all
      rw [source] at up
      exact ⟨patched, source.symm, up, present, Nat.zero_le _⟩
  · simp only [state] at ok
    obtain ⟨patched, carried, up, target, -⟩ := ok
    rcases target with target | target
    · have source : o.carried = o.primary := by rw [carried, Output.targetSource, target]; rfl
      refine ⟨by simp [Output.Ok, target, onState, patched, source, source ▸ up], fun runs => ?_⟩
      exact absurd (fit.idle_deadline (by simp [Output.takesFallback, state, target])) runs
    · have source : o.carried = o.fallback := by rw [carried, Output.targetSource, target]; rfl
      have present : o.fallback ≠ none := fun e => by rw [source, e] at up; cases up
      refine ⟨by simp [Output.Ok, target, onState, patched, source, present, source ▸ up], fun runs => ?_⟩
      exact ⟨by simp [Output.takesFallback, target, onState], (fit.revert runs).2⟩
  all_goals exact fit

/-- The steps of a period leave an output in agreement (R114, R127). -/
theorem Output.Fit.stepped (fit : o.Fit h) : o.fadeStep.duckStep.Fit h := by
  have faded : o.fadeStep.Fit h := by
    have ok := fit.ok
    unfold Output.Ok at ok
    unfold Output.fadeStep
    dsimp only
    split <;> rename_i state
    · simp only [state] at ok
      obtain ⟨up, fade, target⟩ := ok
      refine ⟨?_, fun runs => absurd (fit.idle_deadline (by simp [Output.takesFallback, state])) runs⟩
      simp only [Output.Ok, state]
      exact ⟨up, (Nat.sub_le ..).trans fade, target⟩
    · simp only [state] at ok
      obtain ⟨patched, carried, up, target, -⟩ := ok
      refine ⟨?_, fun runs => ?_⟩
      · simp only [Output.Ok, state]
        exact ⟨patched, carried, up, target, Nat.min_le_left ..⟩
      · simpa [Output.takesFallback, state] using fit.revert runs
    all_goals exact fit
  unfold Output.duckStep
  dsimp only
  repeat' split
  all_goals exact ⟨faded.ok, faded.revert⟩

/-! ## Links (R116, R117) -/

theorem onLink_iff {d : Desk} {x : Option Source} : onLink d x = true ↔ ∃ s, x = some s ∧ s.link = d := by
  cases x <;> simp [onLink]

/-- A source stays usable when another link turns. -/
theorem Hub.Turned.sourceUp {d : Desk} {up : Bool} (t : h.Turned d up k) {x : Option Source}
    (kept : up = true ∨ onLink d x = false) (usable : sourceUp h.linkUp x = true) : sourceUp k.linkUp x = true := by
  cases x with
  | none => cases usable
  | some s =>
    simp only [Machine.sourceUp] at usable ⊢
    rw [t.linkUp]
    split
    · next own =>
      rcases kept with rfl | off
      · rfl
      · simp [onLink, own] at off
    · exact usable

/-- An output whose sources keep their links stays in agreement. -/
theorem Output.Ok.turned (ok : o.Ok h) {d : Desk} {up : Bool} (t : h.Turned d up k)
    (carried : up = true ∨ onLink d o.carried = false)
    (target : up = true ∨ o.pathState ≠ .gapOut ∨ onLink d o.targetSource = false) : o.Ok k := by
  unfold Output.Ok at ok ⊢
  split at ok <;> rename_i state
  · exact ok
  · exact ok
  · obtain ⟨patched, source, usable, rest⟩ := ok
    exact ⟨patched, source, t.sourceUp carried usable, rest⟩
  · obtain ⟨patched, present, source, usable, rest⟩ := ok
    exact ⟨patched, present, source, t.sourceUp carried usable, rest⟩
  · obtain ⟨usable, fade, goal⟩ := ok
    refine ⟨t.sourceUp carried usable, fade, goal.imp_right fun ⟨patched, next⟩ => ⟨patched, t.sourceUp ?_ next⟩⟩
    exact target.imp_right fun x => x.resolve_left (by simp [state])
  · obtain ⟨patched, source, usable, rest⟩ := ok
    exact ⟨patched, source, t.sourceUp carried usable, rest⟩

/-- An output when a link leaves UP (R116). -/
theorem Output.Fit.linkLeaves (fit : o.Fit h) {d : Desk} (t : h.Turned d false k) : (o.linkLeaves k.linkUp d).Fit k := by
  unfold Output.linkLeaves
  split
  · split
    · next turns =>
      obtain ⟨state, up⟩ := turns
      have ok := fit.ok
      simp only [Output.Ok, state] at ok
      obtain ⟨-, -, target⟩ := ok
      have some_ : o.gapTarget ≠ some .none := fun e => by simp [Output.targetSource, e, Output.named, Machine.sourceUp] at up
      have present : o.gapTarget = some .primary ∨ o.gapTarget = some .fallback := by
        cases e : o.gapTarget with
        | none => simp [Output.targetSource, e, Machine.sourceUp] at up
        | some t => cases t <;> simp_all
      exact ⟨⟨(target.resolve_left some_).1, rfl, up, present, Nat.zero_le _⟩, fun runs => absurd rfl runs⟩
    · have lost : o.loseSource.Ok k := Output.idle_ok rfl rfl rfl rfl
      exact lost.plays.choose false fun _ runs => absurd rfl runs
  · next kept =>
    have kept : onLink d o.carried = false := by simpa using kept
    split
    · next lost =>
      obtain ⟨state, -⟩ := lost
      have plays : o.Plays k := by
        have ok := fit.ok
        simp only [Output.Ok, state] at ok
        simp only [Output.Plays, state]
        exact ⟨t.sourceUp (.inr kept) ok.1, ok.2.1⟩
      exact plays.choose false fun _ runs => absurd (fit.idle_deadline (by simp [Output.takesFallback, state])) runs
    · next stays =>
      have ok : o.Ok k := by
        refine fit.ok.turned t (.inr kept) (.inr ?_)
        by_cases state : o.pathState = .gapOut
        · exact .inr (by simpa [state] using stays)
        · exact .inl state
      split
      · exact ⟨ok, fun runs => absurd rfl runs⟩
      · next off =>
        refine ⟨ok, fun runs => ?_⟩
        obtain ⟨takes, up⟩ := fit.revert runs
        exact ⟨takes, t.sourceUp (.inr (by simpa [takes] using off)) up⟩

/-- An output when a link enters UP (R117). -/
theorem Output.Fit.linkEnters (fit : o.Fit h) {d : Desk} (t : h.Turned d true k) : (o.linkEnters k.linkUp).Fit k := by
  have same : o.Fit k :=
    ⟨fit.ok.turned t (.inl rfl) (.inl rfl), fun runs => ⟨(fit.revert runs).1, t.sourceUp (.inl rfl) (fit.revert runs).2⟩⟩
  unfold Output.linkEnters
  repeat' split
  · exact same
  · exact same.ok.plays.choose false fun _ runs => (same.revert runs).2
  · exact same

end

/-! ## The Output Table -/

/-- Every output agrees with its path state. -/
structure Hub.OutputsFit (h : Hub) : Prop where
  output : ∀ i : Out, (h.mon.output i).Fit h

section
variable {h k : Hub}

theorem Output.Fit.of_up {o : Output} (fit : o.Fit h) (up : k.linkUp = h.linkUp) : o.Fit k := by
  refine ⟨?_, ?_⟩
  · have ok := fit.ok
    unfold Output.Ok at ok ⊢
    rwa [up]
  · rw [up]
    exact fit.revert

theorem Hub.OutputsFit.of_outputs (fit : h.OutputsFit) (up : k.linkUp = h.linkUp)
    (outputs : ∀ i, (h.mon.output i).Fit h → (k.mon.output i).Fit h) : k.OutputsFit :=
  ⟨fun i => (outputs i (fit.output i)).of_up up⟩

theorem Hub.OutputsFit.of_air (fit : h.OutputsFit) (e : k.air = h.air) : k.OutputsFit := by
  have outputs : k.mon.outputs = h.mon.outputs := congrArg Air.outputs e
  refine fit.of_outputs (congrArg Air.up e) fun i own => ?_
  rwa [Mon.output, outputs]

/-- A new Output Table, its revert timers started. -/
theorem commitMon_outputsFit {outs : Vector Output 32} (fits : ∀ i, (Tbl.get outs i).Fit h) (byEnable : Bool) :
    (commitMon byEnable outs h).OutputsFit := by
  refine ⟨fun i => ?_⟩
  rw [commitMon_output]
  exact ((fits i).startRevert ..).of_up (Hub.linkUp_of_links (commitMon_links ..))

/-- One output changed. -/
theorem commitMon_withOutput_outputsFit (fit : h.OutputsFit) {i : Out} {o : Output} (own : o.Fit h) (byEnable : Bool) :
    (commitMon byEnable (h.mon.withOutput i o) h).OutputsFit := by
  refine commitMon_outputsFit (fun j => ?_) byEnable
  rw [Mon.withOutput_get]
  split
  · exact own
  · exact fit.output j

/-- Talk at the outputs is no part of the program path. -/
theorem Output.Fit.of_silenced {o p : Output} (fit : o.Fit h) (same : p.silenced = o.silenced) : p.Fit h := by
  have silent : o.silenced.Fit h := ⟨fit.ok, fit.revert⟩
  rw [← same] at silent
  exact ⟨silent.ok, silent.revert⟩

theorem handTalk_outputsFit (fit : h.OutputsFit) (t : Tbk) : (handTalk t h).OutputsFit := by
  refine fit.of_outputs (Hub.linkUp_of_links (handTalk_links ..)) fun i own => own.of_silenced ?_
  simp only [handTalk, Mon.output_of]
  split
  · rfl
  · exact Output.setTalker_silenced ..

theorem endTalk_outputsFit (fit : h.OutputsFit) (d : Desk) (cause : TalkCause) : (endTalk d cause h).OutputsFit := by
  obtain ⟨-, -, silenced⟩ := endTalk_spec d cause h
  exact fit.of_outputs (Hub.linkUp_of_links (endTalk_links ..)) fun i own => own.of_silenced (silenced i)

/-- The safe line's mute, output by output (R124). -/
theorem safeMute_output (cause : SafeCause) (h : Hub) (i : Out) : (safeMute cause h).mon.output i =
    if Tbl.get h.safeSet i = true then { h.mon.output i with enable := false } else h.mon.output i := by
  unfold safeMute
  rw [(notifyAll_told ..).mon, Mon.output_of]

theorem safeMute_outputsFit (fit : h.OutputsFit) (cause : SafeCause) : (safeMute cause h).OutputsFit := by
  refine fit.of_outputs (Hub.linkUp_of_links (safeMute_links ..)) fun i own => ?_
  rw [safeMute_output]
  split
  · exact ⟨own.ok, own.revert⟩
  · exact own

theorem monSetPatch_outputsFit (fit : h.OutputsFit) (who : Requester) (out : Nat) (p f : Option (Nat × Nat)) (fa gap : Nat) :
    (monSetPatch who out p f fa gap h).OutputsFit := by
  unfold monSetPatch
  split
  · next i x _ _ =>
    split
    · exact fit.of_air (answerTo_air ..)
    · have up : (showReportIf ((h.mon.output i).patchDiffers x) h).linkUp = h.linkUp := Hub.linkUp_of_links (showReportIf_links ..)
      have chosen : (((h.mon.output i).patch x).choose h.linkUp true).Fit h := ((fit.output i).patch x).choose true nofun
      refine Hub.OutputsFit.of_air (commitMon_outputsFit (fun j => Output.Fit.of_up ?_ up) false) (answerTo_air ..)
      rw [Mon.withOutput_get]
      split
      · exact chosen
      · exact fit.output j
  · exact fit.of_air (answerTo_air ..)

theorem monOutputEnable_outputsFit (fit : h.OutputsFit) (who : Requester) (set : BitSet 32) (value : Nat) :
    (monOutputEnable who set value h).OutputsFit := by
  unfold monOutputEnable
  repeat' split
  all_goals refine Hub.OutputsFit.of_air ?_ (answerTo_air ..)
  · exact fit
  · exact fit
  · exact fit
  · exact fit
  · refine commitMon_outputsFit (fun i => ?_) true
    rw [Tbl.get_of]
    split
    · exact ⟨(fit.output i).ok, (fit.output i).revert⟩
    · exact fit.output i

theorem revertExpiry_outputsFit (fit : h.OutputsFit) (i : Out) : (revertExpiry i h).OutputsFit := by
  unfold revertExpiry
  dsimp only
  split
  · next expired =>
    refine commitMon_withOutput_outputsFit fit ?_ false
    have runs : (h.mon.output i).revertDeadline ≠ none := fun e => by rw [e] at expired; cases expired
    obtain ⟨-, up⟩ := (fit.output i).revert runs
    refine Output.Plays.retarget (o := { h.mon.output i with revertDeadline := none }) (fit.output i).ok.plays false
      (fun s named => ?_) fun _ runs => absurd rfl runs
    have named : (h.mon.output i).primary = some s := named
    rw [named] at up
    exact ⟨up, fun e => by rw [named] at e; cases e⟩
  · exact fit

theorem monLeavesUp_outputsFit {b : Hub} {d : Desk} (turned : b.Turned d false k) (fit : b.OutputsFit) :
    (monLeavesUp d k).OutputsFit := by
  obtain ⟨airs, -, outputs⟩ := monLeavesUp_spec d k
  have up : (monLeavesUp d k).linkUp = k.linkUp := Hub.linkUp_of_links (congrArg (fun s => s.2.2.1) airs.steady)
  have same : k.mon.outputs = b.mon.outputs := congrArg Air.outputs turned
  refine ⟨fun i => Output.Fit.of_up ?_ up⟩
  rw [outputs]
  have left := ((fit.output i).linkLeaves turned).startRevert k.now k.sto.install.revertDelay
  rw [show b.mon.output i = k.mon.output i by rw [Mon.output, ← same]; rfl] at left
  exact ⟨left.ok, left.revert⟩

theorem monUp_outputsFit {b : Hub} {d : Desk} (turned : b.Turned d true k) (fit : b.OutputsFit) : (monUp k).OutputsFit := by
  have same : k.mon.outputs = b.mon.outputs := congrArg Air.outputs turned
  refine commitMon_outputsFit (fun i => ?_) false
  rw [Tbl.get_of, Mon.output, same]
  exact (fit.output i).linkEnters turned

theorem restored_outputsFit (h : Hub) (pins : Pins) (ports : PortSamples) : (h.restored pins ports).OutputsFit := by
  refine ⟨fun i => ?_⟩
  have own : (h.restored pins ports).mon.output i = (Tbl.get h.sto.readShow.patches i).output
      (h.sto.readInstall.settings.startEnabled && !(pins.safe && Tbl.get h.sto.readInstall.settings.safeMember i)) :=
    Tbl.get_of ..
  rw [own]
  exact ⟨Output.idle_ok rfl rfl rfl rfl, fun runs => absurd rfl runs⟩

/-- The agreement of the outputs is kept by every event of the links, of MON and of TBK. -/
theorem airborne_outputsFit : Airborne Hub.OutputsFit where
  air e fit := fit.of_air e
  leaves turned fit := endTalk_outputsFit (monLeavesUp_outputsFit turned fit) ..
  enters _ turned fit := monUp_outputsFit turned fit
  muted cause fit := safeMute_outputsFit fit cause
  committed byEnable fit := commitMon_outputsFit fit.output byEnable
  patched who out p f fa gap fit := monSetPatch_outputsFit fit who out p f fa gap
  enabled who set value fit := monOutputEnable_outputsFit fit who set value
  fade {h} i fit := by
    unfold fadeComplete
    split
    · exact commitMon_withOutput_outputsFit fit (fit.output i).fadeEnd false
    · exact fit
  revert i fit := revertExpiry_outputsFit fit i
  talkOn {h} who set duck fit := by
    unfold tbkTalkOn
    repeat' split
    · exact fit.of_air (answerTo_air ..)
    · exact fit.of_air (answerTo_air ..)
    · exact Hub.OutputsFit.of_air (handTalk_outputsFit fit _) ((answerTo_air ..).trans (notifyEach_air ..))
    · exact fit.of_air (answerTo_air ..)
  talkEnds d cause fit := endTalk_outputsFit fit d cause
  talkDropped fit := handTalk_outputsFit fit _
  advances {h} ports fit := by
    have up : (advance ports h).linkUp = h.linkUp := funext fun d => by
      show decide (((PerDesk.of fun d => (h.links.get d).newPeriod).get d).state = .up) = _
      rw [PerDesk.get_of]
      rfl
    refine fit.of_outputs up fun i own => ?_
    rw [show (advance ports h).mon.output i = (h.mon.output i).fadeStep.duckStep from Tbl.get_of ..]
    exact own.stepped
  restored := restored_outputsFit

end

/-- Settles O58: a retarget, a fade's end and a turn of a link each set what an output carries together with its path state,
and its revert timer with what it takes from; the other events leave both. -/
theorem stepKeepsTheOutputs : Obligations.StepKeepsTheOutputs := by
  unfold Obligations.StepKeepsTheOutputs
  intro s t ok e
  have fit := airborne_outputsFit.sustained.step ⟨fun i => ⟨(ok i).1, (ok i).2⟩⟩ e
  exact fun i => ⟨(fit.output i).ok, (fit.output i).revert⟩

end Sys2Proof.Machine
end

/-!
TBK output by output (R135 to R141): what the Talk Grant map and the records hold of one output, and what a destination taken
and an output offered make of it. The operations on lists of outputs act on each of their outputs alone.
-/
section
namespace Sys2Proof.Machine

/-! ## What TBK holds of one output -/

/-- An output is in a desk's granted set. -/
def Tbk.grantedOn (t : Tbk) (d : Desk) (o : Out) : Bool := (t.records.get d).any fun r => Tbl.get r.granted o

/-- An output is among the destinations that a desk names. -/
def Tbk.names (t : Tbk) (d : Desk) (o : Out) : Bool := (t.records.get d).any fun r => Tbl.get r.destinations o

theorem Tbk.pendingOn_eq (t : Tbk) (d : Desk) (o : Out) :
    t.pendingOn d o = (t.records.get d).any fun r => Tbl.get r.pending o := by
  unfold Tbk.pendingOn
  cases t.records.get d <;> rfl

/-- One output's entry in the Talk Grant map, and its place in the granted and pending sets of every record. -/
@[ext] structure Slice where
  talker : Option Desk
  granted : Desk → Bool
  pending : Desk → Bool

/-- What TBK holds of an output. -/
def Tbk.slice (t : Tbk) (o : Out) : Slice := ⟨Tbl.get t.grants o, (t.grantedOn · o), (t.pendingOn · o)⟩

/-- A record without its sets. -/
def TalkRec.bare (r : TalkRec) : TalkRec := { r with granted := BitSet.empty 32, pending := BitSet.empty 32 }

/-- What TBK holds besides the grants and the sets of the records. -/
def Tbk.outline (t : Tbk) : Tbk :=
  { t with records := PerDesk.of fun d => (t.records.get d).map TalkRec.bare, grants := Vector.replicate 32 none }

section
variable {t u : Tbk} {d e : Desk} {o p : Out}

theorem Tbk.outline_fields (e : u.outline = t.outline) : u.order = t.order ∧ u.arrival = t.arrival ∧ u.st1 = t.st1 ∧
    u.st2 = t.st2 ∧ ∀ d, (u.records.get d).map TalkRec.bare = (t.records.get d).map TalkRec.bare := by
  simp only [Tbk.outline, Tbk.mk.injEq] at e
  obtain ⟨records, -, order, arrival, st1, st2⟩ := e
  refine ⟨order, arrival, st1, st2, fun d => ?_⟩
  have := congrArg (PerDesk.get · d) records
  simpa using this

/-- A record that only its sets can have changed. -/
theorem Tbk.outline_record (e : u.outline = t.outline) {r : TalkRec} (record : t.records.get d = some r) :
    ∃ q, u.records.get d = some q ∧ q = { r with granted := q.granted, pending := q.pending } := by
  obtain ⟨-, -, -, -, records⟩ := Tbk.outline_fields e
  have same := records d
  rw [record] at same
  cases own : u.records.get d with
  | none => rw [own] at same; cases same
  | some q =>
    rw [own] at same
    obtain ⟨destinations, duck, arrival, granted, pending, deadline⟩ := q
    obtain ⟨destinations', duck', arrival', granted', pending', deadline'⟩ := r
    simp only [TalkRec.bare, Option.map_some, Option.some.injEq, TalkRec.mk.injEq] at same
    obtain ⟨rfl, rfl, rfl, -, -, rfl⟩ := same
    exact ⟨_, rfl, rfl⟩

theorem Tbk.outline_none (e : u.outline = t.outline) : u.records.get d = none ↔ t.records.get d = none := by
  obtain ⟨-, -, -, -, records⟩ := Tbk.outline_fields e
  have same := records d
  cases own : u.records.get d <;> cases was : t.records.get d <;> simp_all

theorem Tbk.outline_names (e : u.outline = t.outline) (d : Desk) (o : Out) : u.names d o = t.names d o := by
  unfold Tbk.names
  cases record : t.records.get d with
  | none => rw [(Tbk.outline_none e).2 record]
  | some r =>
    obtain ⟨q, own, same⟩ := Tbk.outline_record e record
    rw [own, same]
    rfl

theorem Tbk.outline_duckOf (e : u.outline = t.outline) (d : Desk) : u.duckOf d = t.duckOf d := by
  unfold Tbk.duckOf
  cases record : t.records.get d with
  | none => rw [(Tbk.outline_none e).2 record]
  | some r =>
    obtain ⟨q, own, same⟩ := Tbk.outline_record e record
    rw [own, same]

/-- A desk that has or waits for an output has a record. -/
theorem Tbk.record_of_pending (waits : t.pendingOn d o = true) : t.records.get d ≠ none := fun none_ => by
  simp [Tbk.pendingOn_eq, none_] at waits

theorem Tbk.record_of_granted (has : t.grantedOn d o = true) : t.records.get d ≠ none := fun none_ => by
  simp [Tbk.grantedOn, none_] at has

/-! ## One output changed -/

/-- An operation on one output: only what TBK holds of that output changes. -/
structure Tbk.Only (o : Out) (s : Slice) (t u : Tbk) : Prop where
  outline : u.outline = t.outline
  slice : ∀ p, u.slice p = if p = o then s else t.slice p

theorem Tbk.Only.trans {s s' : Slice} {m : Tbk} (a : Tbk.Only o s t m) (b : Tbk.Only o s' m u) : Tbk.Only o s' t u := by
  refine ⟨b.outline.trans a.outline, fun p => ?_⟩
  rw [b.slice]
  split
  · rfl
  · next other => rw [a.slice, if_neg other]

/-- A desk takes the output. -/
def Slice.taken (s : Slice) (d : Desk) : Slice :=
  ⟨some d, Function.update s.granted d true, Function.update s.pending d false⟩

/-- A desk waits on the output. -/
def Slice.held (s : Slice) (d : Desk) : Slice :=
  { s with granted := Function.update s.granted d false, pending := Function.update s.pending d true }

/-- A desk's record is none of the output's. -/
def Slice.without (s : Slice) (d : Desk) : Slice :=
  { s with granted := Function.update s.granted d false, pending := Function.update s.pending d false }

theorem Tbk.setGrant_only (t : Tbk) (o : Out) (x : Option Desk) : Tbk.Only o { t.slice o with talker := x } t (t.setGrant o x) := by
  refine ⟨rfl, fun p => ?_⟩
  unfold Tbk.slice
  rw [Tbk.setGrant_grants]
  split
  · next same => subst same; rfl
  · rfl

/-- A record whose sets change at one output. -/
theorem Tbk.setRecord_only {r q : TalkRec} (record : t.records.get d = some r) (bare : q.bare = r.bare)
    (others : ∀ p, p ≠ o → Tbl.get q.granted p = Tbl.get r.granted p ∧ Tbl.get q.pending p = Tbl.get r.pending p) :
    Tbk.Only o ⟨Tbl.get t.grants o, Function.update (t.grantedOn · o) d (Tbl.get q.granted o),
      Function.update (t.pendingOn · o) d (Tbl.get q.pending o)⟩ t (t.setRecord d (some q)) := by
  refine ⟨?_, fun p => ?_⟩
  · have records : (PerDesk.of fun e => ((t.setRecord d (some q)).records.get e).map TalkRec.bare) =
        PerDesk.of fun e => (t.records.get e).map TalkRec.bare := by
      refine PerDesk.ext_get fun e => ?_
      simp only [PerDesk.get_of, Tbk.setRecord_records]
      split
      · next same => subst same; simp [record, bare]
      · rfl
    unfold Tbk.outline
    rw [records]
    rfl
  · have sets (e : Desk) : (t.setRecord d (some q)).grantedOn e p =
          Function.update (t.grantedOn · p) d (Tbl.get q.granted p) e ∧
        (t.setRecord d (some q)).pendingOn e p = Function.update (t.pendingOn · p) d (Tbl.get q.pending p) e := by
      simp only [Tbk.grantedOn, Tbk.pendingOn_eq, Tbk.setRecord_records, Function.update_apply]
      split <;> simp
    split
    · next same =>
      subst same
      exact Slice.ext rfl (funext fun e => (sets e).1) (funext fun e => (sets e).2)
    · next other =>
      have own : t.grantedOn d p = Tbl.get q.granted p ∧ t.pendingOn d p = Tbl.get q.pending p := by
        simp [Tbk.grantedOn, Tbk.pendingOn_eq, record, others p other]
      refine Slice.ext rfl (funext fun e => (sets e).1.trans ?_) (funext fun e => (sets e).2.trans ?_)
      · rw [← own.1, Function.update_eq_self]
        rfl
      · rw [← own.2, Function.update_eq_self]
        rfl

/-- The desk becomes the output's talker. -/
theorem Tbk.grant_only (record : t.records.get d ≠ none) (o : Out) : Tbk.Only o ((t.slice o).taken d) t (t.grant d o) := by
  obtain ⟨r, record⟩ := Option.ne_none_iff_exists'.1 record
  have taken := Tbk.setRecord_only (q := r.take o) (o := o) record rfl fun p other => by simp [TalkRec.take, other]
  have granted := taken.trans (Tbk.setGrant_only _ o (some d))
  rw [taken.slice, if_pos rfl] at granted
  unfold Tbk.grant
  rw [record, Option.map_some]
  have sets : Tbl.get (r.take o).granted o = true ∧ Tbl.get (r.take o).pending o = false := by simp [TalkRec.take]
  rw [sets.1, sets.2] at granted
  exact granted

/-- The desk waits on the output. -/
theorem Tbk.hold_only (record : t.records.get d ≠ none) (o : Out) : Tbk.Only o ((t.slice o).held d) t (t.hold d o) := by
  obtain ⟨r, record⟩ := Option.ne_none_iff_exists'.1 record
  have held := Tbk.setRecord_only (q := r.wait o) (o := o) record rfl fun p other => by simp [TalkRec.wait, other]
  unfold Tbk.hold
  rw [record, Option.map_some]
  have sets : Tbl.get (r.wait o).granted o = false ∧ Tbl.get (r.wait o).pending o = true := by simp [TalkRec.wait]
  rw [sets.1, sets.2] at held
  exact held

/-! ## The desk that receives a freed output (R141) -/

/-- The first desk of the highest priority: none of a list is above it, and none of the same priority before it. -/
theorem bestDesk_spec {priority : PerReq Nat} {before : Desk → Desk → Prop} (refl : ∀ d, before d d) : ∀ {l : List Desk},
    l.Pairwise before → (bestDesk priority l = none ↔ l = []) ∧ ∀ w, bestDesk priority l = some w → w ∈ l ∧
      ∀ x ∈ l, priority.get x.req < priority.get w.req ∨ (priority.get x.req = priority.get w.req ∧ before w x)
  | [], _ => ⟨by simp [bestDesk], fun w e => by cases e⟩
  | d :: ds, sorted => by
    obtain ⟨first, sorted⟩ := List.pairwise_cons.1 sorted
    obtain ⟨empty, best⟩ := bestDesk_spec refl sorted
    unfold bestDesk
    cases rest : bestDesk priority ds with
    | none =>
      rw [rest] at empty
      have none_ : ds = [] := empty.1 rfl
      subst none_
      refine ⟨by simp, fun w e => ?_⟩
      cases e
      exact ⟨List.mem_cons_self, fun x hx => .inr (by obtain rfl := List.mem_singleton.1 hx; exact ⟨rfl, refl _⟩)⟩
    | some v =>
      obtain ⟨mem, top⟩ := best v rest
      dsimp only
      split
      · next lower =>
        refine ⟨by simp, fun w e => ?_⟩
        cases e
        refine ⟨List.mem_cons_of_mem _ mem, fun x hx => ?_⟩
        rcases List.mem_cons.1 hx with rfl | later
        · exact .inl lower
        · exact top x later
      · next notLower =>
        refine ⟨by simp, fun w e => ?_⟩
        cases e
        refine ⟨List.mem_cons_self, fun x hx => ?_⟩
        rcases List.mem_cons.1 hx with rfl | later
        · exact .inr ⟨rfl, refl _⟩
        · rcases top x later with below | ⟨same, -⟩
          · exact .inl (by omega)
          · by_cases equal : priority.get x.req = priority.get d.req
            · exact .inr ⟨equal, first x later⟩
            · exact .inl (by omega)

/-- A desk waits on an output only if its pending set is not empty: the Talk Queue holds it (R137). -/
theorem Tbk.queue_pending (t : Tbk) (o : Out) : (t.queue.filter fun d => t.pendingOn d o) = t.order.filter (t.pendingOn · o) := by
  unfold Tbk.queue
  rw [List.filter_filter]
  refine List.filter_congr fun d _ => ?_
  cases waits : t.pendingOn d o with
  | false => rfl
  | true =>
    rw [Tbk.pendingOn_eq] at waits
    cases record : t.records.get d with
    | none => simp [record] at waits
    | some r =>
      have waits : Tbl.get r.pending o = true := by simpa [record] using waits
      have some_ : (BitSet.members r.pending).isEmpty = false := by
        rw [← Bool.not_eq_true, members_isEmpty]
        exact fun none_ => by rw [none_ o] at waits; cases waits
      simp [some_]

/-- An output freed: to the best desk of those that wait, or empty (R141, steps 2 and 3). -/
def Slice.offered (priority : PerReq Nat) (order : List Desk) (s : Slice) : Slice :=
  match bestDesk priority (order.filter s.pending) with
  | none => { s with talker := none }
  | some d => s.taken d

theorem Tbk.offer_only (priority : PerReq Nat) (t : Tbk) (o : Out) :
    Tbk.Only o ((t.slice o).offered priority t.order) t (t.offer priority o) := by
  unfold Tbk.offer Slice.offered
  rw [Tbk.queue_pending]
  have pending : (t.slice o).pending = (t.pendingOn · o) := rfl
  rw [pending]
  cases best : bestDesk priority (t.order.filter (t.pendingOn · o)) with
  | none => exact Tbk.setGrant_only t o none
  | some d =>
    obtain ⟨-, top⟩ := bestDesk_spec (priority := priority) (before := fun _ _ => True) (fun _ => trivial)
      (List.pairwise_of_forall (l := t.order.filter (t.pendingOn · o)) fun _ _ => trivial)
    obtain ⟨mem, -⟩ := top d best
    exact Tbk.grant_only (Tbk.record_of_pending (List.mem_filter.1 mem).2) o

/-! ## A destination of a TALK_ON (R139) -/

/-- A destination taken from no talker or one of lower priority, which then waits for it; or waited for. -/
def Slice.destined (priority : PerReq Nat) (d : Desk) (s : Slice) : Slice :=
  match s.talker with
  | none => s.taken d
  | some x =>
    if x = d then s.taken d
    else if priority.get x.req < priority.get d.req then (s.held x).taken d
    else s.held d

theorem Tbk.destination_only (priority : PerReq Nat) (record : t.records.get d ≠ none)
    (talks : ∀ x, (t.slice o).talker = some x → t.records.get x ≠ none) :
    Tbk.Only o ((t.slice o).destined priority d) t (t.destination priority d o) := by
  have talker : (t.slice o).talker = Tbl.get t.grants o := rfl
  unfold Tbk.destination Slice.destined
  rw [talker] at talks ⊢
  cases grant : Tbl.get t.grants o with
  | none => exact Tbk.grant_only record o
  | some x =>
    dsimp only
    split
    · exact Tbk.grant_only record o
    · split
      · have held := Tbk.hold_only (talks x grant) o
        have still : (t.hold x o).records.get d ≠ none := fun e => record ((Tbk.outline_none held.outline).1 e)
        have taken := held.trans (Tbk.grant_only still o)
        rwa [held.slice, if_pos rfl] at taken
      · exact Tbk.hold_only record o

/-! ## Lists of outputs -/

/-- A sequence of operations, each on one output, acts on each of its outputs alone. -/
theorem Tbk.foldl_slice {f : Tbk → Out → Tbk} {g : Slice → Slice} {able : Slice → Prop} (t : Tbk)
    (only : ∀ u o, u.outline = t.outline → able (u.slice o) → Tbk.Only o (g (u.slice o)) u (f u o)) :
    ∀ (l : List Out), l.Nodup → (∀ o ∈ l, able (t.slice o)) →
      (l.foldl f t).outline = t.outline ∧ ∀ o, (l.foldl f t).slice o = if o ∈ l then g (t.slice o) else t.slice o := by
  have all (l : List Out) : ∀ u : Tbk, u.outline = t.outline → l.Nodup → (∀ o ∈ l, able (u.slice o)) →
      (l.foldl f u).outline = t.outline ∧ ∀ o, (l.foldl f u).slice o = if o ∈ l then g (u.slice o) else u.slice o := by
    induction l with
    | nil => exact fun u same _ _ => ⟨same, fun o => by simp⟩
    | cons p l ih =>
      intro u same nodup each
      obtain ⟨apart, nodup⟩ := List.nodup_cons.1 nodup
      have one := only u p same (each p List.mem_cons_self)
      have others {o : Out} (ho : o ∈ l) : (f u p).slice o = u.slice o :=
        (one.slice o).trans (if_neg (by rintro rfl; exact apart ho))
      obtain ⟨outline, slices⟩ := ih (f u p) (one.outline.trans same) nodup
        fun o ho => by rw [others ho]; exact each o (List.mem_cons_of_mem _ ho)
      refine ⟨outline, fun o => (slices o).trans ?_⟩
      by_cases later : o ∈ l
      · rw [if_pos later, if_pos (List.mem_cons_of_mem _ later), others later]
      · rw [if_neg later, one.slice]
        by_cases own : o = p
        · subst own; simp
        · rw [if_neg own, if_neg (by simp [own, later])]
  exact fun l => all l t rfl

theorem members_nodup {n : Nat} (v : BitSet n) : (BitSet.members v).Nodup := (List.nodup_finRange n).filter _

theorem Tbk.mem_grantedTo : o ∈ t.grantedTo d ↔ t.grantedOn d o = true := by
  unfold Tbk.grantedTo Tbk.grantedOn
  cases t.records.get d <;> simp

theorem Tbk.grantedTo_nodup (t : Tbk) (d : Desk) : (t.grantedTo d).Nodup := by
  unfold Tbk.grantedTo
  split
  · exact List.nodup_nil
  · exact members_nodup _

/-! ## A record set aside -/

/-- A record removed, or replaced by one without sets. -/
theorem Tbk.setRecord_without {x : Option TalkRec}
    (empty : ∀ r, x = some r → ∀ o, Tbl.get r.granted o = false ∧ Tbl.get r.pending o = false) (o : Out) :
    (t.setRecord d x).slice o = (t.slice o).without d := by
  refine Slice.ext rfl (funext fun e => ?_) (funext fun e => ?_)
  · show (t.setRecord d x).grantedOn e o = Function.update (t.grantedOn · o) d false e
    rw [Function.update_apply]
    unfold Tbk.grantedOn
    rw [Tbk.setRecord_records]
    split
    · cases x with
      | none => rfl
      | some r => exact (empty r rfl o).1
    · rfl
  · show (t.setRecord d x).pendingOn e o = Function.update (t.pendingOn · o) d false e
    rw [Function.update_apply, Tbk.pendingOn_eq, Tbk.pendingOn_eq, Tbk.setRecord_records]
    split
    · cases x with
      | none => rfl
      | some r => exact (empty r rfl o).2
    · rfl

/-- The present records by arrival, without a desk's. -/
def Tbk.orderWithout (t : Tbk) (d : Desk) : List Desk := t.order.filter fun x => !decide (x = d)

/-- TBK with a desk's record removed, its outputs not yet freed. -/
def Tbk.dropped (t : Tbk) (d : Desk) : Tbk := { t.setRecord d none with order := t.orderWithout d }

/-- A record removed (R141): each output it held is offered. -/
theorem Tbk.remove_slice (priority : PerReq Nat) (t : Tbk) (d : Desk) :
    (t.remove priority d).outline = (t.dropped d).outline ∧
    ∀ o, (t.remove priority d).slice o =
      if t.grantedOn d o = true then ((t.slice o).without d).offered priority (t.orderWithout d) else (t.slice o).without d := by
  have slice (o : Out) : (t.dropped d).slice o = (t.slice o).without d :=
    Tbk.setRecord_without (t := t) (d := d) (x := none) nofun o
  obtain ⟨outline, slices⟩ := Tbk.foldl_slice (f := Tbk.offer priority) (g := Slice.offered priority (t.orderWithout d))
    (able := fun _ => True) (t.dropped d) (fun u o same _ => by
      have only := Tbk.offer_only priority u o
      obtain ⟨order, -⟩ := Tbk.outline_fields same
      rwa [show u.order = t.orderWithout d from order] at only) (t.grantedTo d) (t.grantedTo_nodup d) fun _ _ => trivial
  refine ⟨outline, fun o => (slices o).trans ?_⟩
  rw [slice]
  simp only [Tbk.mem_grantedTo]

/-- TBK with the new record of a TALK_ON carried out (R139, steps 1 to 4). -/
def Tbk.talkOn (priority : PerReq Nat) (t : Tbk) (d : Desk) (set : BitSet 32) (duck : Nat) (deadline : Option Frame) : Tbk :=
  ((t.begin d set duck deadline).takeAll priority d set).giveUp priority (t.grantedTo d) set

/-- The destinations taken (R139, step 3). -/
theorem Tbk.takeAll_slice (priority : PerReq Nat) {set : BitSet 32} (record : t.records.get d ≠ none)
    (talks : ∀ o, Tbl.get set o = true → ∀ x, (t.slice o).talker = some x → t.records.get x ≠ none) :
    (t.takeAll priority d set).outline = t.outline ∧
    ∀ o, (t.takeAll priority d set).slice o =
      if Tbl.get set o = true then (t.slice o).destined priority d else t.slice o := by
  obtain ⟨outline, slices⟩ := Tbk.foldl_slice (f := Tbk.destination priority d) (g := Slice.destined priority d)
    (able := fun s => ∀ x, s.talker = some x → t.records.get x ≠ none) t (fun u o same able => by
      have still {x : Desk} (e : t.records.get x ≠ none) : u.records.get x ≠ none := fun n => e ((Tbk.outline_none same).1 n)
      exact Tbk.destination_only priority (still record) fun x talker => still (able x talker))
    (BitSet.members set) (members_nodup set) fun o ho => talks o ((BitSet.mem_members ..).1 ho)
  refine ⟨outline, fun o => (slices o).trans ?_⟩
  simp only [BitSet.mem_members]

/-- The outputs that the desk held and no longer names, freed (R139, step 4). -/
theorem Tbk.giveUp_slice (priority : PerReq Nat) (t : Tbk) {held : List Out} (nodup : held.Nodup) (set : BitSet 32) :
    (t.giveUp priority held set).outline = t.outline ∧
    ∀ o, (t.giveUp priority held set).slice o =
      if o ∈ held ∧ Tbl.get set o = false then (t.slice o).offered priority t.order else t.slice o := by
  obtain ⟨outline, slices⟩ := Tbk.foldl_slice (f := Tbk.offer priority) (g := Slice.offered priority t.order)
    (able := fun _ => True) t (fun u o same _ => by
      have only := Tbk.offer_only priority u o
      obtain ⟨order, -⟩ := Tbk.outline_fields same
      rwa [order] at only) (held.filter fun o => !Tbl.get set o) (nodup.filter _) fun _ _ => trivial
  refine ⟨outline, fun o => (slices o).trans ?_⟩
  simp

end

end Sys2Proof.Machine
end

/-!
The Talk Grant map, the talk records and the outputs' talkers agree (R126, R134, R135, R137): what a record begun, taken away
and its outputs offered make of one output; with them every step.
-/
section
namespace Sys2Proof.Machine

/-! ## One output -/

/-- The grant and the records agree on an output: `names` are the desks among whose destinations it is (R134, R135). -/
structure Slice.Ok (names : Desk → Bool) (s : Slice) : Prop where
  granted : ∀ e, s.granted e = true ↔ s.talker = some e
  named : ∀ e, names e = true ↔ s.granted e = true ∨ s.pending e = true
  apart : ∀ e, s.pending e = true → s.granted e = false
  occupied : ∀ e, s.pending e = true → s.talker ≠ none

section
variable {names : Desk → Bool} {s : Slice} {d : Desk}

/-- A desk that has or wants nothing of an output is none of its. -/
theorem Slice.Ok.without (ok : s.Ok names) (other : s.talker ≠ some d) : (s.without d).Ok (Function.update names d false) := by
  obtain ⟨granted, named, apart, occupied⟩ := ok
  refine ⟨fun e => ?_, fun e => ?_, fun e => ?_, fun e => ?_⟩ <;> by_cases own : e = d
  · subst own; simp [Slice.without, other]
  · simpa [Slice.without, own] using granted e
  · simp [Slice.without, own]
  · simpa [Slice.without, own] using named e
  · simp [Slice.without, own]
  · simpa [Slice.without, own] using apart e
  · simp [Slice.without, own]
  · simpa [Slice.without, own] using occupied e

/-- A desk that takes an output nobody else has. -/
theorem Slice.Ok.taken (named : ∀ e, names e = true ↔ e = d ∨ s.pending e = true)
    (free : ∀ e, e ≠ d → s.granted e = false) : (s.taken d).Ok names := by
  refine ⟨fun e => ?_, fun e => ?_, fun e => ?_, fun e => ?_⟩ <;> by_cases own : e = d
  · subst own; simp [Slice.taken]
  · simp [Slice.taken, own, free e own, Ne.symm own]
  · subst own; simp [Slice.taken, named]
  · simp [Slice.taken, own, named, free e own]
  · simp [Slice.taken, own]
  · simp [Slice.taken, own, free e own]
  · simp [Slice.taken]
  · simp [Slice.taken]

/-- An output given up and offered: `order` holds every other desk that waits on it (R141). -/
theorem Slice.Ok.offered (ok : s.Ok names) (own : s.talker = some d) (priority : PerReq Nat) {order : List Desk}
    (covers : ∀ e, e ≠ d → s.pending e = true → e ∈ order) :
    ((s.without d).offered priority order).Ok (Function.update names d false) := by
  obtain ⟨granted, named, -, -⟩ := ok
  have free (e : Desk) : (s.without d).granted e = false := by
    by_cases same : e = d
    · simp [Slice.without, same]
    · have : s.granted e ≠ true := fun g => same (Option.some.inj (((granted e).1 g).symm.trans own))
      simpa [Slice.without, same] using this
  have named' (e : Desk) : Function.update names d false e = true ↔ (s.without d).pending e = true := by
    by_cases same : e = d
    · simp [Slice.without, same]
    · have : s.granted e = false := by simpa [Slice.without, same] using free e
      simpa [Slice.without, same, this] using named e
  obtain ⟨empty, top⟩ := bestDesk_spec (priority := priority) (before := fun _ _ => True) (fun _ => trivial)
    (List.pairwise_of_forall (l := order.filter (s.without d).pending) fun _ _ => trivial)
  unfold Slice.offered
  cases best : bestDesk priority (order.filter (s.without d).pending) with
  | none =>
    have unwanted (e : Desk) : (s.without d).pending e = false := by
      by_contra waits
      have waits : (s.without d).pending e = true := by simpa using waits
      have other : e ≠ d := fun same => by simp [Slice.without, same] at waits
      have mem : e ∈ order := covers e other (by simpa [Slice.without, other] using waits)
      exact absurd (List.mem_filter.2 ⟨mem, waits⟩) (by simp [empty.1 best])
    exact ⟨fun e => by simp [free e], fun e => by simp [named', free e, unwanted e], fun e => by simp [unwanted e],
      fun e => by simp [unwanted e]⟩
  | some w =>
    obtain ⟨mem, -⟩ := top w best
    refine Slice.Ok.taken (fun e => ?_) fun e _ => free e
    rw [named']
    exact ⟨.inr, fun h => h.elim (fun same => same ▸ (List.mem_filter.1 mem).2) id⟩

/-- A destination named by a desk whose record is new (R139, step 3). -/
theorem Slice.Ok.destined (ok : s.Ok names) (priority : PerReq Nat) :
    ((s.without d).destined priority d).Ok (Function.update names d true) := by
  obtain ⟨granted, named, apart, occupied⟩ := ok
  have talker : (s.without d).talker = s.talker := rfl
  have pending {e : Desk} (other : e ≠ d) : (s.without d).pending e = s.pending e := by simp [Slice.without, other]
  have sets {e : Desk} (other : e ≠ d) : (s.without d).granted e = s.granted e := by simp [Slice.without, other]
  have alone (free : ∀ e, e ≠ d → s.talker ≠ some e) : ((s.without d).taken d).Ok (Function.update names d true) := by
    have none_ {e : Desk} (other : e ≠ d) : s.granted e = false := by
      simpa using fun g => free e other ((granted e).1 g)
    refine Slice.Ok.taken (fun e => ?_) fun e other => (sets other).trans (none_ other)
    by_cases own : e = d
    · simp [own]
    · simp [own, pending own, named, none_ own]
  unfold Slice.destined
  rw [talker]
  cases has : s.talker with
  | none => exact alone fun e _ => by simp [has]
  | some x =>
    dsimp only
    split
    · next own => exact alone fun e other => by simp [has, own, Ne.symm other]
    · next other =>
      have mine : s.granted x = true := (granted x).2 has
      have none_ {e : Desk} (apart : e ≠ x) : s.granted e = false := by
        simpa using fun g => apart (Option.some.inj (((granted e).1 g).symm.trans has))
      split
      · refine Slice.Ok.taken (fun e => ?_) fun e off => ?_
        · by_cases own : e = d
          · simp [own]
          · by_cases same : e = x
            · simp [same, other, Slice.held, named, mine]
            · simp [own, same, Slice.held, pending own, named, none_ same]
        · by_cases same : e = x
          · simp [Slice.held, same]
          · simp [Slice.held, same, sets off, none_ same]
      · refine ⟨fun e => ?_, fun e => ?_, fun e => ?_, fun e => ?_⟩ <;> by_cases own : e = d
        · simp [Slice.held, own, talker, has, other]
        · simpa [Slice.held, own, sets own, talker] using granted e
        · simp [Slice.held, own]
        · simpa [Slice.held, own, sets own, pending own] using named e
        · simp [Slice.held, own]
        · simpa [Slice.held, own, sets own, pending own] using apart e
        · simp [Slice.held, talker, has]
        · simp [Slice.held, talker, has]

end

/-! ## The Talkback Unit -/

/-- The Talk Grant map and the records agree (R134, R135, R137). -/
structure Tbk.Agrees (t : Tbk) : Prop where
  slice : ∀ o, (t.slice o).Ok (t.names · o)
  nodup : t.order.Nodup
  mem : ∀ d, d ∈ t.order ↔ t.records.get d ≠ none

section
variable {t u : Tbk} {d : Desk} {o : Out} {priority : PerReq Nat}

theorem Tbk.Agrees.granted_iff (ok : t.Agrees) : t.grantedOn d o = true ↔ Tbl.get t.grants o = some d := (ok.slice o).granted d

/-- A talker has a record. -/
theorem Tbk.Agrees.talker_record (ok : t.Agrees) (talks : Tbl.get t.grants o = some d) : t.records.get d ≠ none :=
  Tbk.record_of_granted (ok.granted_iff.2 talks)

theorem Tbk.mem_orderWithout {e : Desk} : e ∈ t.orderWithout d ↔ e ∈ t.order ∧ e ≠ d := by simp [Tbk.orderWithout]

theorem Tbk.setRecord_names {x : Option TalkRec} {b : Bool} (named : (x.any fun r => Tbl.get r.destinations o) = b) :
    (fun e => (t.setRecord d x).names e o) = Function.update (t.names · o) d b := by
  funext e
  unfold Tbk.names
  rw [Tbk.setRecord_records, Function.update_apply]
  split
  · exact named
  · rfl

/-- A record removed, its outputs offered, leaves agreement (R141). -/
theorem Tbk.Agrees.remove (ok : t.Agrees) (priority : PerReq Nat) (d : Desk) : (t.remove priority d).Agrees := by
  obtain ⟨outline, slices⟩ := t.remove_slice priority d
  obtain ⟨order, -⟩ := Tbk.outline_fields outline
  have order : (t.remove priority d).order = t.orderWithout d := order
  refine ⟨fun o => ?_, ?_, fun e => ?_⟩
  · have names : (fun e => (t.remove priority d).names e o) = Function.update (t.names · o) d false := by
      exact (funext fun e => Tbk.outline_names outline e o).trans (Tbk.setRecord_names (t := t) (x := none) rfl)
    rw [names, slices]
    split
    · next held =>
      refine (ok.slice o).offered (ok.granted_iff.1 held) priority fun e other waits => ?_
      exact Tbk.mem_orderWithout.2 ⟨(ok.mem e).2 (Tbk.record_of_pending waits), other⟩
    · next free => exact (ok.slice o).without fun own => free (ok.granted_iff.2 own)
  · rw [order]
    exact ok.nodup.filter _
  · have record : (t.remove priority d).records.get e = none ↔ (t.dropped d).records.get e = none := Tbk.outline_none outline
    have own : (t.dropped d).records.get e = if e = d then none else t.records.get e := Tbk.setRecord_records ..
    rw [order, Tbk.mem_orderWithout, ok.mem, Ne, Ne, Ne, record, own]
    split <;> simp_all

/-- The record that a TALK_ON begins (R136, R139). -/
def Tbk.newRecord (t : Tbk) (set : BitSet 32) (duck : Nat) (deadline : Option Frame) : TalkRec :=
  ⟨set, duck, t.arrival, BitSet.empty 32, BitSet.empty 32, deadline⟩

theorem Tbk.begin_slice (t : Tbk) (d : Desk) (set : BitSet 32) (duck : Nat) (deadline : Option Frame) (o : Out) :
    (t.begin d set duck deadline).slice o = (t.slice o).without d :=
  Tbk.setRecord_without (t := t) (x := some (t.newRecord set duck deadline)) (fun r e p => by cases e; simp [Tbk.newRecord]) o

/-- The fields that a TALK_ON sets besides the grants and the sets of the records. -/
theorem Tbk.begin_fields (t : Tbk) (d : Desk) (set : BitSet 32) (duck : Nat) (deadline : Option Frame) :
    (t.begin d set duck deadline).order = t.orderWithout d ++ [d] ∧ (t.begin d set duck deadline).arrival = t.arrival + 1#32 ∧
    ∀ e, (t.begin d set duck deadline).records.get e =
      if e = d then some (t.newRecord set duck deadline) else t.records.get e :=
  ⟨rfl, rfl, fun _ => Tbk.setRecord_records ..⟩

/-- The steps of a TALK_ON, output by output (R139, R141). -/
theorem Tbk.Agrees.talkOn_slice (ok : t.Agrees) (priority : PerReq Nat) (d : Desk) (set : BitSet 32) (duck : Nat)
    (deadline : Option Frame) :
    let t1 := t.begin d set duck deadline
    let t2 := t1.takeAll priority d set
    let t3 := t.talkOn priority d set duck deadline
    t2.outline = t1.outline ∧ t3.outline = t1.outline ∧
    (∀ o, t2.slice o =
      if Tbl.get set o = true then ((t.slice o).without d).destined priority d else (t.slice o).without d) ∧
    ∀ o, t3.slice o =
      if Tbl.get set o = true then ((t.slice o).without d).destined priority d
      else if t.grantedOn d o = true then ((t.slice o).without d).offered priority (t.orderWithout d ++ [d])
      else (t.slice o).without d := by
  intro t1 t2 t3
  obtain ⟨order, -, records⟩ := t.begin_fields d set duck deadline
  have begun (o : Out) : t1.slice o = (t.slice o).without d := t.begin_slice d set duck deadline o
  have record : t1.records.get d ≠ none := by simp [t1, records]
  obtain ⟨outline, slices⟩ := Tbk.takeAll_slice (t := t1) priority (set := set) record fun o _ x talks => by
    rw [begun] at talks
    rw [records]
    split
    · simp
    · exact ok.talker_record talks
  obtain ⟨outline', slices'⟩ := Tbk.giveUp_slice priority t2 (t.grantedTo_nodup d) set
  have taken (o : Out) : t2.slice o =
      if Tbl.get set o = true then ((t.slice o).without d).destined priority d else (t.slice o).without d := by
    rw [← begun]
    exact slices o
  refine ⟨outline, outline'.trans outline, taken, fun o => (slices' o).trans ?_⟩
  obtain ⟨same, -⟩ := Tbk.outline_fields outline
  rw [taken, same, order]
  by_cases named : Tbl.get set o = true
  · simp [named]
  · simp [named, Tbk.mem_grantedTo]

/-- A TALK_ON leaves agreement (R139). -/
theorem Tbk.Agrees.talkOn (ok : t.Agrees) (priority : PerReq Nat) (d : Desk) (set : BitSet 32) (duck : Nat)
    (deadline : Option Frame) : (t.talkOn priority d set duck deadline).Agrees := by
  obtain ⟨-, outline, -, slices⟩ := ok.talkOn_slice priority d set duck deadline
  obtain ⟨order, -⟩ := Tbk.outline_fields outline
  obtain ⟨began, -, records⟩ := t.begin_fields d set duck deadline
  rw [began] at order
  refine ⟨fun o => ?_, ?_, fun e => ?_⟩
  · have names : (fun e => (t.talkOn priority d set duck deadline).names e o) =
        Function.update (t.names · o) d (Tbl.get set o) := by
      exact (funext fun e => Tbk.outline_names outline e o).trans
        (Tbk.setRecord_names (t := t) (x := some (t.newRecord set duck deadline)) rfl)
    rw [names, slices]
    split
    · next named =>
      rw [named]
      exact (ok.slice o).destined priority
    · next unnamed =>
      rw [show Tbl.get set o = false by simpa using unnamed]
      split
      · next held =>
        refine (ok.slice o).offered (ok.granted_iff.1 held) priority fun e other waits => ?_
        exact List.mem_append_left _ (Tbk.mem_orderWithout.2 ⟨(ok.mem e).2 (Tbk.record_of_pending waits), other⟩)
      · next free => exact (ok.slice o).without fun own => free (ok.granted_iff.2 own)
  · rw [order, ← List.concat_eq_append]
    exact (ok.nodup.filter _).concat fun own => (Tbk.mem_orderWithout.1 own).2 rfl
  · have record : (t.talkOn priority d set duck deadline).records.get e = none ↔ _ := Tbk.outline_none outline
    rw [order, List.mem_append, Tbk.mem_orderWithout, ok.mem, Ne, Ne, Ne, record, records]
    split <;> simp_all

/-- An output's talker is its entry in the Talk Grant map, with the duck of the desk's record. -/
theorem Tbk.Agrees.talkAt (ok : t.Agrees) (o : Out) : t.talkAt o = (Tbl.get t.grants o).map fun d => (d, t.duckOf d) := by
  unfold Tbk.talkAt
  cases talks : Tbl.get t.grants o with
  | none => rfl
  | some d =>
    obtain ⟨r, record⟩ := Option.ne_none_iff_exists'.1 (ok.talker_record talks)
    simp [record, Tbk.duckOf]

end

/-! ## The outputs' talkers (R126) -/

/-- Talk agrees with the links and the outputs. -/
structure Hub.TalkFit (h : Hub) : Prop where
  talk : h.tbk.Agrees
  up : ∀ d, h.tbk.records.get d ≠ none → h.linkUp d = true
  talker : ∀ o, (h.mon.output o).talker = Tbl.get h.tbk.grants o

theorem Hub.talkFit_iff {h : Hub} : h.TalkFit ↔ h.TalkOk := by
  have pending {d : Desk} {o : Out} {r : TalkRec} (record : h.tbk.records.get d = some r) :
      h.tbk.pendingOn d o = Tbl.get r.pending o ∧ h.tbk.grantedOn d o = Tbl.get r.granted o ∧
        h.tbk.names d o = Tbl.get r.destinations o := by
    simp [Tbk.pendingOn_eq, Tbk.grantedOn, Tbk.names, record]
  have absent {d : Desk} {o : Out} (record : h.tbk.records.get d = none) :
      h.tbk.pendingOn d o = false ∧ h.tbk.grantedOn d o = false ∧ h.tbk.names d o = false := by
    simp [Tbk.pendingOn_eq, Tbk.grantedOn, Tbk.names, record]
  constructor
  · rintro ⟨⟨slice, nodup, mem⟩, up, talker⟩
    refine ⟨fun d r record => ⟨up d (by simp [record]), fun o => ?_⟩, fun o d talks => ⟨?_, (talker o).trans talks⟩,
      fun o empty => (talker o).trans empty, nodup, mem⟩
    · obtain ⟨waits, has, named⟩ := pending (o := o) record
      rw [← waits, ← has, ← named]
      have ok := slice o
      refine ⟨ok.granted d, ok.named d, fun both => ?_, ok.occupied d⟩
      have : h.tbk.grantedOn d o = false := ok.apart d both.2
      rw [this] at both
      cases both.1
    · exact Tbk.record_of_granted (((slice o).granted d).2 talks)
  · rintro ⟨records, grants, empty, nodup, mem⟩
    refine ⟨⟨fun o => ⟨fun d => ?_, fun d => ?_, fun d => ?_, fun d => ?_⟩, nodup, mem⟩, fun d record => ?_, fun o => ?_⟩
    · show h.tbk.grantedOn d o = true ↔ Tbl.get h.tbk.grants o = some d
      cases record : h.tbk.records.get d with
      | none =>
        rw [(absent record).2.1]
        exact ⟨nofun, fun talks => absurd record (grants o d talks).1⟩
      | some r =>
        rw [(pending record).2.1]
        exact ((records d r record).2 o).1
    · show h.tbk.names d o = true ↔ h.tbk.grantedOn d o = true ∨ h.tbk.pendingOn d o = true
      cases record : h.tbk.records.get d with
      | none => simp [absent record]
      | some r =>
        obtain ⟨waits, has, named⟩ := pending (o := o) record
        rw [waits, has, named]
        exact ((records d r record).2 o).2.1
    · show h.tbk.pendingOn d o = true → h.tbk.grantedOn d o = false
      cases record : h.tbk.records.get d with
      | none => simp [absent record]
      | some r =>
        obtain ⟨waits, has, -⟩ := pending (o := o) record
        obtain ⟨-, -, apart, -⟩ := (records d r record).2 o
        rw [waits, has]
        exact fun p => by simpa using fun g => apart ⟨g, p⟩
    · show h.tbk.pendingOn d o = true → Tbl.get h.tbk.grants o ≠ none
      cases record : h.tbk.records.get d with
      | none => simp [absent record]
      | some r =>
        rw [(pending record).1]
        exact ((records d r record).2 o).2.2.2
    · obtain ⟨r, record⟩ := Option.ne_none_iff_exists'.1 record
      exact (records d r record).1
    · cases talks : Tbl.get h.tbk.grants o with
      | none => exact empty o talks
      | some d => exact (grants o d talks).2

section
variable {h k : Hub}

theorem Hub.TalkFit.of_air (fit : h.TalkFit) (e : k.air = h.air) : k.TalkFit := by
  obtain ⟨⟨slice, nodup, mem⟩, up, talker⟩ := fit
  have records : k.tbk.records = h.tbk.records := congrArg Air.records e
  have grants : k.tbk.grants = h.tbk.grants := congrArg Air.grants e
  have order : k.tbk.order = h.tbk.order := congrArg Air.order e
  have outputs : k.mon.outputs = h.mon.outputs := congrArg Air.outputs e
  have linkUp : k.linkUp = h.linkUp := congrArg Air.up e
  refine ⟨⟨fun o => ?_, by rwa [order], fun d => by rw [order, records]; exact mem d⟩,
    fun d => by rw [records, linkUp]; exact up d, fun o => by rw [Mon.output, outputs, grants]; exact talker o⟩
  have own := slice o
  unfold Tbk.slice Tbk.names Tbk.grantedOn Tbk.pendingOn at own ⊢
  rwa [records, grants]

/-- An event of MON leaves talk, where no output's talker changes and no link leaves UP. -/
theorem Hub.TalkFit.of_outputs (fit : h.TalkFit) (tbk : k.tbk = h.tbk) (up : ∀ d, h.linkUp d = true → k.linkUp d = true)
    (talker : ∀ o, (k.mon.output o).talker = (h.mon.output o).talker) : k.TalkFit := by
  obtain ⟨talk, linked, talks⟩ := fit
  refine ⟨tbk ▸ talk, fun d record => up d (linked d ?_), fun o => (talker o).trans ?_⟩
  · rwa [tbk] at record
  · rw [tbk]
    exact talks o

/-- The outputs take the talkers of new records and grants. -/
theorem handTalk_talkFit {t : Tbk} (before : h.tbk.Agrees) (talker : ∀ o, (h.mon.output o).talker = Tbl.get h.tbk.grants o)
    (talk : t.Agrees) (up : ∀ d, t.records.get d ≠ none → h.linkUp d = true) : (handTalk t h).TalkFit := by
  have desk {x : Option Desk} {f : Desk → Nat} : (x.map fun d => (d, f d)).map (·.1) = x := by cases x <;> rfl
  have tbk : (handTalk t h).tbk = t := by rw [handTalk]
  have linked : (handTalk t h).linkUp = h.linkUp := Hub.linkUp_of_links (handTalk_links ..)
  refine ⟨by rwa [tbk], by rwa [tbk, linked], fun o => ?_⟩
  have own : (handTalk t h).mon.output o =
      if h.tbk.talkAt o = t.talkAt o then h.mon.output o else (h.mon.output o).setTalker (t.talkAt o) := Tbl.get_of ..
  have now : (t.talkAt o).map (·.1) = Tbl.get t.grants o := by rw [talk.talkAt, desk]
  rw [own, tbk]
  split
  · next same => rw [talker, ← now, ← same, before.talkAt, desk]
  · exact now

/-- A desk's talk ends: the records of the other desks stand on links that are UP. -/
theorem endTalk_talkFit (talk : h.tbk.Agrees) (talker : ∀ o, (h.mon.output o).talker = Tbl.get h.tbk.grants o) {d : Desk}
    (up : ∀ e, e ≠ d → h.tbk.records.get e ≠ none → h.linkUp e = true) (cause : TalkCause) : (endTalk d cause h).TalkFit := by
  unfold endTalk
  split
  · next none_ =>
    refine ⟨talk, fun e record => up e (fun same => ?_) record, talker⟩
    rw [same] at record
    exact record none_
  · obtain ⟨outline, -⟩ := h.tbk.remove_slice h.sto.install.priority d
    refine (handTalk_talkFit talk talker (talk.remove ..) fun e record => ?_).of_air (notifyEach_air ..)
    rw [Ne, Tbk.outline_none outline, show (h.tbk.dropped d).records.get e = _ from Tbk.setRecord_records ..] at record
    split at record
    · exact absurd rfl record
    · next other => exact up e other record

theorem carryTalkOn_talkFit (fit : h.TalkFit) {d : Desk} (linked : h.linkUp d = true) (set : BitSet 32) (duck : Nat) :
    (carryTalkOn d set duck h).TalkFit := by
  obtain ⟨talk, up, talker⟩ := fit
  obtain ⟨-, outline, -⟩ := talk.talkOn_slice h.sto.install.priority d set duck
    (talkDeadline h.now h.sto.install.talkTimeout)
  refine (handTalk_talkFit talk talker (talk.talkOn ..) fun e record => ?_).of_air (notifyEach_air ..)
  obtain ⟨-, -, records⟩ := h.tbk.begin_fields d set duck (talkDeadline h.now h.sto.install.talkTimeout)
  rw [Ne, Tbk.outline_none outline, records] at record
  split at record
  · next same => exact same ▸ linked
  · exact up e record

/-! ## What MON leaves of talk -/

theorem Output.retarget_talker (o : Output) (bySetPatch : Bool) (t : Target) :
    (o.retarget bySetPatch t).talker = o.talker := by
  unfold Output.retarget Output.retargetNone Output.retargetSource
  dsimp only
  repeat' split
  all_goals rfl

theorem Output.startRevert_talker (o : Output) (now : Frame) (delay : Nat) (up : Desk → Bool) :
    (o.startRevert now delay up).talker = o.talker := by
  unfold Output.startRevert
  split <;> rfl

theorem Output.linkLeaves_talker (o : Output) (up : Desk → Bool) (d : Desk) : (o.linkLeaves up d).talker = o.talker := by
  unfold Output.linkLeaves
  repeat' split
  · rfl
  · exact o.loseSource.retarget_talker ..
  · exact o.retarget_talker ..
  · rfl
  · rfl

theorem Output.linkEnters_talker (o : Output) (up : Desk → Bool) : (o.linkEnters up).talker = o.talker := by
  unfold Output.linkEnters
  repeat' split
  · rfl
  · exact o.retarget_talker ..
  · rfl

theorem Output.fadeEnd_talker (o : Output) : o.fadeEnd.talker = o.talker := by
  unfold Output.fadeEnd
  repeat' split
  all_goals rfl

theorem Output.stepped_talker (o : Output) : o.fadeStep.duckStep.talker = o.talker := by
  unfold Output.duckStep Output.fadeStep
  dsimp only
  repeat' split
  all_goals rfl

theorem commitMon_talkFit (fit : h.TalkFit) {outs : Vector Output 32}
    (talker : ∀ o, (Tbl.get outs o).talker = (h.mon.output o).talker) (byEnable : Bool) : (commitMon byEnable outs h).TalkFit := by
  refine fit.of_outputs (commitMon_tbk ..) (fun d => ?_) fun o => ?_
  · rw [Hub.linkUp_of_links (commitMon_links ..)]
    exact id
  · rw [commitMon_output, Output.startRevert_talker, talker]

theorem commitMon_withOutput_talkFit (fit : h.TalkFit) {i : Out} {o : Output} (talker : o.talker = (h.mon.output i).talker)
    (byEnable : Bool) : (commitMon byEnable (h.mon.withOutput i o) h).TalkFit := by
  refine commitMon_talkFit fit (fun j => ?_) byEnable
  rw [Mon.withOutput_get]
  split
  · next same => rw [same, talker]
  · rfl

theorem safeMute_talkFit (fit : h.TalkFit) (cause : SafeCause) : (safeMute cause h).TalkFit := by
  refine fit.of_outputs (safeMute_airs ..).2 (fun d up => ?_) fun o => ?_
  · rwa [Hub.linkUp_of_links (safeMute_links ..)]
  · rw [safeMute_output]
    split <;> rfl

/-- TBK at a desk's link leaving UP, behind MON (R116, R144). -/
theorem leavesUp_talkFit {b : Hub} {d : Desk} (turned : b.Turned d false k) (fit : b.TalkFit) :
    (tbkLeavesUp d (monLeavesUp d k)).TalkFit := by
  obtain ⟨airs, tbk, outputs⟩ := monLeavesUp_spec d k
  have up : (monLeavesUp d k).linkUp = k.linkUp := Hub.linkUp_of_links (congrArg (fun s => s.2.2.1) airs.steady)
  have whole : Hub.air { k with links := b.links } = b.air := by
    have : k.air = _ := turned
    simp only [Hub.air, Air.mk.injEq] at this ⊢
    exact ⟨rfl, this.2⟩
  obtain ⟨talk, linked, talker⟩ := fit.of_air whole
  refine endTalk_talkFit (by rw [tbk]; exact talk) (fun o => ?_) (fun e other record => ?_) _
  · rw [outputs, tbk]
    dsimp only
    rw [Output.startRevert_talker, Output.linkLeaves_talker]
    exact talker o
  · rw [up, turned.linkUp, if_neg other]
    rw [tbk] at record
    exact linked e record

theorem monUp_talkFit {b : Hub} {d : Desk} (turned : b.Turned d true k) (fit : b.TalkFit) : (monUp k).TalkFit := by
  have whole : Hub.air { k with links := b.links } = b.air := by
    have : k.air = _ := turned
    simp only [Hub.air, Air.mk.injEq] at this ⊢
    exact ⟨rfl, this.2⟩
  have same : k.TalkFit := (fit.of_air whole).of_outputs rfl (fun e linked => by
    rw [turned.linkUp]
    split
    · rfl
    · exact linked) fun _ => rfl
  exact commitMon_talkFit same (fun o => by rw [Tbl.get_of, Output.linkEnters_talker]) false

theorem monSetPatch_talkFit (fit : h.TalkFit) (who : Requester) (out : Nat) (p f : Option (Nat × Nat)) (fa gap : Nat) :
    (monSetPatch who out p f fa gap h).TalkFit := by
  unfold monSetPatch
  split
  · next i x _ _ =>
    split
    · exact fit.of_air (answerTo_air ..)
    · have reported : (showReportIf ((h.mon.output i).patchDiffers x) h).TalkFit := fit.of_air (showReportIf_air ..)
      have outputs (j : Out) : (showReportIf ((h.mon.output i).patchDiffers x) h).mon.output j = h.mon.output j := by
        cases (h.mon.output i).patchDiffers x <;> rfl
      refine Hub.TalkFit.of_air (commitMon_talkFit reported (fun j => ?_) false) (answerTo_air ..)
      rw [Mon.withOutput_get, outputs]
      split
      · next same =>
        rw [same]
        exact ((h.mon.output i).patch x).retarget_talker ..
      · rfl
  · exact fit.of_air (answerTo_air ..)

theorem monOutputEnable_talkFit (fit : h.TalkFit) (who : Requester) (set : BitSet 32) (value : Nat) :
    (monOutputEnable who set value h).TalkFit := by
  unfold monOutputEnable
  repeat' split
  all_goals refine Hub.TalkFit.of_air ?_ (answerTo_air ..)
  · exact fit
  · exact fit
  · exact fit
  · exact fit
  · refine commitMon_talkFit fit (fun i => ?_) true
    rw [Tbl.get_of]
    split <;> rfl

theorem tbkTalkOn_talkFit (fit : h.TalkFit) (who : Requester) (set : BitSet 32) (duck : Nat) :
    (tbkTalkOn who set duck h).TalkFit := by
  unfold tbkTalkOn
  repeat' split
  · exact fit.of_air (answerTo_air ..)
  · exact fit.of_air (answerTo_air ..)
  · next linked => exact (carryTalkOn_talkFit fit linked set duck).of_air (answerTo_air ..)
  · exact fit.of_air (answerTo_air ..)

/-- A unit without records agrees. -/
theorem Tbk.empty_agrees {t : Tbk} (records : ∀ d, t.records.get d = none) (grants : ∀ o, Tbl.get t.grants o = none)
    (order : t.order = []) : t.Agrees := by
  have granted (d : Desk) (o : Out) : t.grantedOn d o = false := by simp [Tbk.grantedOn, records]
  have pending (d : Desk) (o : Out) : t.pendingOn d o = false := by simp [Tbk.pendingOn_eq, records]
  have names (d : Desk) (o : Out) : t.names d o = false := by simp [Tbk.names, records]
  refine ⟨fun o => ⟨fun e => ?_, fun e => ?_, fun e => ?_, fun e => ?_⟩, by simp [order], fun d => by simp [order, records]⟩ <;>
    simp [Tbk.slice, granted, pending, names, grants]

theorem tbkRestart_talkFit (fit : h.TalkFit) : (tbkRestart h).TalkFit := by
  obtain ⟨talk, -, talker⟩ := fit
  exact handTalk_talkFit talk talker (Tbk.empty_agrees (fun d => PerDesk.get_of ..) (fun o => Tbl.get_replicate ..) rfl)
    fun d record => absurd (PerDesk.get_of ..) record

theorem restored_talkFit (h : Hub) (pins : Pins) (ports : PortSamples) : (h.restored pins ports).TalkFit := by
  have record (d : Desk) : (h.restored pins ports).tbk.records.get d = none := PerDesk.get_of ..
  have grant (o : Out) : Tbl.get (h.restored pins ports).tbk.grants o = none := Tbl.get_replicate ..
  refine ⟨Tbk.empty_agrees record grant rfl, fun d own => absurd (record d) own, fun o => ?_⟩
  rw [grant]
  have own : (h.restored pins ports).mon.output o = (Tbl.get h.sto.readShow.patches o).output
      (h.sto.readInstall.settings.startEnabled && !(pins.safe && Tbl.get h.sto.readInstall.settings.safeMember o)) :=
    Tbl.get_of ..
  rw [own]
  rfl

theorem advance_talkFit (fit : h.TalkFit) (ports : PortSamples) : (advance ports h).TalkFit := by
  have tbk : (advance ports h).tbk = h.tbk := by rw [advance]
  have link (d : Desk) : (advance ports h).links.get d = (h.links.get d).newPeriod := by rw [advance, PerDesk.get_of]
  have output (o : Out) : (advance ports h).mon.output o = (h.mon.output o).fadeStep.duckStep := by
    simp only [advance, Mon.newPeriod, Mon.output, Tbl.get_of]
  refine fit.of_outputs tbk (fun d up => ?_) fun o => ?_
  · rw [Hub.linkUp, link]
    exact up
  · rw [output, Output.stepped_talker]

/-- The agreement of talk is kept by every event of the links, of MON and of TBK. -/
theorem airborne_talkFit : Airborne Hub.TalkFit where
  air e fit := fit.of_air e
  leaves turned fit := leavesUp_talkFit turned fit
  enters _ turned fit := monUp_talkFit turned fit
  muted cause fit := safeMute_talkFit fit cause
  committed byEnable fit := commitMon_talkFit fit (fun _ => rfl) byEnable
  patched who out p f fa gap fit := monSetPatch_talkFit fit who out p f fa gap
  enabled who set value fit := monOutputEnable_talkFit fit who set value
  fade {h} i fit := by
    unfold fadeComplete
    split
    · exact commitMon_withOutput_talkFit fit (Output.fadeEnd_talker _) false
    · exact fit
  revert {h} i fit := by
    unfold revertExpiry
    dsimp only
    split
    · refine commitMon_withOutput_talkFit fit ?_ false
      rw [Output.retarget_talker]
    · exact fit
  talkOn who set duck fit := tbkTalkOn_talkFit fit who set duck
  talkEnds d cause fit := by
    obtain ⟨talk, up, talker⟩ := fit
    exact endTalk_talkFit talk talker (fun e _ => up e) cause
  talkDropped fit := tbkRestart_talkFit fit
  advances ports fit := advance_talkFit fit ports
  restored := restored_talkFit

end

/-- Settles O59: on each output a grant, a record's sets and the output's talker change together, and a link that leaves UP
takes its desk's record with it. -/
theorem stepKeepsTheTalkGrants : Obligations.StepKeepsTheTalkGrants := by
  unfold Obligations.StepKeepsTheTalkGrants
  intro s t ok e
  exact Hub.talkFit_iff.1 (airborne_talkFit.sustained.step (Hub.talkFit_iff.2 ok) e)

end Sys2Proof.Machine
end

/-!
One output of MON: the source choice, the retarget table and what a fade, a link and a revert timer make of it (R112 to R119).
-/
section
namespace Sys2Proof.Machine

section
variable {up : Desk → Bool} {o : Output}

theorem sourceUp_iff {x : Option Source} : sourceUp up x = true ↔ ∃ y, x = some y ∧ up y.link = true := by
  cases x <;> simp [sourceUp]

theorem sourceUp_any (x : Option Source) : sourceUp up x = x.any fun y => up y.link := by cases x <;> rfl

theorem onLink_any (d : Desk) (x : Option Source) : onLink d x = x.any fun y => decide (y.link = d) := by cases x <;> rfl

theorem Output.idleState_eq (o : Output) : o.idleState = if o.primary = none then .unpatched else .silent := by
  unfold Output.idleState
  cases o.primary <;> rfl

theorem Output.takesFallback_iff :
    o.takesFallback = true ↔ o.pathState = .onFallback ∨ (o.pathState = .gapIn ∧ o.gapTarget = some .fallback) := by
  cases state : o.pathState <;> simp [Output.takesFallback, state]

/-! ## The source choice (R112) -/

theorem Output.choice_unpatched (primary : o.primary = none) : o.choice up = .none := by
  simp [Output.choice, primary]

theorem Output.choice_primary (usable : sourceUp up o.primary = true) : o.choice up = .primary := by
  cases primary : o.primary with
  | none => simp [primary, sourceUp] at usable
  | some s =>
    rw [primary] at usable
    simp [Output.choice, primary, usable]

theorem Output.choice_fallback (patched : o.primary ≠ none) (lost : sourceUp up o.primary = false)
    (action : o.failAction = .fallback) (usable : sourceUp up o.fallback = true) : o.choice up = .fallback := by
  simp [Output.choice, patched, lost, action, usable]

theorem Output.choice_none (lost : sourceUp up o.primary = false)
    (barred : ¬(o.failAction = .fallback ∧ sourceUp up o.fallback = true)) : o.choice up = .none := by
  simp [Output.choice, lost, barred]

/-! ## Retarget (R113, Table 6-3) -/

theorem Output.retarget_none {t : Target} (named : o.named t = none) (bySetPatch : Bool) : o.retarget bySetPatch t =
    { o.retargetNone with
      revertDeadline := if !bySetPatch && o.retargetNone.takesFallback then o.revertDeadline else none } := by
  simp only [Output.retarget, named]

theorem Output.retarget_source {t : Target} {s : Source} (named : o.named t = some s) (bySetPatch : Bool) :
    o.retarget bySetPatch t =
      { o.retargetSource t s with
        revertDeadline := if !bySetPatch && (o.retargetSource t s).takesFallback then o.revertDeadline else none } := by
  simp only [Output.retarget, named]

theorem Output.retarget_deadline (o : Output) (t : Target) (bySetPatch : Bool) :
    (o.retarget bySetPatch t).revertDeadline =
      if bySetPatch = false ∧ (o.retarget bySetPatch t).takesFallback = true then o.revertDeadline else none := by
  have own : (o.retarget bySetPatch t).revertDeadline =
      if !bySetPatch && (o.retarget bySetPatch t).takesFallback then o.revertDeadline else none := rfl
  rw [own]
  simp

end

/-- Settles O37: the choice tests the primary first, then the fail action with the fallback. -/
theorem sourceChoice : Obligations.SourceChoice := by
  unfold Obligations.SourceChoice
  intro h o usable
  have test (x : Option Source) : usable x ↔ sourceUp h.linkUp x = true := by simp [usable, sourceUp_iff, Hub.linkUp]
  simp only [test, Bool.not_eq_true]
  refine ⟨Output.choice_unpatched, Output.choice_primary, Output.choice_fallback, fun _ lost barred => ?_, rfl, rfl, rfl,
    fun patched gap => ?_, fun delivered silent => ?_⟩
  · refine Output.choice_none lost fun ⟨action, usable⟩ => ?_
    rcases barred with mute | lost
    · rw [action] at mute
      cases mute
    · rw [usable] at lost
      cases lost
  · rw [Output.retarget_none rfl, Output.retargetNone, if_pos gap]
    exact ⟨by simp [Output.idleState, patched], rfl⟩
  · simp [Output.program, silent]

/-- Settles O38: the revert deadline is set last, the rest by the gap and the path state. -/
theorem retargetTable : Obligations.RetargetTable := by
  unfold Obligations.RetargetTable
  intro o t bySetPatch o' idle playing
  have none_ (named : o.named t = none) : o' = _ := Output.retarget_none named bySetPatch
  have some_ {s : Source} (named : o.named t = some s) : o' = _ := Output.retarget_source named bySetPatch
  have idleState : o.idleState = idle := o.idleState_eq
  refine ⟨o.retarget_deadline t bySetPatch, fun gap named => ?_, fun s gap named => ?_, fun gap named state => ?_,
    fun gap named state => ?_, fun gap named state => ?_, fun s gap named state => ?_, fun s gap named state same => ?_,
    fun s gap named state other => ?_, fun s gap named state => ?_⟩
  · simp [none_ named, Output.retargetNone, gap, idleState]
  · simp [some_ named, Output.retargetSource, gap, onState]
  · rcases state with state | state <;> simp [none_ named, Output.retargetNone, gap, state, idleState]
  · rcases state with state | state <;> simp [none_ named, Output.retargetNone, gap, state]
  · rcases state with state | state <;> simp [none_ named, Output.retargetNone, gap, state]
  · rcases state with state | state <;> simp [some_ named, Output.retargetSource, gap, state]
  · rcases state with state | state <;> simp [some_ named, Output.retargetSource, gap, state, same, onState]
  · rcases state with state | state <;> simp [some_ named, Output.retargetSource, gap, state, other]
  · rcases state with state | state <;> by_cases same : o.carried = some s <;>
      simp [some_ named, Output.retargetSource, gap, state, same]

end Sys2Proof.Machine
end

/-!
SET_PATCH, OUTPUT_ENABLE and the safe line (R120 to R125).
-/
section
namespace Sys2Proof.Machine

/-! ## A new Output Table (R118, R129) -/

section
variable {h k : Hub}

/-- The revert timers depend on the time, the revert delay and the links. -/
theorem Hub.withReverts_of (now : k.now = h.now) (install : k.sto.install = h.sto.install) (links : k.links = h.links)
    (outs : Vector Output 32) : k.withReverts outs = h.withReverts outs := by
  unfold Hub.withReverts
  rw [now, install, Hub.linkUp_of_links links]

/-- A new Output Table takes effect on a part with the time, the revert delay, the links and the outputs of another. -/
theorem commitMon_of (now : k.now = h.now) (install : k.sto.install = h.sto.install) (links : k.links = h.links)
    (mon : k.mon = h.mon) (byEnable : Bool) (outs : Vector Output 32) : commitMon byEnable outs k =
      notifyEach (outputChanges byEnable h.mon.outputs (h.withReverts outs))
        { k with mon := { h.mon with outputs := h.withReverts outs } } := by
  rw [commitMon_eq, Hub.withReverts_of now install links, mon]

theorem showReportIf_base (b : Bool) (h : Hub) : (showReportIf b h).now = h.now ∧
    (showReportIf b h).sto.install = h.sto.install ∧ (showReportIf b h).links = h.links ∧ (showReportIf b h).mon = h.mon := by
  cases b <;> exact ⟨rfl, rfl, rfl, rfl⟩

/-! ## SET_PATCH (R120, R121) -/

/-- A SET_PATCH that is allowed. -/
theorem monSetPatch_permitted {who : Requester} {i : Out} {p f : Option (Nat × Nat)} {fa gap : Nat} {x : PatchFields}
    (fields : patchFields? p f fa gap = some x) (allowed : h.arb.permission who (Out.res i) = .permitted) :
    monSetPatch who (i.1 + 1) p f fa gap h = answerTo who .done []
      (commitMon false (h.mon.withOutput i (((h.mon.output i).patch x).choose h.linkUp true))
        (showReportIf ((h.mon.output i).patchDiffers x) h)) := by
  simp only [monSetPatch, out?_num, fields, allowed, Permission.code]

end

theorem Output.patchDiffers_iff {o : Output} {x : PatchFields} : o.patchDiffers x = true ↔
    o.primary ≠ x.primary ∨ o.fallback ≠ x.fallback ∨ o.failAction ≠ x.failAction ∨ o.gap ≠ x.gap := by
  simp only [Output.patchDiffers, Bool.not_eq_true', decide_eq_false_iff_not, Decidable.not_and_iff_or_not, ne_eq]

/-- Settles O39: the request taken leaves what MON reads; the rest is the patch, its choice and the Output Table that takes
effect. -/
theorem setPatchTakesThePatch : Obligations.SetPatchTakesThePatch := by
  unfold Obligations.SetPatchTakesThePatch
  intro who tag i p f fa gap x s free fields allowed h o call patched outs changed h1
  rw [exec_request (c := call) rfl free rfl (.inl rfl)]
  refine congrArg (fun k => Host.Outcome.next (s.withHub k)) ?_
  let k := h.taken who tag call
  obtain ⟨now, -, arb, links, -, mon, -, -, -, -, install, -⟩ := Hub.taken_other h who tag call
  obtain ⟨now', install', links', mon'⟩ := showReportIf_base (o.patchDiffers x) k
  have report : showReportIf (o.patchDiffers x) k = h1 := by
    unfold showReportIf
    exact if_congr Output.patchDiffers_iff rfl rfl
  have table : h.withReverts (h.mon.withOutput i (patched.choose h.linkUp true)) = outs := by
    refine congrArg Tbl.of (funext fun j => ?_)
    rw [Mon.withOutput_get]
    rfl
  calc monSetPatch who (i.1 + 1) p f fa gap k
      = answerTo who .done [] (commitMon false (h.mon.withOutput i (patched.choose h.linkUp true))
          (showReportIf (o.patchDiffers x) k)) := by
        rw [monSetPatch_permitted fields (by rw [arb]; exact allowed), mon, Hub.linkUp_of_links links]
        rfl
    _ = _ := by
        rw [commitMon_of (h := h) (now'.trans now) (install'.trans install) (links'.trans links) (mon'.trans mon), table, report]

/-! ## OUTPUT_ENABLE (R123) -/

theorem members_isEmpty_false {n : Nat} {v : BitSet n} {i : Fin n} (mem : Tbl.get v i = true) :
    (BitSet.members v).isEmpty = false := by
  rw [← Bool.not_eq_true, members_isEmpty]
  exact fun empty => by simp [empty i] at mem

theorem enableRefusal_none {x : Arb} {who : Requester} {l : List Out}
    (allowed : ∀ i ∈ l, x.permission who (Out.res i) = .permitted) : enableRefusal x who l = none := by
  induction l with
  | nil => rfl
  | cons i is ih =>
    rw [enableRefusal, allowed i List.mem_cons_self]
    exact ih fun j mem => allowed j (List.mem_cons_of_mem i mem)

/-- Settles O40: the checks of R123 in order, then the Output Table with the enables set. -/
theorem outputEnableSetsTheEnables : Obligations.OutputEnableSetsTheEnables := by
  unfold Obligations.OutputEnableSetsTheEnables
  intro who tag set on s free allowed h value call held outs result
  have read : onOff? value = some on := by cases on <;> rfl
  let k := h.taken who tag call
  obtain ⟨now, -, arb, links, -, mon, -, -, -, -, install, -⟩ := Hub.taken_other h who tag call
  have passes : enableRefusal k.arb who (BitSet.members set) = none :=
    enableRefusal_none fun i mem => by rw [arb]; exact allowed i (by simpa using mem)
  have safe : (on && k.mon.safe && (BitSet.members set).any fun i => Tbl.get k.sto.install.safeMember i) = true ↔ held := by
    rw [mon, install, Bool.and_eq_true, Bool.and_eq_true, and_assoc, List.any_eq_true]
    simp only [BitSet.mem_members, held]
  refine ⟨fun empty => exec_answered rfl free rfl (.inl rfl) ?_, fun held => ?_, fun ⟨i, mem⟩ free_ => ?_⟩
  · show monOutputEnable who set value k = _
    simp only [monOutputEnable, read, (members_isEmpty set).2 empty, if_true]
    rfl
  · obtain ⟨-, -, i, mem, -⟩ := id held
    refine exec_answered (c := call) rfl free rfl (.inl rfl) ?_
    show monOutputEnable who set value k = _
    simp only [monOutputEnable, read, members_isEmpty_false mem, passes, safe.2 held, if_true]
    rfl
  · refine (exec_request (c := call) rfl free rfl (.inl rfl)).trans (congrArg (fun k => Host.Outcome.next (s.withHub k)) ?_)
    have table : h.withReverts (Tbl.of fun i =>
        if Tbl.get set i then { h.mon.output i with enable := on } else h.mon.output i) = outs :=
      congrArg Tbl.of (funext fun i => by rw [Tbl.get_of])
    calc monOutputEnable who set value k
        = answerTo who .done [] (commitMon true (Tbl.of fun i =>
            if Tbl.get set i then { k.mon.output i with enable := on } else k.mon.output i) k) := by
          simp only [monOutputEnable, read, members_isEmpty_false mem, passes, if_neg fun e => free_ (safe.1 e)]
          rfl
      _ = _ := by rw [commitMon_of (h := h) now install links mon, mon, table]

end Sys2Proof.Machine
end

/-!
The safe line and the loss of all links (R124, R125).
-/
section
namespace Sys2Proof.Machine

theorem Desk.mem_all (d : Desk) : d ∈ Desk.all := by cases d <;> decide

/-! ## Safe-mute (R124, R125) -/

section
variable {h k : Hub}

theorem Hub.allLost_iff : h.allLost = true ↔ (∀ e, (h.links.get e).state = .down) ∧ h.sto.install.allLinksLost = true := by
  simp only [Hub.allLost, Hub.allDown, Bool.and_eq_true, List.all_eq_true, decide_eq_true_eq]
  exact and_congr_left' ⟨fun all e => all e (Desk.mem_all e), fun all e _ => all e⟩

/-- An enable cleared. -/
theorem Output.enable_cleared (o : Output) (b : Bool) :
    ({ o with enable := o.enable && !b } : Output) = if b = true then { o with enable := false } else o := by
  cases b <;> simp

/-- MON when a link leaves UP, all links lost or not (R116, R125, R129). -/
theorem monLeavesUp_eq (d : Desk) (h : Hub) :
    let set := if h.allLost then h.safeSet else BitSet.empty 32
    let outs : Vector Output 32 := Tbl.of fun i =>
      let o := ((h.mon.output i).linkLeaves h.linkUp d).startRevert h.now h.sto.install.revertDelay h.linkUp
      if Tbl.get set i = true then { o with enable := false } else o
    let told := notifyEach (outputChanges false h.mon.outputs outs) { h with mon := { h.mon with outputs := outs } }
    monLeavesUp d h = if h.allLost then notifyAll (.safeMute .allLinksLost set) told else told := by
  intro set outs told
  have table : h.withReverts (Tbl.of fun i =>
      let o := (h.mon.output i).linkLeaves h.linkUp d
      { o with enable := o.enable && !Tbl.get set i }) = outs := by
    refine congrArg Tbl.of (funext fun i => ?_)
    rw [Tbl.get_of, Output.startRevert_enable, ← Output.enable_cleared, Output.startRevert_enable_same]
  unfold monLeavesUp
  dsimp only
  rw [commitMon_eq, table]

/-- MON at a link's entry to DOWN from HOLDOVER, enable by enable (R125). -/
theorem monDown_enable (h : Hub) (i : Out) : ((monDown h).mon.output i).enable =
    ((h.mon.output i).enable && !(h.allLost && Tbl.get h.sto.install.safeMember i)) := by
  unfold monDown
  split
  · next lost =>
    rw [safeMute_output, Hub.safeSet, Tbl.get_of, lost]
    cases member : Tbl.get h.sto.install.safeMember i <;> cases on : (h.mon.output i).enable <;> simp [on]
  · next stays => simp [stays]

/-! ## A link's change settled (R72) -/

/-- A link's change is told and its test resumed before its event: neither touches an output, the store or a link's state. -/
theorem settleLink_event (b : Hub) (d : Desk) (first : Side) (h : Hub) :
    ∃ k, k.mon = h.mon ∧ k.sto = h.sto ∧ (∀ e, (k.links.get e).state = (h.links.get e).state) ∧
      settleLink b d first h = linkEvent (b.links.get d).state d k := by
  let r := (resumeTest d h).getD h
  have resumed : r.mon = h.mon ∧ r.sto = h.sto ∧ ∀ e, (r.links.get e).state = (h.links.get e).state := by
    unfold r resumeTest
    repeat' split
    · exact ⟨rfl, rfl, fun _ => rfl⟩
    · refine ⟨rfl, rfl, fun e => ?_⟩
      rw [Option.getD_some, Hub.setLane_links]
      split
      · next own => rw [own]; rfl
      · rfl
    · exact ⟨rfl, rfl, fun _ => rfl⟩
  obtain ⟨mon, sto, state⟩ := resumed
  let n := tellLinkChange (b.links.get d) d (tellLaneChange b ⟨d, first.other⟩ (tellLaneChange b ⟨d, first⟩ r))
  let m := if (resumeTest d h).isSome then tellTest d n else n
  have told : r.Told m := by
    have links : r.Told n := tellLink_told b d first r
    unfold m
    split
    · exact links.trans (tellTest_told ..)
    · exact links
  obtain ⟨-, -, -, links, -, mon', -, sto', -⟩ := Hub.core_eq told.core
  exact ⟨m, mon'.trans mon, sto'.trans sto, fun e => by rw [links]; exact state e, rfl⟩

/-- HOLDOVER_EXPIRY, enable by enable (R85, R125). -/
theorem holdoverExpiry_enable {d : Desk} {dl : Frame} (state : (h.links.get d).state = .holdover)
    (deadline : (h.links.get d).holdoverDeadline = some dl) (elapsed : reached h.now dl = true) (i : Out) :
    let last := Desk.all.all fun e => decide (e = d ∨ (h.links.get e).state = .down)
    ((holdoverExpiry d h).mon.output i).enable =
      ((h.mon.output i).enable && !(last && h.sto.install.allLinksLost && Tbl.get h.sto.install.safeMember i)) := by
  intro last
  obtain ⟨k, mon, sto, states, event⟩ := settleLink_event h d .p (h.setLink d ((h.links.get d).leave .down none))
  have left (e : Desk) : (k.links.get e).state = if e = d then .down else (h.links.get e).state := by
    rw [states, Hub.setLink_links]
    split <;> rfl
  have down : (k.links.get d).state = .down := by rw [left, if_pos rfl]
  obtain ⟨steady, -, -, mon', -⟩ := arbDown_spec d k
  obtain ⟨-, -, links, sto'⟩ := steady_fields steady
  obtain ⟨airs, -⟩ := monDown_airs (arbDown d k)
  obtain ⟨-, -, links', -⟩ := steady_fields airs.steady
  obtain ⟨-, -, mon'', -⟩ := hlmDown_reqDown
    ((congrFun (Hub.linkUp_of_links (links'.trans links)) d).trans (Hub.not_linkUp down))
  have lost : (arbDown d k).allLost = (last && h.sto.install.allLinksLost) := by
    unfold Hub.allLost Hub.allDown
    rw [links, sto', sto]
    have each : (fun e => decide ((k.links.get e).state = .down)) = fun e => decide (e = d ∨ (h.links.get e).state = .down) := by
      funext e
      rw [left]
      split
      · next own => simp [own]
      · next other => simp [other]
    rw [each]
    rfl
  rw [holdoverExpiry_eq state deadline elapsed, event, state, linkEvent_holdoverDown down, mon'', monDown_enable, lost,
    mon', sto', sto, mon]
  rfl

end

/-- Settles O41: safe-mute is one change of the enables with its notice; at a link event it happens where the last link goes. -/
theorem safeLineMutes : Obligations.SafeLineMutes := by
  unfold Obligations.SafeLineMutes
  refine ⟨?_, ?_, fun d dl s state deadline elapsed => ⟨_, rfl, holdoverExpiry_enable state deadline elapsed⟩⟩
  · intro s h cleared
    refine ⟨fun off => ?_, fun on => ?_, fun on => ?_, fun off => ?_⟩
    · exact congrArg (fun k => Host.Outcome.next (s.withHub k)) (if_neg (by rw [off]; simp))
    · exact congrArg (fun k => Host.Outcome.next (s.withHub k)) (if_pos on)
    · exact congrArg (fun k => Host.Outcome.next (s.withHub k)) (if_pos on)
    · exact congrArg (fun k => Host.Outcome.next (s.withHub k)) (if_neg (by rw [off]; simp))
  · intro d h cleared mute left tell
    have lost : h.allLost = true ↔ mute := Hub.allLost_iff
    have event := monLeavesUp_eq d h
    refine ⟨fun m => if_pos (lost.2 m), fun m => if_neg fun l => m (lost.1 l), fun m => ?_, fun m => ?_⟩
    · simp only [lost.2 m, if_true] at event
      exact event
    · simp only [show h.allLost = false by simpa using fun l => m (lost.1 l), Tbl.get_empty, Bool.false_eq_true,
        if_false] at event
      exact event

end Sys2Proof.Machine
end

/-!
The ends of fades and revert timers, the steps of a period, and what an output makes of a link (R114 to R119, R127).
-/
section
namespace Sys2Proof.Machine

/-! ## One output -/

section
variable {up : Desk → Bool} {o : Output}

theorem Output.startRevert_iff (o : Output) (now : Frame) (delay : Nat) (up : Desk → Bool) :
    o.startRevert now delay up =
      if (o.takesFallback = true ∧ sourceUp up o.primary = true ∧ delay ≠ 0 ∧ o.revertDeadline = none)
      then { o with revertDeadline := some (later now (delay * 48000)) } else o := by
  unfold Output.startRevert
  refine if_congr ?_ rfl rfl
  simp [and_assoc]

/-- A revert timer does not start twice. -/
theorem Output.startRevert_runs (runs : o.revertDeadline ≠ none) (now : Frame) (delay : Nat) :
    o.startRevert now delay up = o := by
  rw [Output.startRevert_iff, if_neg fun starts => runs starts.2.2.2]

theorem Output.startRevert_elsewhere (other : o.takesFallback = false) (now : Frame) (delay : Nat) :
    o.startRevert now delay up = o := by
  rw [Output.startRevert_iff, if_neg fun starts => by simp [other] at starts]

/-- A revert timer's start is no change of what the output plays. -/
theorem Output.startRevert_path (o : Output) (now : Frame) (delay : Nat) (up : Desk → Bool) :
    let p := o.startRevert now delay up
    p.pathState = o.pathState ∧ p.carried = o.carried ∧ p.gapTarget = o.gapTarget ∧ p.fade = o.fade := by
  intro p
  have own : p = _ := Output.startRevert_iff ..
  rw [own]
  split <;> exact ⟨rfl, rfl, rfl, rfl⟩

/-- A fade out that ends without a target source. -/
theorem Output.fadeEnd_idle (state : o.pathState = .gapOut) (target : o.targetSource = none) : o.fadeEnd =
    { o with pathState := o.idleState, carried := none, gapTarget := none, fade := 0, fadeDone := false } := by
  simp only [Output.fadeEnd, state, target]

/-- A fade out that ends with its target's source. -/
theorem Output.fadeEnd_turns {s : Source} (state : o.pathState = .gapOut) (target : o.targetSource = some s) : o.fadeEnd =
    { o with pathState := .gapIn, carried := some s, fade := 0, fadeDone := false } := by
  simp only [Output.fadeEnd, state, target]

theorem Output.fadeEnd_arrives {t : Target} (state : o.pathState = .gapIn) (target : o.gapTarget = some t) : o.fadeEnd =
    { o with pathState := onState t, gapTarget := none, fade := Config.fadeFull, fadeDone := false } := by
  simp only [Output.fadeEnd, state, target, Option.getD_some]

theorem Output.fadeDue_done (fades : o.pathState = .gapOut ∨ o.pathState = .gapIn) : o.fadeDue = o.fadeDone := by
  rcases fades with state | state <;> simp only [Output.fadeDue, state]

theorem Output.targetSource_of {t : Target} (target : o.gapTarget = some t) : o.targetSource = o.named t := by
  simp only [Output.targetSource, target]

/-! ## The steps of a period (R114, R127) -/

theorem Output.fadeStep_out (state : o.pathState = .gapOut) : o.fadeStep =
    { o with fade := o.fade - Config.fadeUnit / o.gap, fadeDone := decide (o.fade ≤ Config.fadeUnit / o.gap) } := by
  simp only [Output.fadeStep, state]

theorem Output.fadeStep_in (state : o.pathState = .gapIn) : o.fadeStep =
    { o with fade := min Config.fadeFull (o.fade + Config.fadeUnit / o.gap)
             fadeDone := decide (Config.fadeFull ≤ o.fade + Config.fadeUnit / o.gap) } := by
  simp only [Output.fadeStep, state]

theorem Output.fadeStep_none (out : o.pathState ≠ .gapOut) (in_ : o.pathState ≠ .gapIn) : o.fadeStep = o := by
  unfold Output.fadeStep
  cases state : o.pathState <;> simp_all

/-- The unit steps divide by every gap, in frames. -/
theorem gap_divides {gap : Nat} (least : 1 ≤ gap) (most : gap ≤ 15) :
    48 * gap * (Config.fadeUnit / gap) = Config.fadeFull ∧ 48 * gap * (Config.duckUnit / gap) = 30 * Config.duckPerDb := by
  interval_cases gap <;> decide

theorem Output.duckStep_duck (gap : o.gap ≠ 0) :
    (o.duck ≤ o.duckTarget → o.duckStep.duck = min o.duckTarget (o.duck + Config.duckUnit / o.gap)) ∧
    (o.duckTarget ≤ o.duck → o.duckStep.duck = max o.duckTarget (o.duck - Config.duckUnit / o.gap)) := by
  unfold Output.duckStep
  rw [if_neg gap]
  dsimp only
  generalize Config.duckUnit / o.gap = step
  split
  · exact ⟨fun _ => rfl, fun le => by omega⟩
  · exact ⟨fun le => by dsimp only; omega, fun _ => rfl⟩

/-! ## An output and a link (R116, R117) -/

theorem Output.loseSource_eq (o : Output) : o.loseSource = { o with
    pathState := if o.primary = none then .unpatched else .silent
    carried := none, gapTarget := none, fade := 0, revertDeadline := none, fadeDone := false } := by
  rw [Output.loseSource, Output.idleState_eq]

/-- The output keeps its source, and is not on its way to the link (R116, steps 2 and 3). -/
theorem Output.linkLeaves_stays {d : Desk} (carried : onLink d o.carried = false)
    (target : ¬(o.pathState = .gapOut ∧ onLink d o.targetSource = true)) : o.linkLeaves up d =
      { o with revertDeadline := if o.takesFallback && onLink d o.primary then none else o.revertDeadline } := by
  unfold Output.linkLeaves
  rw [if_neg (by simp [carried]), if_neg target]
  split <;> rfl

end

/-! ## One output of the part -/

section
variable {h : Hub} {i : Out} {o : Output}

/-- One output changed: the part changes in the Output Table alone. -/
theorem commitMon_core (byEnable : Bool) (outs : Vector Output 32) (h : Hub) :
    (commitMon byEnable outs h).core = { h.core with mon := (commitMon byEnable outs h).mon } := by
  rw [commitMon_outputs, commitMon_eq, notifyEach_core]
  rfl

theorem commitMon_one (byEnable : Bool) (h : Hub) (i : Out) (o : Output) :
    let t := commitMon byEnable (h.mon.withOutput i o) h
    t.mon.output i = o.startRevert h.now h.sto.install.revertDelay h.linkUp ∧
    (∀ j, j ≠ i → t.mon.output j = (h.mon.output j).startRevert h.now h.sto.install.revertDelay h.linkUp) ∧
    t.core = { h.core with mon := t.mon } := by
  refine ⟨?_, fun j other => ?_, commitMon_core ..⟩
  · rw [commitMon_output, Mon.withOutput_get, if_pos rfl]
  · rw [commitMon_output, Mon.withOutput_get, if_neg other]

theorem fadeComplete_due (fades : (h.mon.output i).pathState = .gapOut ∨ (h.mon.output i).pathState = .gapIn)
    (done : (h.mon.output i).fadeDone = true) :
    fadeComplete i h = commitMon false (h.mon.withOutput i (h.mon.output i).fadeEnd) h :=
  if_pos ((Output.fadeDue_done fades).trans done)

theorem revertExpiry_due {dl : Frame} (deadline : (h.mon.output i).revertDeadline = some dl) (elapsed : reached h.now dl = true) :
    revertExpiry i h = commitMon false
      (h.mon.withOutput i (Output.retarget false .primary { h.mon.output i with revertDeadline := none })) h :=
  if_pos (by rw [deadline]; exact elapsed)

/-- An output on its fallback, or fading it in, retargeted to its primary: it takes nothing from its fallback any more. -/
theorem Output.retarget_toPrimary {src : Source} (primary : o.primary = some src)
    (takes : o.pathState = .onFallback ∨ o.pathState = .gapIn) (other : o.carried ≠ some src) :
    let p := Output.retarget false .primary { o with revertDeadline := none }
    p.revertDeadline = none ∧ p.takesFallback = false ∧
    (o.gap = 0 → p.pathState = .onPrimary ∧ p.carried = some src ∧ p.gapTarget = none ∧ p.fade = Config.fadeFull) ∧
    (o.gap ≠ 0 → p.pathState = .gapOut ∧ p.carried = o.carried ∧ p.gapTarget = some .primary ∧
      p.fade = if o.pathState = .onFallback then Config.fadeFull else o.fade) := by
  intro p
  have own : p = _ := Output.retarget_source (o := { o with revertDeadline := none }) (t := .primary) primary false
  rw [own]
  refine ⟨by simp, ?_⟩
  by_cases gap : o.gap = 0
  · simp [Output.retargetSource, gap, onState, Output.takesFallback]
  · rcases takes with state | state <;> simp [Output.retargetSource, gap, state, other, Output.takesFallback]

end

/-- Settles O42: each clause is the equation of one operation on an output, the event's part being the Output Table that
takes effect. -/
theorem fadesAndRevertsComplete : Obligations.FadesAndRevertsComplete := by
  unfold Obligations.FadesAndRevertsComplete
  refine ⟨?_, ?_, fun now delay up o => ?_, fun o => ?_, fun o least most => ?_, ?_⟩
  · intro i s done h o others
    have event (fades : o.pathState = .gapOut ∨ o.pathState = .gapIn) :
        exec (.fadeComplete i) s = .next (s.withHub (commitMon false (h.mon.withOutput i o.fadeEnd) h)) :=
      congrArg (fun k => Host.Outcome.next (s.withHub k)) (fadeComplete_due fades done)
    obtain ⟨own, rest⟩ := commitMon_one false h i o.fadeEnd
    generalize commitMon false (h.mon.withOutput i o.fadeEnd) h = k at event own rest
    obtain ⟨state', carried, target', fade⟩ := o.fadeEnd.startRevert_path h.now h.sto.install.revertDelay h.linkUp
    rw [← own] at state' carried target' fade
    refine ⟨fun ⟨state, target⟩ => ⟨_, event (.inl state), ?_⟩, fun target src state gap named => ⟨_, event (.inl state), ?_⟩,
      fun target state gap => ⟨_, event (.inr state), ?_⟩⟩
    · rw [Output.fadeEnd_idle state (by rw [Output.targetSource_of target]; rfl)] at state' carried target' fade
      exact ⟨state'.trans o.idleState_eq, carried, target', fade, rest⟩
    · rw [Output.fadeEnd_turns state ((Output.targetSource_of gap).trans named)] at state' carried target' fade
      exact ⟨state', carried, target'.trans gap, fade, rest⟩
    · refine ⟨?_, ?_, ?_, ?_, fun runs => ?_, rest⟩
      · rw [state', Output.fadeEnd_arrives state gap]
        rfl
      · rw [carried, Output.fadeEnd_arrives state gap]
      · rw [target', Output.fadeEnd_arrives state gap]
      · rw [fade, Output.fadeEnd_arrives state gap]
      · have kept : o.fadeEnd.revertDeadline = o.revertDeadline := by rw [Output.fadeEnd_arrives state gap]
        rw [own, Output.startRevert_runs (by rw [kept]; exact runs), kept]
  · intro i dl src s deadline h o fadingIn elapsed primary takes other
    obtain ⟨own, rest⟩ := commitMon_one false h i (Output.retarget false .primary { o with revertDeadline := none })
    obtain ⟨none_, away, direct, gap⟩ := Output.retarget_toPrimary primary (takes.imp_right And.left) other
    rw [Output.startRevert_elsewhere away] at own
    have event : exec (.revertExpiry i) s = .next (s.withHub _) :=
      congrArg (fun k => Host.Outcome.next (s.withHub k)) (revertExpiry_due deadline elapsed)
    generalize commitMon false (h.mon.withOutput i (Output.retarget false .primary { o with revertDeadline := none })) h = k
      at event own rest
    refine ⟨s.withHub k, event, ?_⟩
    rw [own]
    exact ⟨none_, direct, gap, rest⟩
  · intro starts
    have conditions : (o.takesFallback = true ∧ sourceUp up o.primary = true ∧ delay ≠ 0 ∧ o.revertDeadline = none) ↔
        starts := by
      rw [Output.takesFallback_iff, sourceUp_iff]
    rw [Output.startRevert_iff]
    exact ⟨fun s => if_pos (conditions.2 s), fun s => if_neg fun c => s (conditions.1 c)⟩
  · refine ⟨fun state => ?_, fun state => ?_, Output.fadeStep_none⟩
    · rw [Output.fadeStep_out state]
      exact decide_eq_decide.2 (by dsimp only; omega)
    · rw [Output.fadeStep_in state]
      exact decide_eq_decide.2 (by dsimp only; omega)
  · obtain ⟨fades, ducks⟩ := gap_divides least most
    exact ⟨fades, ducks, fun state => by rw [Output.fadeStep_out state], fun state => by rw [Output.fadeStep_in state],
      Output.duckStep_duck (by omega)⟩
  · intro up d o on usable target lost turns free
    have source : o.targetSource = target := by
      unfold Output.targetSource target
      cases o.gapTarget <;> rfl
    have carries : on o.carried = onLink d o.carried := (onLink_any d o.carried).symm
    have toward : on target = onLink d o.targetSource := by rw [source]; exact (onLink_any d target).symm
    have test : turns ↔ o.pathState = .gapOut ∧ sourceUp up o.targetSource = true := by rw [source, sourceUp_any]
    rw [carries, toward]
    refine ⟨fun c t => ?_, fun c t => ?_, fun c state t => ?_, fun c t => ?_, fun f present => ?_, fun f => ?_⟩
    · rw [Output.linkLeaves, if_pos c, if_pos (test.1 t), source]
    · rw [Output.linkLeaves, if_pos c, if_neg fun e => t (test.2 e), Output.choose, Output.loseSource_eq]
      rfl
    · rw [Output.linkLeaves, if_neg (by simp [c]), if_pos ⟨state, t⟩]
      rfl
    · rw [Output.linkLeaves_stays c ?_, onLink_any]
      rintro ⟨state, own⟩
      exact t.elim (fun n => n state) fun n => by simp [own] at n
    · rw [Output.linkEnters, if_pos f, if_neg present]
      rfl
    · rw [Output.linkEnters]
      split
      · next g => exact if_pos (f.resolve_left fun n => n g)
      · rfl

end Sys2Proof.Machine
end

/-!
An event of TBK as the other parts see it (R135, R145), the desk that receives an output (R141), and the end of a desk's talk
(R142, R143).
-/
section
namespace Sys2Proof.Machine

/-! ## The desk that receives an output (R141) -/

/-- The desk waits on the output, another than `d`. -/
def Tbk.Waits (t : Tbk) (d e : Desk) (o : Out) : Prop := e ≠ d ∧ t.pendingOn e o = true

/-- The desk is of higher priority than another, or of the same and not later. -/
def Tbk.Before (t : Tbk) (priority : PerReq Nat) (e x : Desk) : Prop :=
  priority.get x.req < priority.get e.req ∨
    (priority.get x.req = priority.get e.req ∧ t.order.idxOf e ≤ t.order.idxOf x)

section
variable {t : Tbk} {d e : Desk} {o : Out} {priority : PerReq Nat}

theorem Tbk.waits_iff : t.Waits d e o ↔ e ≠ d ∧ ∃ q, t.records.get e = some q ∧ Tbl.get q.pending o = true := by
  simp only [Tbk.Waits, Tbk.pendingOn_eq, Option.any_eq_true]

/-- A list without duplicates is in the order of the places in it. -/
theorem pairwise_idxOf {l : List Desk} (nodup : l.Nodup) : l.Pairwise fun x y => l.idxOf x ≤ l.idxOf y := by
  rw [List.pairwise_iff_getElem]
  intro i j hi hj lt
  rw [nodup.idxOf_getElem, nodup.idxOf_getElem]
  omega

/-- Whether a desk's own record stands or is new, those that wait besides it are the same (R139, R141). -/
theorem Tbk.waiting_orderWithout (t : Tbk) (d : Desk) (o : Out) :
    (t.orderWithout d).filter ((t.slice o).without d).pending = t.order.filter ((t.slice o).without d).pending := by
  unfold Tbk.orderWithout
  rw [List.filter_filter]
  refine List.filter_congr fun e _ => ?_
  by_cases own : e = d <;> simp [Slice.without, own]

theorem Tbk.waiting_renewed (t : Tbk) (d : Desk) (o : Out) :
    (t.orderWithout d ++ [d]).filter ((t.slice o).without d).pending = t.order.filter ((t.slice o).without d).pending := by
  rw [List.filter_append, Tbk.waiting_orderWithout]
  simp [Slice.without]

/-- An output given up: to the desk before all others that wait, or to none (R141, steps 2 and 3). -/
theorem Tbk.Agrees.offered (ok : t.Agrees) {order : List Desk}
    (covers : order.filter ((t.slice o).without d).pending = t.order.filter ((t.slice o).without d).pending) :
    let s := (t.slice o).without d
    ((∀ e, ¬t.Waits d e o) → s.offered priority order = { s with talker := none }) ∧
    ((∃ e, t.Waits d e o) → ∃ e, t.Waits d e o ∧ s.offered priority order = s.taken e ∧
      ∀ x, t.Waits d x o → t.Before priority e x) := by
  intro s
  have mem (e : Desk) : e ∈ t.order.filter s.pending ↔ t.Waits d e o := by
    have waits : s.pending e = true ↔ t.Waits d e o := by
      by_cases own : e = d
      · simp [s, Slice.without, Tbk.Waits, own]
      · simp [s, Slice.without, Tbk.Waits, own, Tbk.slice]
    rw [List.mem_filter, waits]
    exact ⟨And.right, fun w => ⟨(ok.mem e).2 (Tbk.record_of_pending w.2), w⟩⟩
  obtain ⟨empty, best⟩ := bestDesk_spec (priority := priority) (before := fun x y => t.order.idxOf x ≤ t.order.idxOf y)
    (fun _ => Nat.le_refl _) ((pairwise_idxOf ok.nodup).filter s.pending)
  unfold Slice.offered
  rw [covers]
  refine ⟨fun none_ => ?_, fun ⟨x, waits⟩ => ?_⟩
  · rw [empty.2 (List.eq_nil_iff_forall_not_mem.2 fun e => (mem e).not.2 (none_ e))]
  · obtain ⟨e, chosen⟩ := Option.ne_none_iff_exists'.1 fun n => List.ne_nil_of_mem ((mem x).2 waits) (empty.1 n)
    obtain ⟨own, top⟩ := best e chosen
    rw [chosen]
    exact ⟨e, (mem e).1 own, rfl, fun y w => top y ((mem y).2 w)⟩

/-- The sets of a record, output by output. -/
theorem Tbk.sets_eq_iff {u : Tbk} (same : u.records.get d = none ↔ t.records.get d = none) :
    t.sets d = u.sets d ↔ ∀ o, t.grantedOn d o = u.grantedOn d o ∧ t.pendingOn d o = u.pendingOn d o := by
  unfold Tbk.sets Tbk.grantedOn
  simp only [Tbk.pendingOn_eq]
  cases own : t.records.get d with
  | none => simp [same.2 own]
  | some p =>
    obtain ⟨q, was⟩ := Option.ne_none_iff_exists'.1 fun n => by rw [same.1 n] at own; cases own
    simp only [was, Option.map_some, Option.some.injEq, Prod.mk.injEq, Option.any_some]
    exact ⟨fun ⟨g, p⟩ o => by rw [g, p]; exact ⟨rfl, rfl⟩,
      fun all => ⟨Tbl.ext_get fun o => (all o).1, Tbl.ext_get fun o => (all o).2⟩⟩

end

/-! ## An event of TBK -/

/-- The talker of an output with its duck, in one expression. -/
theorem Tbk.talkAt_bind (t : Tbk) (o : Out) :
    t.talkAt o = (Tbl.get t.grants o).bind fun x => (t.records.get x).map fun q => (x, q.duck) := by
  unfold Tbk.talkAt
  cases Tbl.get t.grants o with
  | none => rfl
  | some d => cases record : t.records.get d <;> simp [record]

theorem Output.setTalker_eq (v : Option (Desk × Nat)) (p : Output) :
    let depth := v.elim 0 fun x => x.2 * Config.duckPerDb
    p.setTalker v =
      { p with talker := v.map (·.1), duckTarget := depth, duck := if p.gap = 0 then depth else p.duck } := by
  cases v <;> rfl

/-- An event of TBK: its new records and grants, handed to MON, with the TALK_STATE notices of the desks that have a cause. -/
structure Hub.Talks (h : Hub) (t : Tbk) (cause : Desk → Option TalkCause) (u : Hub) : Prop where
  tbk : u.tbk = t
  now : u.now = h.now
  output : ∀ o, u.mon.output o =
    if h.tbk.talkAt o = t.talkAt o then h.mon.output o else (h.mon.output o).setTalker (t.talkAt o)
  notices : u.NoticesOf (notifyEach (Desk.all.filterMap fun x => (cause x).map (h.tbk.state t h.now x)) h)
  others : u.pcu = h.pcu ∧ u.arb = h.arb ∧ u.links = h.links ∧ u.hlm = h.hlm

section
variable {h k u : Hub} {t : Tbk} {cause : Desk → Option TalkCause} {o : Out}

theorem handTalk_fields (t : Tbk) (h : Hub) : (handTalk t h).tbk = t ∧ (handTalk t h).now = h.now ∧
    ((handTalk t h).pcu = h.pcu ∧ (handTalk t h).arb = h.arb ∧ (handTalk t h).links = h.links ∧ (handTalk t h).hlm = h.hlm) ∧
    (handTalk t h).req = h.req ∧ (handTalk t h).pnl = h.pnl ∧
    ∀ o, (handTalk t h).mon.output o =
      if h.tbk.talkAt o = t.talkAt o then h.mon.output o else (h.mon.output o).setTalker (t.talkAt o) := by
  simp only [handTalk, Mon.output, Tbl.get_of, and_self, implies_true]

/-- What is handed to MON and told of an event. -/
theorem notifyTalk_talks (h : Hub) (t : Tbk) (cause : Desk → Option TalkCause) :
    h.Talks t cause (notifyTalk h.tbk cause (handTalk t h)) := by
  obtain ⟨tbk, now, ⟨pcu, arb, links, hlm⟩, req, pnl, output⟩ := handTalk_fields t h
  have alike : (handTalk t h).Alike h := by
    refine ⟨?_, congrFun (Hub.linkUp_of_links links)⟩
    unfold Hub.NoticesOf
    rw [req, pnl]
    exact Hub.NoticesOf.refl h
  unfold notifyTalk
  rw [tbk, now]
  have told := notifyEach_told (Desk.all.filterMap fun x => (cause x).map (h.tbk.state t h.now x)) (handTalk t h)
  obtain ⟨now', pcu', arb', links', hlm', mon', tbk', -, -⟩ := Hub.core_eq told.core
  exact ⟨tbk'.trans tbk, now'.trans now, fun o => by rw [mon']; exact output o, (alike.notifyEach _).notices,
    pcu'.trans pcu, arb'.trans arb, links'.trans links, hlm'.trans hlm⟩

/-- A request in execution leaves what TBK reads. -/
theorem Hub.Talks.of_taken {who : Requester} {tag : Byte} {c : Call} (e : (h.taken who tag c).Talks t cause u) :
    h.Talks t cause u := by
  obtain ⟨now, pcu, arb, links, hlm, mon, tbk, -⟩ := Hub.taken_other h who tag c
  obtain ⟨tbk', now', output, notices, pcu', arb', links', hlm'⟩ := e
  rw [tbk, mon] at output
  rw [tbk, now] at notices
  exact ⟨tbk', now'.trans now, output, notices.trans ((Hub.taken_alike h who tag c).notifyEach _).notices, pcu'.trans pcu,
    arb'.trans arb, links'.trans links, hlm'.trans hlm⟩

/-- The answer of a request is no part of the event. -/
theorem Hub.Talks.answered (e : h.Talks t cause u) (who : Requester) (code : Code) (body : List Byte) :
    h.Talks t cause (answerTo who code body u) := by
  obtain ⟨now, pcu, arb, links, hlm, mon, tbk, -⟩ := Hub.core_eq (answerTo_core who code body u)
  obtain ⟨tbk', now', output, notices, pcu', arb', links', hlm'⟩ := e
  exact ⟨tbk.trans tbk', now.trans now', fun o => by rw [mon]; exact output o, (answerTo_noticesOf ..).trans notices,
    pcu.trans pcu', arb.trans arb', links.trans links', hlm.trans hlm'⟩

/-- After an event the outputs have the talkers of the new grants. -/
theorem Hub.Talks.talker (e : h.Talks t cause u) (fit : h.TalkFit) (ok : t.Agrees) (o : Out) :
    (u.mon.output o).talker = Tbl.get t.grants o := by
  have desk {x : Option Desk} {f : Desk → Nat} : (x.map fun d => (d, f d)).map (·.1) = x := by cases x <;> rfl
  have now : (t.talkAt o).map (·.1) = Tbl.get t.grants o := by rw [ok.talkAt, desk]
  rw [e.output]
  split
  · next same => rw [fit.talker, ← now, ← same, fit.talk.talkAt, desk]
  · exact now

/-- The outputs after an event, as their talkers with their ducks before and after it say. -/
theorem Hub.Talks.output_hand (e : h.Talks t cause u) (o : Out) :
    let talk : Tbk → Out → Option (Desk × Nat) := fun k o =>
      (Tbl.get k.grants o).bind fun x => (k.records.get x).map fun q => (x, q.duck)
    let hand : Option (Desk × Nat) → Output → Output := fun v p =>
      let depth := v.elim 0 fun x => x.2 * Config.duckPerDb
      { p with talker := v.map (·.1), duckTarget := depth, duck := if p.gap = 0 then depth else p.duck }
    u.mon.output o = if talk h.tbk o = talk u.tbk o then h.mon.output o else hand (talk u.tbk o) (h.mon.output o) := by
  intro talk hand
  rw [e.output, e.tbk, Output.setTalker_eq, Tbk.talkAt_bind, Tbk.talkAt_bind]

end

/-! ## The end of a desk's talk (R142, R143) -/

/-- The cause that TALK_STATE gives for a desk at the end of the talk of `d`. -/
def endCause (t u : Tbk) (d : Desk) (cause : TalkCause) (x : Desk) : Option TalkCause :=
  if x = d then some cause else if t.sets x = u.sets x then none else some .reassigned

/-- The desk's talk ended: an event that removes its record. -/
abbrev Hub.TalkEnded (h : Hub) (d : Desk) (cause : TalkCause) (u : Hub) : Prop :=
  h.Talks (h.tbk.remove h.sto.install.priority d)
    (endCause h.tbk (h.tbk.remove h.sto.install.priority d) d cause) u

section
variable {h u : Hub} {d : Desk} {cause : TalkCause}

theorem endTalk_ended (record : h.tbk.records.get d ≠ none) (cause : TalkCause) : h.TalkEnded d cause (endTalk d cause h) := by
  obtain ⟨r, record⟩ := Option.ne_none_iff_exists'.1 record
  simp only [endTalk, record]
  exact notifyTalk_talks ..

/-- The records of the other desks keep all but their sets. -/
theorem Tbk.remove_others (t : Tbk) (priority : PerReq Nat) {d x : Desk} (other : x ≠ d) :
    (∀ q, t.records.get x = some q → ∃ q', (t.remove priority d).records.get x = some q' ∧
      q' = { q with granted := q'.granted, pending := q'.pending }) ∧
    ((t.remove priority d).records.get x = none ↔ t.records.get x = none) := by
  obtain ⟨outline, -⟩ := t.remove_slice priority d
  have own : (t.dropped d).records.get x = t.records.get x := (Tbk.setRecord_records ..).trans (if_neg other)
  rw [← own]
  exact ⟨fun q record => Tbk.outline_record outline record, Tbk.outline_none outline⟩

/-- The TALK_STATE notices at the end of a desk's talk (R142, R143, R145). -/
theorem ended_notice {t : Tbk} (priority : PerReq Nat) (record : t.records.get d ≠ none) (cause : TalkCause) (now : Frame)
    (x : Desk) :
    let u := t.remove priority d
    (endCause t u d cause x).map (t.state u now x) =
      match t.records.get x, u.records.get x with
      | some p, none =>
        if x = d then some (.talkState d cause false (BitSet.empty 32) (BitSet.empty 32) p.duck none) else none
      | some p, some q =>
        if p.granted = q.granted ∧ p.pending = q.pending then none
        else some (.talkState x .reassigned true q.granted q.pending q.duck (q.deadline.map (timeLeft 48000 now)))
      | none, _ => none := by
  intro u
  by_cases own : x = d
  · subst own
    obtain ⟨p, record⟩ := Option.ne_none_iff_exists'.1 record
    have gone : u.records.get x = none := Tbk.remove_record ..
    simp [endCause, Tbk.state, Tbk.duckOf, record, gone]
  · obtain ⟨kept, absent⟩ := t.remove_others priority own
    cases was : t.records.get x with
    | none =>
      have gone : u.records.get x = none := absent.2 was
      simp [endCause, own, Tbk.sets, was, gone]
    | some p =>
      obtain ⟨q, now_, -⟩ := kept p was
      have now_ : u.records.get x = some q := now_
      have sets : t.sets x = u.sets x ↔ p.granted = q.granted ∧ p.pending = q.pending := by
        simp [Tbk.sets, was, now_]
      simp only [endCause, own, if_false, sets, now_]
      split
      · rfl
      · simp only [Option.map_some, Tbk.state, now_]
        rfl

/-- The outputs that the desk had go to those that wait, or to none; the other outputs keep their talkers (R141). -/
theorem Tbk.Agrees.removed_grants {t : Tbk} (ok : t.Agrees) (priority : PerReq Nat) (d : Desk) (o : Out) :
    let u := t.remove priority d
    (Tbl.get t.grants o ≠ some d → Tbl.get u.grants o = Tbl.get t.grants o) ∧
    (Tbl.get t.grants o = some d → (∀ e, ¬t.Waits d e o) → Tbl.get u.grants o = none) ∧
    (Tbl.get t.grants o = some d → (∃ e, t.Waits d e o) →
      ∃ e, t.Waits d e o ∧ Tbl.get u.grants o = some e ∧ ∀ x, t.Waits d x o → t.Before priority e x) := by
  intro u
  obtain ⟨-, slices⟩ := t.remove_slice priority d
  have grant : Tbl.get u.grants o = (u.slice o).talker := rfl
  have slice : u.slice o = _ := slices o
  obtain ⟨empty, best⟩ := ok.offered (priority := priority) (t.waiting_orderWithout d o)
  refine ⟨fun other => ?_, fun own none_ => ?_, fun own waits => ?_⟩
  · rw [grant, slice, if_neg fun has => other (ok.granted_iff.1 has)]
    rfl
  · rw [grant, slice, if_pos (ok.granted_iff.2 own), empty none_]
  · obtain ⟨e, waits, taken, top⟩ := best waits
    refine ⟨e, waits, ?_, top⟩
    rw [grant, slice, if_pos (ok.granted_iff.2 own), taken]
    rfl

/-- An output that falls empty has no talk, and its duck goes back. -/
theorem Hub.TalkEnded.silent (e : h.TalkEnded d cause u) (fit : h.TalkFit) {o : Out} (own : Tbl.get h.tbk.grants o = some d)
    (none_ : Tbl.get u.tbk.grants o = none) : (u.mon.output o).talker = none ∧ (u.mon.output o).duckTarget = 0 := by
  rw [e.tbk] at none_
  have ok := fit.talk.remove h.sto.install.priority d
  rw [e.output, fit.talk.talkAt, ok.talkAt, own, none_]
  exact ⟨rfl, rfl⟩

end

/-- Settles O44: the event is the record's removal, whose grants the offers of the outputs it held give. -/
theorem talkEnds : Obligations.TalkEnds := by
  unfold Obligations.TalkEnds
  intro d tag s ok h waits tell talk hand freed
  have fit : h.TalkFit := Hub.talkFit_iff.2 ok
  have waiting {e : Desk} {o : Out} : waits e o ↔ h.tbk.Waits d e o := Tbk.waits_iff.symm
  have ended {cause : TalkCause} {t : State} (record : h.tbk.records.get d ≠ none) (e : h.TalkEnded d cause t.hub) :
      freed cause t := by
    have tbk : t.hub.tbk = h.tbk.remove h.sto.install.priority d := e.tbk
    have talker (o : Out) : (t.hub.mon.output o).talker = Tbl.get t.hub.tbk.grants o := by
      rw [tbk]
      exact e.talker fit (fit.talk.remove ..) o
    have gone : t.hub.tbk.records.get d = none := by rw [tbk]; exact Tbk.remove_record ..
    have grants := fit.talk.removed_grants h.sto.install.priority d
    rw [← tbk] at grants
    have told : (fun x => (endCause h.tbk t.hub.tbk d cause x).map (h.tbk.state t.hub.tbk h.now x)) = tell cause t := by
      funext x
      have notice := ended_notice h.sto.install.priority record cause h.now x
      rw [← tbk] at notice
      exact notice
    have notices := e.notices
    rw [← tbk, told] at notices
    refine ⟨notices, gone, ?_, fun o => (grants o).1, fun o own none_ => ?_, fun o own some_ => ?_, fun x q other record => ?_,
      e.output_hand, e.others⟩
    · simp [Tbk.queue, gone]
    · have empty := (grants o).2.1 own fun e w => none_ e (waiting.2 w)
      exact ⟨empty, e.silent fit own empty⟩
    · obtain ⟨x, w, now, top⟩ := (grants o).2.2 own (some_.imp fun e w => waiting.1 w)
      exact ⟨x, waiting.2 w, now, (talker o).trans now, fun y w => top y (waiting.1 w)⟩
    · rw [tbk]
      exact (h.tbk.remove_others _ other).1 q record
  refine ⟨fun free record => ?_, fun free none_ => ?_, fun free => ?_, fun r dl record deadline elapsed => ?_⟩
  · let k := h.taken d.req tag .talkOff
    have own : k.tbk = h.tbk := by simp only [k, Hub.taken_other]
    have event : handOver d.req h.sto.erasePrepared .talkOff k = answerTo d.req .done [0#8] (endTalk d .talkOff k) := by
      obtain ⟨r, record⟩ := Option.ne_none_iff_exists'.1 record
      show tbkTalkOff d.req k = _
      simp only [tbkTalkOff, Desk.desk_req, own, record]
      rfl
    have queues : (endTalk d .talkOff k).req.queues.get d.req = ⟨[⟨tag, .talkOff⟩], true, (h.req.queues.get d.req).discarded⟩ := by
      rw [(endTalk_spec d .talkOff k).1.queues]
      exact Hub.taken_queue ..
    refine ⟨s.withHub (answerTo d.req .done [0#8] (endTalk d .talkOff k)), ?_, ended record ?_, ?_⟩
    · rw [exec_request (c := .talkOff) rfl free rfl (.inl rfl), event]
    · have e := endTalk_ended (h := k) (by rwa [own]) .talkOff
      have install : k.sto.install = h.sto.install := by simp only [k, Hub.taken_other]
      unfold Hub.TalkEnded at e ⊢
      rw [own, install] at e
      exact (Hub.Talks.of_taken e).answered ..
    · rw [answerTo_answerOf (e := ⟨tag, .talkOff⟩) (es := []) (by rw [queues]) (by rw [queues]), queues]
      rfl
  · refine exec_answered (c := .talkOff) rfl free rfl (.inl rfl) ?_
    show tbkTalkOff d.req (h.taken d.req tag .talkOff) = _
    have own : (h.taken d.req tag .talkOff).tbk.records.get d = none := by rw [← none_]; simp only [Hub.taken_other]
    simp only [tbkTalkOff, Desk.desk_req, endTalk, own]
    rfl
  · exact exec_answered (c := .talkOff) rfl free rfl (.inl rfl) rfl
  · refine ⟨s.withHub (endTalk d .timeout h), congrArg (fun k => Host.Outcome.next (s.withHub k)) ?_,
      ended (by rw [record]; simp) (endTalk_ended (by rw [record]; simp) .timeout)⟩
    show talkTimeout d h = _
    simp only [talkTimeout, record, deadline, due, elapsed, if_true]

end Sys2Proof.Machine
end

/-!
TALK_ON (R139): what it makes of each output, whom it tells, and its answer.
-/
section
namespace Sys2Proof.Machine

/-! ## A destination -/

/-- A desk takes an output that has no talker, its own, or one of lower priority. -/
def Slice.Wins (s : Slice) (priority : PerReq Nat) (d : Desk) : Prop :=
  ∀ x, s.talker = some x → x ≠ d → priority.get x.req < priority.get d.req

section
variable {s : Slice} {priority : PerReq Nat} {d : Desk}

/-- A destination won: it is the desk's, and its talker waits for it. -/
theorem Slice.destined_wins (wins : s.Wins priority d) :
    let u := (s.without d).destined priority d
    u.talker = some d ∧ u.granted d = true ∧ u.pending d = false ∧
    ∀ x, x ≠ d → (s.talker = some x → u.granted x = false ∧ u.pending x = true) ∧
      (s.talker ≠ some x → u.granted x = s.granted x ∧ u.pending x = s.pending x) := by
  have talker : (s.without d).talker = s.talker := rfl
  unfold Slice.destined
  rw [talker]
  cases has : s.talker with
  | none => exact ⟨rfl, by simp [Slice.taken], by simp [Slice.taken], fun x other =>
      ⟨nofun, fun _ => by simp [Slice.taken, Slice.without, other]⟩⟩
  | some y =>
    dsimp only
    split
    · next own => exact ⟨rfl, by simp [Slice.taken], by simp [Slice.taken], fun x other =>
        ⟨fun e => absurd ((Option.some.inj e).symm.trans own) other, fun _ => by simp [Slice.taken, Slice.without, other]⟩⟩
    · next away =>
      rw [if_pos (wins y has away)]
      refine ⟨rfl, by simp [Slice.taken], by simp [Slice.taken], fun x other => ⟨fun e => ?_, fun e => ?_⟩⟩
      · cases e
        simp [Slice.taken, Slice.held, other]
      · have apart : x ≠ y := fun same => e (by rw [same])
        simp [Slice.taken, Slice.held, Slice.without, other, apart]

/-- A destination not won: the desk waits for it. -/
theorem Slice.destined_waits (loses : ¬s.Wins priority d) :
    let u := (s.without d).destined priority d
    u.talker = s.talker ∧ u.granted d = false ∧ u.pending d = true ∧
    ∀ x, x ≠ d → u.granted x = s.granted x ∧ u.pending x = s.pending x := by
  unfold Slice.Wins at loses
  push Not at loses
  obtain ⟨y, has, away, above⟩ := loses
  have talker : (s.without d).talker = s.talker := rfl
  unfold Slice.destined
  rw [talker, has]
  dsimp only
  rw [if_neg away, if_neg (by omega)]
  refine ⟨has, by simp [Slice.held], by simp [Slice.held], fun x other => by simp [Slice.held, Slice.without, other]⟩

end

/-! ## The records and grants after a TALK_ON -/

section
variable {t : Tbk} {priority : PerReq Nat} {d x : Desk} {set : BitSet 32} {duck : Nat} {deadline : Option Frame} {o : Out}

/-- The output is won by the desk. -/
abbrev Tbk.Wins (t : Tbk) (priority : PerReq Nat) (d : Desk) (o : Out) : Prop := (t.slice o).Wins priority d

/-- The fields of the new record besides its sets, and of TBK besides the grants and records. -/
theorem Tbk.Agrees.talkOn_record (ok : t.Agrees) (priority : PerReq Nat) (d : Desk) (set : BitSet 32) (duck : Nat)
    (deadline : Option Frame) :
    let u := t.talkOn priority d set duck deadline
    u.arrival = t.arrival + 1#32 ∧
    (∃ r, u.records.get d = some r ∧
      r = { t.newRecord set duck deadline with granted := r.granted, pending := r.pending }) ∧
    ∀ x, x ≠ d → (∀ q, t.records.get x = some q → ∃ q', u.records.get x = some q' ∧
      q' = { q with granted := q'.granted, pending := q'.pending }) ∧
      (u.records.get x = none ↔ t.records.get x = none) := by
  intro u
  obtain ⟨-, outline, -, -⟩ := ok.talkOn_slice priority d set duck deadline
  obtain ⟨-, arrival, -⟩ := Tbk.outline_fields outline
  obtain ⟨-, begun, records⟩ := t.begin_fields d set duck deadline
  refine ⟨arrival.trans begun, Tbk.outline_record outline ((records d).trans (if_pos rfl)), fun x other => ?_⟩
  rw [← (records x).trans (if_neg other)]
  exact ⟨fun q record => Tbk.outline_record outline record, Tbk.outline_none outline⟩

/-- A destination after a TALK_ON (R139, step 3). -/
theorem Tbk.Agrees.talkOn_destination (ok : t.Agrees) (named : Tbl.get set o = true) :
    let u := t.talkOn priority d set duck deadline
    (t.Wins priority d o → Tbl.get u.grants o = some d ∧ u.grantedOn d o = true ∧ u.pendingOn d o = false ∧
      ∀ x, x ≠ d → (Tbl.get t.grants o = some x → u.grantedOn x o = false ∧ u.pendingOn x o = true) ∧
        (Tbl.get t.grants o ≠ some x → u.grantedOn x o = t.grantedOn x o ∧ u.pendingOn x o = t.pendingOn x o)) ∧
    (¬t.Wins priority d o → Tbl.get u.grants o = Tbl.get t.grants o ∧ u.grantedOn d o = false ∧ u.pendingOn d o = true ∧
      ∀ x, x ≠ d → u.grantedOn x o = t.grantedOn x o ∧ u.pendingOn x o = t.pendingOn x o) := by
  intro u
  obtain ⟨-, -, -, slices⟩ := ok.talkOn_slice priority d set duck deadline
  have slice : u.slice o = ((t.slice o).without d).destined priority d := (slices o).trans (if_pos named)
  have grants : Tbl.get u.grants o = (u.slice o).talker := rfl
  have granted (x : Desk) : u.grantedOn x o = (u.slice o).granted x := rfl
  have pending (x : Desk) : u.pendingOn x o = (u.slice o).pending x := rfl
  simp only [grants, granted, pending, slice]
  exact ⟨Slice.destined_wins, Slice.destined_waits⟩

/-- An output that the desk does not name and did not have (R139). -/
theorem Tbk.Agrees.talkOn_untouched (ok : t.Agrees) (unnamed : Tbl.get set o = false) (other : Tbl.get t.grants o ≠ some d) :
    let u := t.talkOn priority d set duck deadline
    Tbl.get u.grants o = Tbl.get t.grants o ∧
    ∀ x, x ≠ d → u.grantedOn x o = t.grantedOn x o ∧ u.pendingOn x o = t.pendingOn x o := by
  intro u
  obtain ⟨-, -, -, slices⟩ := ok.talkOn_slice priority d set duck deadline
  have slice : u.slice o = (t.slice o).without d := by
    rw [slices, if_neg (by simp [unnamed]), if_neg fun has => other (ok.granted_iff.1 has)]
  refine ⟨congrArg Slice.talker slice, fun x apart => ?_⟩
  have granted : u.grantedOn x o = ((t.slice o).without d).granted x := congrArg (Slice.granted · x) slice
  have pending : u.pendingOn x o = ((t.slice o).without d).pending x := congrArg (Slice.pending · x) slice
  rw [granted, pending]
  simp [Slice.without, apart, Tbk.slice]

/-- An output that the desk gives up (R139, step 4; R141). -/
theorem Tbk.Agrees.talkOn_freed (ok : t.Agrees) (unnamed : Tbl.get set o = false) (own : Tbl.get t.grants o = some d) :
    let u := t.talkOn priority d set duck deadline
    ((∀ e, ¬t.Waits d e o) → Tbl.get u.grants o = none ∧
      ∀ x, x ≠ d → u.grantedOn x o = t.grantedOn x o ∧ u.pendingOn x o = t.pendingOn x o) ∧
    ((∃ e, t.Waits d e o) → ∃ e, t.Waits d e o ∧ Tbl.get u.grants o = some e ∧
      u.grantedOn e o = true ∧ u.pendingOn e o = false ∧
      (∀ x, x ≠ d → x ≠ e → u.grantedOn x o = t.grantedOn x o ∧ u.pendingOn x o = t.pendingOn x o) ∧
      ∀ x, t.Waits d x o → t.Before priority e x) := by
  intro u
  obtain ⟨-, -, -, slices⟩ := ok.talkOn_slice priority d set duck deadline
  have slice : u.slice o = _ := slices o
  rw [if_neg (by simp [unnamed]), if_pos (ok.granted_iff.2 own)] at slice
  have grants : Tbl.get u.grants o = (u.slice o).talker := rfl
  have granted (x : Desk) : u.grantedOn x o = (u.slice o).granted x := rfl
  have pending (x : Desk) : u.pendingOn x o = (u.slice o).pending x := rfl
  obtain ⟨empty, best⟩ := ok.offered (priority := priority) (t.waiting_renewed d o)
  simp only [grants, granted, pending, slice]
  refine ⟨fun none_ => ?_, fun waits => ?_⟩
  · rw [empty none_]
    exact ⟨rfl, fun x other => by simp [Slice.without, other, Tbk.slice]⟩
  · obtain ⟨e, waits, taken, top⟩ := best waits
    rw [taken]
    exact ⟨e, waits, rfl, by simp [Slice.taken], by simp [Slice.taken],
      fun x other apart => by simp [Slice.taken, Slice.without, other, apart, Tbk.slice], top⟩

/-- An output that the desk does not name is none of its record's. -/
theorem Tbk.Agrees.talkOn_unnamed (ok : t.Agrees) (unnamed : Tbl.get set o = false) :
    let u := t.talkOn priority d set duck deadline
    u.grantedOn d o = false ∧ u.pendingOn d o = false := by
  intro u
  obtain ⟨-, outline, -, -⟩ := ok.talkOn_slice priority d set duck deadline
  obtain ⟨-, -, records⟩ := t.begin_fields d set duck deadline
  have names : u.names d o = false := by
    rw [show u.names d o = _ from Tbk.outline_names outline d o, Tbk.names, records, if_pos rfl]
    exact unnamed
  have agree : u.Agrees := ok.talkOn priority d set duck deadline
  have named := ((agree.slice o).named d).not.1 (by simp [names])
  exact ⟨Bool.eq_false_iff.2 fun g => named (.inl g), Bool.eq_false_iff.2 fun p => named (.inr p)⟩

/-- The sets of the desk's record after a TALK_ON, and the grants of its destinations (R139, step 3). -/
theorem Tbk.Agrees.talkOn_sets (ok : t.Agrees) (priority : PerReq Nat) (d : Desk) (set : BitSet 32) (duck : Nat)
    (deadline : Option Frame) (o : Out) :
    let u := t.talkOn priority d set duck deadline
    (u.grantedOn d o = true ↔ Tbl.get set o = true ∧ t.Wins priority d o) ∧
    (u.pendingOn d o = true ↔ Tbl.get set o = true ∧ ¬t.Wins priority d o) ∧
    (Tbl.get set o = true → Tbl.get u.grants o = if u.grantedOn d o = true then some d else Tbl.get t.grants o) := by
  intro u
  cases named : Tbl.get set o with
  | false =>
    obtain ⟨granted, pending⟩ := ok.talkOn_unnamed (priority := priority) (d := d) (duck := duck) (deadline := deadline) named
    simp [show u.grantedOn d o = false from granted, show u.pendingOn d o = false from pending]
  | true =>
    obtain ⟨wins, loses⟩ := ok.talkOn_destination (priority := priority) (d := d) (duck := duck) (deadline := deadline) named
    by_cases won : t.Wins priority d o
    · obtain ⟨talker, granted, pending, -⟩ : Tbl.get u.grants o = some d ∧ u.grantedOn d o = true ∧ u.pendingOn d o = false ∧ _ :=
        wins won
      simp [granted, pending, won, talker]
    · obtain ⟨talker, granted, pending, -⟩ :
          Tbl.get u.grants o = Tbl.get t.grants o ∧ u.grantedOn d o = false ∧ u.pendingOn d o = true ∧ _ := loses won
      simp [granted, pending, won, talker]

/-! ## Whom a TALK_ON tells (R139, step 6; R145) -/

/-- A desk has in one TBK what it has in another of an output. -/
def Tbk.SameAt (t u : Tbk) (x : Desk) (o : Out) : Prop := t.grantedOn x o = u.grantedOn x o ∧ t.pendingOn x o = u.pendingOn x o

/-- What a desk has of an output at the steps of another's TALK_ON: the destinations can only take the output from it, the
outputs given up only bring it. -/
theorem Tbk.Agrees.talkOn_moves (ok : t.Agrees) (other : x ≠ d) (o : Out) :
    let t1 := t.begin d set duck deadline
    let t2 := t1.takeAll priority d set
    let t3 := t.talkOn priority d set duck deadline
    (t1.SameAt t2 x o ↔ ¬(t.grantedOn x o = true ∧ t3.grantedOn x o = false)) ∧
    (t2.SameAt t3 x o ↔ ¬(t.grantedOn x o = false ∧ t3.grantedOn x o = true)) := by
  intro t1 t2 t3
  obtain ⟨-, -, taken, slices⟩ := ok.talkOn_slice priority d set duck deadline
  have begun : t1.SameAt t x o := by
    have slice : t1.slice o = _ := t.begin_slice d set duck deadline o
    refine ⟨(congrArg (Slice.granted · x) slice).trans ?_, (congrArg (Slice.pending · x) slice).trans ?_⟩ <;>
      simp [Slice.without, other, Tbk.slice]
  have first : t1.SameAt t2 x o ↔ t.SameAt t2 x o := by
    unfold Tbk.SameAt
    rw [begun.1, begun.2]
  have kept {u : Tbk} (same : u.grantedOn x o = t.grantedOn x o ∧ u.pendingOn x o = t.pendingOn x o) : t.SameAt u x o :=
    ⟨same.1.symm, same.2.symm⟩
  have idle (same : t.SameAt t3 x o) : ¬(t.grantedOn x o = true ∧ t3.grantedOn x o = false) ∧
      ¬(t.grantedOn x o = false ∧ t3.grantedOn x o = true) := by
    rw [← same.1]
    constructor <;> rintro ⟨a, b⟩ <;> simp [a] at b
  rw [first]
  cases named : Tbl.get set o with
  | true =>
    have step : t2.slice o = t3.slice o := by rw [taken, slices, if_pos named, if_pos named]
    have step : t2.SameAt t3 x o := ⟨congrArg (Slice.granted · x) step, congrArg (Slice.pending · x) step⟩
    have second : t.SameAt t2 x o ↔ t.SameAt t3 x o := by
      unfold Tbk.SameAt
      rw [step.1, step.2]
    rw [second]
    obtain ⟨wins, loses⟩ := ok.talkOn_destination (priority := priority) (d := d) (duck := duck) (deadline := deadline) named
    have unmoved (same : t.SameAt t3 x o) : (t.SameAt t3 x o ↔ ¬(t.grantedOn x o = true ∧ t3.grantedOn x o = false)) ∧
        (t2.SameAt t3 x o ↔ ¬(t.grantedOn x o = false ∧ t3.grantedOn x o = true)) :=
      ⟨iff_of_true same (idle same).1, iff_of_true step (idle same).2⟩
    by_cases won : t.Wins priority d o
    · obtain ⟨-, -, -, each⟩ := wins won
      by_cases talks : Tbl.get t.grants o = some x
      · have was : t.grantedOn x o = true := ok.granted_iff.2 talks
        have now : t3.grantedOn x o = false := ((each x other).1 talks).1
        refine ⟨iff_of_false (fun same => ?_) fun n => n ⟨was, now⟩, iff_of_true step fun n => by simp [was] at n⟩
        exact absurd (same.1.symm.trans was) (by simp [now])
      · exact unmoved (kept ((each x other).2 talks))
    · obtain ⟨-, -, -, each⟩ := loses won
      exact unmoved (kept (each x other))
  | false =>
    have step : t.SameAt t2 x o := by
      have slice : t2.slice o = (t.slice o).without d := by rw [taken, if_neg (by simp [named])]
      refine kept ⟨(congrArg (Slice.granted · x) slice).trans ?_, (congrArg (Slice.pending · x) slice).trans ?_⟩ <;>
        simp [Slice.without, other, Tbk.slice]
    have second : t2.SameAt t3 x o ↔ t.SameAt t3 x o := by
      unfold Tbk.SameAt
      rw [step.1, step.2]
    rw [second]
    have unmoved (same : t.SameAt t3 x o) : (t.SameAt t2 x o ↔ ¬(t.grantedOn x o = true ∧ t3.grantedOn x o = false)) ∧
        (t.SameAt t3 x o ↔ ¬(t.grantedOn x o = false ∧ t3.grantedOn x o = true)) :=
      ⟨iff_of_true step (idle same).1, iff_of_true same (idle same).2⟩
    by_cases own : Tbl.get t.grants o = some d
    · obtain ⟨empty, best⟩ := ok.talkOn_freed (priority := priority) (duck := duck) (deadline := deadline) named own
      by_cases waits : ∃ e, t.Waits d e o
      · obtain ⟨e, w, -, has, -, rest, -⟩ := best waits
        by_cases receives : x = e
        · subst receives
          have was : t.grantedOn x o = false := (ok.slice o).apart x w.2
          have now : t3.grantedOn x o = true := has
          refine ⟨iff_of_true step fun n => by simp [was] at n, iff_of_false (fun same => ?_) fun n => n ⟨was, now⟩⟩
          exact absurd (same.1.symm.trans was) (by simp [now])
        · exact unmoved (kept (rest x other receives))
      · exact unmoved (kept ((empty fun e w => waits ⟨e, w⟩).2 x other))
    · exact unmoved (kept ((ok.talkOn_untouched named own).2 x other))

/-- The cause that TALK_STATE gives for a desk at a TALK_ON of `d`. -/
def onCause (t1 t2 t3 : Tbk) (d x : Desk) : Option TalkCause :=
  if x = d then some .talkOn
  else talkCause (!decide (t1.sets x = t2.sets x)) (!decide (t2.sets x = t3.sets x))

/-- A desk lost an output. -/
def Tbk.lost (t u : Tbk) (x : Desk) : Bool := (List.finRange 32).any fun o => t.grantedOn x o && !u.grantedOn x o

/-- A desk received an output. -/
def Tbk.received (t u : Tbk) (x : Desk) : Bool := (List.finRange 32).any fun o => !t.grantedOn x o && u.grantedOn x o

theorem Tbk.lost_iff {u : Tbk} : t.lost u x = true ↔ ∃ o, t.grantedOn x o = true ∧ u.grantedOn x o = false := by
  simp [Tbk.lost]

theorem Tbk.received_iff {u : Tbk} : t.received u x = true ↔ ∃ o, t.grantedOn x o = false ∧ u.grantedOn x o = true := by
  simp [Tbk.received]

/-- A desk is told of another's TALK_ON if it lost outputs, or received some. -/
theorem Tbk.Agrees.onCause_other (ok : t.Agrees) (other : x ≠ d) :
    let t1 := t.begin d set duck deadline
    let t2 := t1.takeAll priority d set
    let t3 := t.talkOn priority d set duck deadline
    onCause t1 t2 t3 d x = talkCause (t.lost t3 x) (t.received t3 x) := by
  intro t1 t2 t3
  obtain ⟨outline2, outline3, -, -⟩ := ok.talkOn_slice priority d set duck deadline
  have moves (o : Out) := ok.talkOn_moves (priority := priority) (set := set) (duck := duck) (deadline := deadline) other o
  have lost : t1.sets x = t2.sets x ↔ ¬t.lost t3 x = true := by
    rw [Tbk.sets_eq_iff (Tbk.outline_none outline2), Tbk.lost_iff, not_exists]
    exact forall_congr' fun o => (moves o).1
  have received : t2.sets x = t3.sets x ↔ ¬t.received t3 x = true := by
    rw [Tbk.sets_eq_iff ((Tbk.outline_none outline3).trans (Tbk.outline_none outline2).symm), Tbk.received_iff, not_exists]
    exact forall_congr' fun o => (moves o).2
  unfold onCause
  rw [if_neg other]
  congr 1
  · rw [Bool.eq_iff_iff]
    simp [lost]
  · rw [Bool.eq_iff_iff]
    simp [received]

/-- The cause of a desk that lost outputs, received some, or both (log entry 24). -/
theorem talkCause_eq (lost received : Bool) : talkCause lost received =
    if (lost && received) = true then some (if Config.reportsPreempted then .preempted else .reassigned)
    else if lost = true then some .preempted else if received = true then some .reassigned else none := by
  cases lost <;> cases received <;> rfl

end

/-! ## The event -/

/-- TBK after a TALK_ON. -/
def Hub.talkedOn (h : Hub) (d : Desk) (set : BitSet 32) (duck : Nat) : Tbk :=
  h.tbk.talkOn h.sto.install.priority d set duck (talkDeadline h.now h.sto.install.talkTimeout)

/-- The cause of each desk's TALK_STATE at a TALK_ON. -/
def Hub.talkOnCause (h : Hub) (d : Desk) (set : BitSet 32) (duck : Nat) : Desk → Option TalkCause :=
  let t1 := h.tbk.begin d set duck (talkDeadline h.now h.sto.install.talkTimeout)
  onCause t1 (t1.takeAll h.sto.install.priority d set) (h.talkedOn d set duck) d

section
variable {h k u : Hub} {d x : Desk} {set : BitSet 32} {duck : Nat}

theorem carryTalkOn_talks (h : Hub) (d : Desk) (set : BitSet 32) (duck : Nat) :
    h.Talks (h.talkedOn d set duck) (h.talkOnCause d set duck) (carryTalkOn d set duck h) := notifyTalk_talks ..

theorem carryTalkOn_queues (h : Hub) (d : Desk) (set : BitSet 32) (duck : Nat) :
    (carryTalkOn d set duck h).req.queues = h.req.queues := by
  obtain ⟨-, -, -, req, -⟩ := handTalk_fields (h.talkedOn d set duck) h
  exact Eq.trans (notifyEach_told ..).queues (congrArg Req.queues req)

/-- TBK and the notices of a TALK_ON depend on what TBK, the time and the install settings are. -/
theorem Hub.talkedOn_of (now : k.now = h.now) (tbk : k.tbk = h.tbk) (install : k.sto.install = h.sto.install) :
    k.talkedOn d set duck = h.talkedOn d set duck ∧ k.talkOnCause d set duck = h.talkOnCause d set duck := by
  simp only [Hub.talkedOn, Hub.talkOnCause, now, tbk, install, and_self]

/-- A TALK_ON in range of a desk whose link is UP (R138). -/
theorem tbkTalkOn_carried {o : Out} (mem : Tbl.get set o = true) (depth : duck ≤ 30) (linked : h.linkUp d = true) :
    tbkTalkOn d.req set duck h =
      answerTo d.req .done (talkOnBody (carryTalkOn d set duck h) d) (carryTalkOn d set duck h) := by
  simp only [tbkTalkOn, members_isEmpty_false mem, Desk.desk_req, linked, if_true,
    show decide (30 < duck) = false by simpa using depth, Bool.or_self, Bool.false_eq_true, if_false]

theorem talkOnBody_of (tbk : k.tbk = h.tbk) (now : k.now = h.now) : talkOnBody k d = talkOnBody h d := by
  simp only [talkOnBody, tbk, now]

/-- TALK_STATE of the desk's own record. -/
theorem talkOn_notice_own {r : TalkRec} (record : (h.talkedOn d set duck).records.get d = some r) :
    (h.talkOnCause d set duck d).map (h.tbk.state (h.talkedOn d set duck) h.now d) =
      some (.talkState d .talkOn true r.granted r.pending r.duck (r.remaining h.now)) := by
  simp [Hub.talkOnCause, onCause, Tbk.state, record]

/-- TALK_STATE of another record. -/
theorem talkOn_notice_other (ok : h.tbk.Agrees) (other : x ≠ d) {q : TalkRec}
    (record : (h.talkedOn d set duck).records.get x = some q) :
    let t := h.talkedOn d set duck
    let note := fun cause => some (Notice.talkState x cause true q.granted q.pending q.duck (q.remaining h.now))
    (h.talkOnCause d set duck x).map (h.tbk.state t h.now x) =
      if (h.tbk.lost t x && h.tbk.received t x) = true then note (if Config.reportsPreempted then .preempted else .reassigned)
      else if h.tbk.lost t x = true then note .preempted else if h.tbk.received t x = true then note .reassigned else none := by
  intro t note
  have state (cause : TalkCause) : h.tbk.state t h.now x cause = .talkState x cause true q.granted q.pending q.duck
      (q.remaining h.now) := by
    simp only [Tbk.state, show t.records.get x = some q from record]
  have cause : h.talkOnCause d set duck x = talkCause (h.tbk.lost t x) (h.tbk.received t x) := ok.onCause_other other
  rw [cause, talkCause_eq]
  split
  · exact congrArg some (state _)
  · split
    · exact congrArg some (state _)
    · split
      · exact congrArg some (state _)
      · rfl

/-- A desk without a record is told nothing. -/
theorem talkOn_notice_none (ok : h.tbk.Agrees) (other : x ≠ d) (record : (h.talkedOn d set duck).records.get x = none) :
    (h.talkOnCause d set duck x).map (h.tbk.state (h.talkedOn d set duck) h.now x) = none := by
  obtain ⟨-, -, others⟩ := ok.talkOn_record h.sto.install.priority d set duck
    (talkDeadline h.now h.sto.install.talkTimeout)
  have was : h.tbk.records.get x = none := (others x other).2.1 record
  have cause : h.talkOnCause d set duck x = talkCause (h.tbk.lost (h.talkedOn d set duck) x)
    (h.tbk.received (h.talkedOn d set duck) x) := ok.onCause_other other
  have lost : h.tbk.lost (h.talkedOn d set duck) x = false := by simp [Tbk.lost, Tbk.grantedOn, was]
  have received : h.tbk.received (h.talkedOn d set duck) x = false := by simp [Tbk.received, Tbk.grantedOn, record]
  rw [cause, lost, received]
  rfl

end

end Sys2Proof.Machine
end

/-!
TALK_ON, settled (R139).
-/
section
namespace Sys2Proof.Machine

/-- Settles O43: the new record's sets and the grants output by output, the notices desk by desk, the outputs by what TBK hands
to MON. -/
theorem talkOnTakesItsDestinations : Obligations.TalkOnTakesItsDestinations := by
  unfold Obligations.TalkOnTakesItsDestinations
  intro d tag set duck s free ok ⟨o0, mem⟩ depth h wins tell waits talk hand
  have fit : h.TalkFit := Hub.talkFit_iff.2 ok
  have agrees := fit.talk
  let call := Call.talkOn set duck
  let k := h.taken d.req tag call
  obtain ⟨now, -, -, links, -, -, tbk, -, -, -, install, -⟩ := Hub.taken_other h d.req tag call
  let u := carryTalkOn d set duck k
  let T := h.talkedOn d set duck
  let t : State := s.withHub (answerTo d.req .done (talkOnBody u d) u)
  have event : exec (.talkOn d.req tag set duck) s = .next t := by
    have request := exec_request (i := .talkOn d.req tag set duck) (c := call) rfl free rfl (.inl rfl)
    obtain ⟨-, -, -, linked⟩ := free
    have linked : k.linkUp d = true := by
      rw [Hub.linkUp_of_links links]
      exact linked d (Desk.desk_req d)
    exact request.trans (congrArg (fun k => Host.Outcome.next (s.withHub k)) (tbkTalkOn_carried mem depth linked))
  have talks : h.Talks T (h.talkOnCause d set duck) t.hub := by
    have e := carryTalkOn_talks k d set duck
    obtain ⟨table, cause⟩ := Hub.talkedOn_of (d := d) (set := set) (duck := duck) now tbk install
    rw [show k.talkedOn d set duck = T from table, show k.talkOnCause d set duck = _ from cause] at e
    exact (Hub.Talks.of_taken e).answered ..
  have answer : t.hub.answerOf d.req = some ⟨0x0F#8, tag, (h.req.queues.get d.req).discarded, .done, talkOnBody t.hub d⟩ := by
    obtain ⟨now', -, -, -, -, -, tbk', -⟩ := Hub.core_eq (answerTo_core d.req .done (talkOnBody u d) u)
    have queues : u.req.queues.get d.req = ⟨[⟨tag, call⟩], true, (h.req.queues.get d.req).discarded⟩ := by
      rw [carryTalkOn_queues]
      exact Hub.taken_queue ..
    rw [talkOnBody_of tbk' now', answerTo_answerOf (e := ⟨tag, call⟩) (es := []) (by rw [queues]) (by rw [queues]), queues]
    rfl
  have after : t.hub.tbk = T := talks.tbk
  have waiting {e : Desk} {o : Out} : waits e o ↔ h.tbk.Waits d e o := Tbk.waits_iff.symm
  clear_value t
  have agreesT : T.Agrees := agrees.talkOn ..
  obtain ⟨arrival, ⟨r, record, bare⟩, others⟩ := agrees.talkOn_record h.sto.install.priority d set duck
    (talkDeadline h.now h.sto.install.talkTimeout)
  have record : T.records.get d = some r := record
  have granted (o : Out) : T.grantedOn d o = Tbl.get r.granted o := by simp [Tbk.grantedOn, record]
  have pending (o : Out) : T.pendingOn d o = Tbl.get r.pending o := by simp [Tbk.pendingOn_eq, record]
  have inRecord {e : Desk} {o : Out} {q : TalkRec} (own : T.records.get e = some q) :
      T.grantedOn e o = Tbl.get q.granted o ∧ T.pendingOn e o = Tbl.get q.pending o := by
    simp [Tbk.grantedOn, Tbk.pendingOn_eq, own]
  have sets (o : Out) : (T.grantedOn d o = true ↔ Tbl.get set o = true ∧ wins o) ∧
      (T.pendingOn d o = true ↔ Tbl.get set o = true ∧ ¬wins o) ∧
      (Tbl.get set o = true → Tbl.get T.grants o = if T.grantedOn d o = true then some d else Tbl.get h.tbk.grants o) :=
    agrees.talkOn_sets ..
  have told : (fun x => (h.talkOnCause d set duck x).map (h.tbk.state T h.now x)) = tell t := by
    funext x
    unfold tell
    rw [after]
    by_cases own : x = d
    · subst own
      rw [talkOn_notice_own record, record]
      exact (if_pos rfl).symm
    · cases now_ : T.records.get x with
      | none => exact (talkOn_notice_none agrees own now_).trans (by cases h.tbk.records.get x <;> rfl)
      | some q =>
        have has (o : Out) : T.grantedOn x o = Tbl.get q.granted o := (inRecord now_).1
        have lost : h.tbk.lost T x = (List.finRange 32).any fun o => h.tbk.grantedOn x o && !Tbl.get q.granted o := by
          simp only [Tbk.lost, has]
        have received : h.tbk.received T x = (List.finRange 32).any fun o => !h.tbk.grantedOn x o && Tbl.get q.granted o := by
          simp only [Tbk.received, has]
        rw [talkOn_notice_other agrees own now_, lost, received]
        exact (if_neg own).symm
  have notices := talks.notices
  rw [told] at notices
  refine ⟨t, r, event, by rw [after]; exact record, by rw [bare]; rfl, by rw [bare]; rfl, by rw [bare]; rfl, by rw [bare]; rfl,
    by rw [after]; exact arrival, fun o => ?_, fun o => ?_, fun o named => ?_, fun o x named w other talker => ?_,
    fun o unnamed other => ?_, fun o unnamed own => ⟨fun none_ => ?_, fun some_ => ?_⟩, fun x q other was => ?_,
    fun x other was => ?_, talks.output_hand, fun o has => ?_, notices, answer, talks.others⟩
  · rw [← granted]
    exact (sets o).1
  · rw [← pending]
    exact (sets o).2.1
  · rw [after, ← granted]
    exact (sets o).2.2 named
  · obtain ⟨-, -, -, each⟩ := (agrees.talkOn_destination (duck := duck)
      (deadline := talkDeadline h.now h.sto.install.talkTimeout) named).1 w
    obtain ⟨lost, waits⟩ := (each x other).1 talker
    obtain ⟨q, own⟩ := Option.ne_none_iff_exists'.1 (Tbk.record_of_pending waits)
    obtain ⟨g, p⟩ := inRecord (o := o) own
    exact ⟨q, by rw [after]; exact own, p.symm.trans waits, g.symm.trans lost⟩
  · rw [after]
    exact (agrees.talkOn_untouched unnamed other).1
  · rw [after]
    exact ((agrees.talkOn_freed unnamed own).1 fun e w => none_ e (waiting.2 w)).1
  · obtain ⟨e, w, talker, has, waits, -, top⟩ := (agrees.talkOn_freed (priority := h.sto.install.priority) (duck := duck)
      (deadline := talkDeadline h.now h.sto.install.talkTimeout) unnamed own).2 (some_.imp fun e w => waiting.1 w)
    obtain ⟨q, own⟩ := Option.ne_none_iff_exists'.1 (Tbk.record_of_granted has)
    obtain ⟨g, p⟩ := inRecord (o := o) own
    rw [after]
    exact ⟨e, q, waiting.2 w, talker, own, g.symm.trans has, p.symm.trans waits, fun y w => top y (waiting.1 w)⟩
  · rw [after]
    exact (others x other).1 q was
  · rw [after]
    exact (others x other).2.2 was
  · rw [talks.talker fit agreesT]
    exact agreesT.granted_iff.1 ((granted o).trans has)

end Sys2Proof.Machine
end
